-- ==== Sys2Proof/Word.lean ====
section
/-! DEFINITION. Bytes, byte memories and sparse tables: the plain types the whole model shares. -/

namespace Sys2Proof

/-- One byte (00_scope.md, "Numbers and units"). -/
abbrev Byte := BitVec 8

/-- A byte memory: (address, byte) pairs in canonical form (rising addresses, no byte equal to what an
unlisted address reads as). -/
abbrev Mem := List Host.Cell

/-- A sparse table by number: (key, value) pairs; a key that is not listed has the table's default. -/
abbrev Tab (α : Type) := List (Nat × α)

end Sys2Proof
end

