-- ==== Sys2Proof/Syntax.lean ====
section
/-! DEFINITION. The commands of the block: one constructor per row of spec/opcode_table.json. Packet commands carry the
issuing function, the header fields and the raw parameter block; events carry what the outside supplies. -/

namespace Sys2Proof

/-- A PCI Express function (14_host_link.md R517): the physical function, or the virtual function of compartment `k`. -/
inductive Fn where
  | pf
  | vf (k : Nat)
  deriving DecidableEq, Repr

/-- A command packet as its meaning sees it (03_command_packets.md Table 3.3): who issued it, what intake gave it, and its
parameter block. -/
structure Cmd where
  /-- issuing function -/
  fn : Fn
  /-- submission ring 0-3 -/
  ring : Nat
  /-- sequence number (48 bits) -/
  seq : Nat
  /-- tag (32 bits) -/
  tag : Nat
  /-- COOKIE (64 bits) -/
  cookie : Nat
  /-- FLAGS (16 bits), Table 3.4 -/
  flags : Nat
  /-- STREAM (32 bits) -/
  stream : Nat
  /-- position in admission order (R81) -/
  order : Nat
  /-- stroke of admission -/
  stroke : Nat
  /-- the parameter block -/
  block : List Byte
  deriving DecidableEq, Repr

/-- Bytes the host stored in its own memory before the event that carries them (log 4). -/
structure HostStore where
  addr : Nat
  bytes : List Byte
  deriving DecidableEq, Repr

/-- What the environment makes of one command's memory and host traffic in a run. -/
inductive RunFault where
  /-- no fault -/
  | none
  /-- a tile's tag or header did not verify (06 R225) -/
  | auth
  /-- a coded payload was malformed (06 R226) -/
  | coding
  /-- a line tag did not match (12 R452) -/
  | lineTag (tag : Nat)
  /-- a host-window access failed (14 Table 14.4) -/
  | window
  /-- an access of another host transfer failed with a completion error (14 Table 14.4) -/
  | hostAccess
  /-- an IDE integrity failure (14 R526) -/
  | ide
  deriving DecidableEq, Repr

/-- How far a quantum takes one unit of a command's work (02 R48): an accumulator tile with the reduction steps done at the cut,
a group of scan channels with its chunks, or a whole output tile; and the Anvil that works on it (05 R162). -/
structure Reach where
  anvil : Nat
  unit : Nat
  steps : Nat
  deriving DecidableEq, Repr

/-- One quantum of a command, by admission order (02 R48-R53). -/
structure RunItem where
  order : Nat
  fault : RunFault
  /-- where the quantum is cut; none for a command's last quantum, which does all that is left -/
  reach : List Reach := []
  /-- worst-case duration, ns (02 R51) -/
  ns : Nat := 0
  /-- tiles of the next quantum that the run fetches: table address and descriptor index (06 R234) -/
  fetch : List (Nat × Nat) := []
  /-- stored forms in the HBM share that no longer authenticate: table address and descriptor index (06 R225) -/
  spoilt : List (Nat × Nat) := []
  deriving DecidableEq, Repr

/-- A tile that a peer memory completion concerns, with the stored form that a read brings (13 R498). -/
structure PeerTile where
  index : Nat
  form : List Byte := []
  deriving DecidableEq, Repr

/-- Supply or thermal (15_power_states.md R542). -/
inductive Source where
  | supply
  | thermal
  deriving DecidableEq, Repr

/-- A command processor (01_the_device.md R23). -/
inductive Cp where
  | a
  | b
  deriving DecidableEq, Repr

/-- What stops a Dawn: a level that reaches 5, or RESET_N (17_dawn_reset_faults.md R603). -/
inductive DawnStop where
  | level (src : Source)
  | reset
  deriving DecidableEq, Repr

/-- What the outside supplies to a Dawn (17_dawn_reset_faults.md R600-R605). -/
structure DawnIn where
  /-- P48_IN held at or above 44 V, in ms -/
  p48HeldMs : Nat
  /-- channel 80, 1/16 degree -/
  crucibleTemp : Int
  /-- channel 83, 1/16 degree -/
  substrateTemp : Int
  /-- lifecycle fuse copies as read back -/
  fuseA : Nat
  fuseB : Nat
  /-- the entropy start-up tests pass -/
  entropyOk : Bool
  /-- REFCLK present at the end of step 2 -/
  refclk : Bool
  /-- self-test of every die, stack and engine -/
  selfTest : Bool
  /-- self-tests of the command processors -/
  cpA : Bool
  cpB : Bool
  /-- a level reaches 5, or RESET_N is asserted, during this step of Table 17.2 (17 R603) -/
  stop : Option (Nat × DawnStop) := none
  /-- levels below 5 that the supply and the heat have reached when Dawn ends (17 R603) -/
  supply : Nat := 0
  thermal : Nat := 0
  deriving DecidableEq, Repr

/-- The ring a control or geometry write names (19_register_map.md Table 19.1). -/
inductive RingName where
  | sq (n : Nat)
  | rq
  | eq
  deriving DecidableEq, Repr

/-- A host read's completion (14_host_link.md R520). -/
inductive ReadOutcome where
  | data (bytes : List Byte)
  | error
  | ide
  deriving DecidableEq, Repr

/-! ### Contents of messages between devices -/

namespace Machine

/-- What a written tile holds (06 R212-R215): the codes of its valid elements in row-major order (padding elements are zero
bits) and its scale metadata. -/
structure TileData where
  elems : List Nat
  /-- decode scale d, FP32 (TENSOR, ZERO_POINT) -/
  d : Nat := 0
  /-- tensor scale T, BF16 (NQ4) -/
  t : Nat := 0
  /-- block scales of the blocks that hold a valid element, in block order (MX, NQ4, BQ8, BQ8U) -/
  scales : List Nat := []
  /-- zero points and INT32 sums of the valid non-reduction indices (ZERO_POINT) -/
  zs : List Int := []
  sums : List Int := []
  deriving DecidableEq, Repr

/-- The BQ8 codes and exponents of one gradient: a list of tiles by trainable tensor. -/
abbrev Grad := List (List TileData)

/-- A verdict on the digests of an update (09 R372): AGREED with no shard listed; REBUILD lists (shard, replica, source). -/
inductive Verdict where
  | agreed (u : Nat)
  | rebuild (u : Nat) (parts : List (Nat × Nat × Nat))
  | rollback (u : Nat)
  deriving DecidableEq, Repr

/-- M(s) (09 R361). -/
structure UpdMsg where
  gen : Nat
  step : Nat
  /-- replicas included -/
  included : List Nat
  /-- (replica, original step) of late and of dropped contributions -/
  late : List (Nat × Nat)
  dropped : List (Nat × Nat)
  /-- N, FP32 -/
  n : Nat
  lagged : List Nat
  verdicts : List Verdict
  rejoins : List Nat
  /-- none is the empty flag -/
  codes : Option Grad
  deriving DecidableEq, Repr

/-- A contribution or empty marker, with the digests and applied count that travel with it (09 R356, R363). -/
structure Contribution where
  replica : Nat
  gen : Nat
  step : Nat
  /-- SAMPLE_COUNT, FP32; +0 for a marker -/
  samples : Nat
  codes : Option Grad
  /-- (shard, update, digest) -/
  digests : List (Nat × Nat × List Byte)
  applied : Nat
  deriving DecidableEq, Repr

/-- Parts received from a holder (09 R363, R373, R376): trainable tensor, part 0-3, tiles. -/
structure Parts where
  shard : Nat
  update : Nat
  tensor : Nat
  part : Nat
  tiles : List (Nat × TileData)
  deriving DecidableEq, Repr

/-- A descriptor of one collective (13 R501). -/
structure CollDesc where
  op : Nat
  redop : Nat
  root : Nat
  srcShape : Nat × Nat × Nat
  srcFmt : Nat
  dstShape : Nat × Nat × Nat
  dstFmt : Nat
  numctl : Nat
  deriving DecidableEq, Repr

/-- A member of the connected set (13 R491). -/
structure Member where
  node : Nat
  incarnation : Nat
  priority : Nat
  deriving DecidableEq, Repr

end Machine

/-- A join and its answers (09 R378). -/
inductive JoinNote where
  /-- a replica's join arrives at the root -/
  | join (replica : Nat) (digest : List Byte) (rejoin : Bool)
  /-- the root's answers at a replica -/
  | formed
  | mismatch
  deriving DecidableEq, Repr

/-- What IDENTIFY shows of a peer (13 R486, R487, R492). -/
structure IdentMsg where
  /-- NODE_ID, incarnation, ALIGN_PRIORITY -/
  peer : Machine.Member
  /-- STROKE_NUMBER and PERIOD of the peer -/
  stroke : Nat
  period : Nat
  /-- the peer's connected set, itself left out, and its reference -/
  members : List Machine.Member
  ref : Option Nat
  /-- both chains verify to the Kenholt roots; both report signatures verify -/
  chainsOk : Bool
  reportsOk : Bool
  /-- measurement blocks 1-4, STEPPING and LIFECYCLE of the peer -/
  blocks : List Byte
  stepping : Nat
  lifecycle : Nat
  /-- ECDH and ML-KEM public values of the peer -/
  ecdh : List Byte
  mlkem : List Byte
  /-- every IDENTIFY message sent and received, in slot order -/
  transcript : List Byte
  deriving DecidableEq, Repr

/-- A TIMING record (13 R493): times in ps from offset 0 of the stroke. -/
structure TimingRec where
  stroke : Nat
  tx : Int
  /-- t_tx of the last TIMING received, and its local receive time -/
  lastTx : Int
  lastRx : Int
  depth : Nat
  offset : Int
  refNode : Nat
  count : Nat
  deriving DecidableEq, Repr

/-- A peer memory request (13 R498): a stored form to hold, or a read. -/
structure PeerReq where
  node : Nat
  comp : Nat
  epoch : Nat
  tensorId : Nat
  tile : Nat
  store : Option (List Byte)
  deriving DecidableEq, Repr

/-- Why rank 0 ends a collective on every member (13 R501, R505). -/
inductive Abandon where
  | mismatch
  | notAligned
  | runMismatch
  | aborted
  deriving DecidableEq, Repr

/-- What a group or device message on VC 3 says (13 R495, R496, R500, R505), where no row of its own takes it. -/
inductive LinkNote where
  | none
  /-- a member has created a group: compartment here, group INDEX here, its rank, its list is the same, and its claim digest -/
  | groupCreated (k g rank : Nat) (same : Bool) (digest : List Byte)
  /-- a member has issued RESET for the generation that follows -/
  | groupReset (k g rank gen : Nat)
  /-- a member became BROKEN by a tenant change -/
  | groupBroken (k g : Nat)
  /-- a span member's report: its list is the same, its F and C, and its claim digest -/
  | spanReport (k node : Nat) (same : Bool) (first count : Nat) (digest : List Byte)
  /-- the stale notice that rank 0 returns -/
  | stale (k g seq : Nat)
  deriving DecidableEq, Repr


/-- The commands. -/
inductive Instr where
  /-- STROKE_BOUNDARY (R36) -/
  | strokeBoundary (refPeriod : Nat)
  /-- INTAKE_PHASE (R81) -/
  | intakePhase (readFail : List Fn)
  /-- DEP_HOLD_LIMIT (R94) -/
  | depHoldLimit (f : Fn) (ring : Nat)
  /-- PLAN_PHASE (R34) -/
  | planPhase
  /-- SLOT_WAIT_LIMIT (R228) -/
  | slotWaitLimit (order : Nat)
  /-- RUN_START (R43) -/
  | runStart (k : Nat) (fin : List RunItem)
  /-- GUARD_INTERVAL (R51) -/
  | guardInterval (k : Nat) (cut : List RunItem) (idleNs : Nat)
  /-- QUANTUM_DONE (R53) -/
  | quantumDone (lender borrower : Nat) (fin : List RunItem) (usedNs : Nat)
  /-- SETTLE_PHASE (R34) -/
  | settlePhase
  /-- REPORT_PHASE (R104) -/
  | reportPhase (trimPs : Int) (writeFail : List Fn)
  /-- BUDGET_PERIOD (R579) -/
  | budgetPeriod
  /-- DRAIN_LIMIT (R110) -/
  | drainLimit
  /-- DEFER_LIMIT_EXPIRY (R536) -/
  | deferLimitExpiry (order : Nat)
  /-- STROKE_JOIN (R62) -/
  | strokeJoin (refStroke refPeriod : Nat)
  /-- FORGE_WINDOW_END (R292) -/
  | forgeWindowEnd (k : Nat)
  /-- FORGE_COMMIT (R291) -/
  | forgeCommit (k v : Nat) (fault : RunFault)
  /-- COLD_PAGE_MOVE (R320) -/
  | coldPageMove (k stream layer page : Nat)
  /-- VARIANT_SWITCH (R296) -/
  | variantSwitch (k v : Nat)
  /-- HEARTH_ROW_CLEAR_DONE (R460) -/
  | hearthRowClearDone (k : Nat)
  /-- TENANT_CHANGE_DONE (R466) -/
  | tenantChangeDone (k : Nat)
  /-- HBM_ZEROING_DONE (R461) -/
  | hbmZeroingDone (k : Nat)
  /-- DEVICE_HEARTH_CLEAR_DONE (R468) -/
  | deviceHearthClearDone
  /-- HOST_READ_COMPLETION (R674) -/
  | hostReadCompletion (order : Nat) (r : ReadOutcome)
  /-- COMPLETION_TIMEOUT (R520) -/
  | completionTimeout (order : Nat)
  /-- LEVEL_RISE (R542) -/
  | levelRise (src : Source) (reading : Int) (offsetNs : Nat)
  /-- LEVEL_FALL (R544) -/
  | levelFall (src : Source) (reading : Int) (heldUs : Nat)
  /-- THERMAL_TRIP (R543) -/
  | thermalTrip (ch : Nat) (value : Int)
  /-- NIGHT_EXIT (R558) -/
  | nightExit (p48HeldMs coolHeldMs : Nat) (p48Mv : Int)
  /-- BURST_START (R547) -/
  | burstStart
  /-- BURST_END (R547) -/
  | burstEnd
  /-- INPUT_UNDERVOLTAGE (R639) -/
  | inputUndervoltage (mv : Int)
  /-- STANDBY_POWER_ON (R641) -/
  | standbyPowerOn
  /-- STANDBY_POWER_LOSS (R599) -/
  | standbyPowerLoss
  /-- RESET_ASSERT (R643) -/
  | resetAssert (lowUs : Nat)
  /-- RESET_RELEASE (R644) -/
  | resetRelease (lowMs : Nat)
  /-- DAWN_START (R600) -/
  | dawnStart (d : DawnIn)
  /-- REFCLK_LOSS (R647) -/
  | refclkLoss
  /-- REFCLK_RESTORE (R647) -/
  | refclkRestore
  /-- NIGHTWATCH_TICK (R566) -/
  | nightwatchTick (samples : List (Option Int))
  /-- SENSOR_FAULT (R568) -/
  | sensorFault (ch : Nat)
  /-- RULE_ASSERT (R572) -/
  | ruleAssert (idx : Nat)
  /-- RULE_CLEAR (R571) -/
  | ruleClear (idx : Nat)
  /-- TAMPER (R574) -/
  | tamper (ch : Nat)
  /-- ENTROPY_FAULT (R409) -/
  | entropyFault (test : Nat)
  /-- DRBG_RESEED (R409) -/
  | drbgReseed
  /-- LEASE_RENEWAL (R610) -/
  | leaseRenewal (cp : Cp) (count stroke offsetNs : Nat)
  /-- LEASE_LAPSE (R610) -/
  | leaseLapse
  /-- DOUBLE_CLAIM (R610) -/
  | doubleClaim (cp : Cp) (count stroke : Nat)
  /-- LEASE_REGRANT (R613) -/
  | leaseRegrant (cpA cpB : Bool)
  /-- FENCE_ROUND_FAIL (R613) -/
  | fenceRoundFail
  /-- HOST_LINK_TRAINING (R514) -/
  | hostLinkTraining (flit : Bool) (rate width : Nat)
  /-- HOST_LINK_DOWN (R531) -/
  | hostLinkDown
  /-- FUNCTION_LEVEL_RESET (R531) -/
  | functionLevelReset (f : Fn)
  /-- D3HOT_TO_D0 (R531) -/
  | d3hotToD0 (f : Fn)
  /-- VF_ENABLE_CLEAR (R517) -/
  | vfEnableClear
  /-- IDE_INSECURE (R526) -/
  | ideInsecure (stream cause : Nat)
  /-- DOE_ABORT (R523) -/
  | doeAbort (f : Fn)
  /-- GET_VERSION (R413) -/
  | getVersion (f : Fn)
  /-- GET_CAPABILITIES (R413) -/
  | getCapabilities (f : Fn) (version : Nat)
  /-- NEGOTIATE_ALGORITHMS (R413) -/
  | negotiateAlgorithms (f : Fn) (offered : Bool)
  /-- GET_DIGESTS (R413) -/
  | getDigests (f : Fn)
  /-- GET_CERTIFICATE (R413) -/
  | getCertificate (f : Fn) (slot offset len : Nat)
  /-- CHALLENGE (R413) -/
  | challenge (f : Fn) (slot : Nat) (message : List Byte)
  /-- GET_MEASUREMENTS (R420) -/
  | getMeasurements (f : Fn) (index : Nat) (sign : Bool) (message : List Byte)
  /-- KEY_EXCHANGE (R415) -/
  | keyExchange (f : Fn) (reqId : Nat) (ecdh : List Byte) (mlkem : Option (List Byte)) (message : List Byte)
  /-- FINISH (R418) -/
  | finish (f : Fn) (session : Nat) (transcript sig mac : List Byte)
  /-- PQ_FINISH (R418) -/
  | pqFinish (f : Fn) (session : Nat) (sig : List Byte)
  /-- PQ_FINISH_TIMEOUT (R418) -/
  | pqFinishTimeout (f : Fn) (session : Nat)
  /-- GET_PQ_SIGNATURE (R414) -/
  | getPqSignature (f : Fn)
  /-- GET_PQ_CERT (R413) -/
  | getPqCert (f : Fn) (offset len : Nat)
  /-- END_SESSION (R416) -/
  | endSession (f : Fn) (session : Nat)
  /-- HEARTBEAT (R416) -/
  | heartbeat (f : Fn) (session : Nat)
  /-- HEARTBEAT_MISS (R416) -/
  | heartbeatMiss (f : Fn) (session : Nat)
  /-- KEY_UPDATE (R413) -/
  | keyUpdate (f : Fn) (session op : Nat)
  /-- UNSUPPORTED_SPDM_REQUEST (R413) -/
  | unsupportedSpdmRequest (f : Fn) (code : Nat)
  /-- IDE_KM_KEY_PROG (R525) -/
  | ideKmKeyProg (f : Fn) (session block stream first last keySet : Nat)
  /-- K_SET_GO (R525) -/
  | kSetGo (f : Fn) (session stream keySet : Nat)
  /-- LOCK_INTERFACE_REQUEST (R527) -/
  | lockInterfaceRequest (f : Fn) (session k : Nat) (bar0 : Bool)
  /-- START_INTERFACE_REQUEST (R527) -/
  | startInterfaceRequest (f : Fn) (session k : Nat) (nonce : List Byte)
  /-- STOP_INTERFACE (R530) -/
  | stopInterface (f : Fn) (session k : Nat)
  /-- TDI_BIND (R529) -/
  | tdiBind (f : Fn) (session : Nat) (nonce : List Byte)
  /-- LINK_PROBE_BURST (R485) -/
  | linkProbeBurst (port : Nat)
  /-- LIGHT_DETECT (R649) -/
  | lightDetect (port lanes : Nat)
  /-- LANE_LOCK (R475) -/
  | laneLock (port : Nat) (lanes : List Nat)
  /-- LOCK_TIMEOUT (R485) -/
  | lockTimeout (port : Nat)
  /-- IDENTIFY_MESSAGE (R486) -/
  | identifyMessage (port : Nat) (m : IdentMsg)
  /-- IDENTIFY_TIMEOUT (R485) -/
  | identifyTimeout (port : Nat)
  /-- ALIGN_TIMEOUT (R485) -/
  | alignTimeout (port : Nat)
  /-- LINK_TRAIN_TIMEOUT (R485) -/
  | linkTrainTimeout (port : Nat)
  /-- FLIT_SLOT (R476) -/
  | flitSlot (port : Nat)
  /-- FLIT_RECEIVE (R479) -/
  | flitReceive (port : Nat) (flit : List Byte) (corrected uncorrectable : Nat)
  /-- RETRY_LIMIT (R479) -/
  | retryLimit (port : Nat)
  /-- DRAIN_POINT (R480) -/
  | drainPoint (port : Nat)
  /-- MESSAGE_RECEIVE (R483) -/
  | messageReceive (port : Nat) (note : LinkNote)
  /-- REKEY (R488) -/
  | rekey (port : Nat) (ecdh mlkem messages : List Byte) (start : Nat)
  /-- KEY_END (R488) -/
  | keyEnd (port : Nat)
  /-- LOSS_OF_LIGHT (R489) -/
  | lossOfLight (port : Nat)
  /-- TIMING_SEND (R493) -/
  | timingSend (port : Nat) (tx : Int)
  /-- TIMING_RECORD (R493) -/
  | timingRecord (port : Nat) (r : TimingRec) (rx : Int)
  /-- REFERENCE_MISSING (R60) -/
  | referenceMissing
  /-- MEMBERSHIP (R491) -/
  | membership (port : Nat) (members : List Machine.Member) (ref : Nat)
  /-- MREQ (R498) -/
  | mreq (k : Nat) (q : PeerReq)
  /-- MCPL (R498) -/
  | mcpl (k tensorId : Nat) (tile : PeerTile)
  /-- PEER_TIMEOUT (R498) -/
  | peerTimeout (order : Nat)
  /-- PEER_RELEASE (R499) -/
  | peerRelease (node comp epoch : Nat)
  /-- COLL_DESCRIPTOR (R501) -/
  | collDescriptor (k g gen rank seq : Nat) (d : Machine.CollDesc)
  /-- COLL_DATA (R502) -/
  | collData (k g gen rank seq : Nat) (tiles : List (Nat × Machine.TileData))
  /-- COLL_READY (R504) -/
  | collReady (k g gen rank seq : Nat)
  /-- COLL_COMMIT (R504) -/
  | collCommit (k g gen seq x : Nat)
  /-- COLL_ABANDON (R505) -/
  | collAbandon (k g gen seq : Nat) (why : Abandon)
  /-- COLL_TIMEOUT (R505) -/
  | collTimeout (k g : Nat)
  /-- COLL_GROUP_TIMEOUT (R500) -/
  | collGroupTimeout (k g : Nat)
  /-- TRAIN_CONTRIBUTION (R358) -/
  | trainContribution (k v target gen : Nat) (x : Machine.Contribution)
  /-- STEP_CLOSE (R358) -/
  | stepClose (k v target : Nat)
  /-- LAGGED_MARK (R376) -/
  | laggedMark (k v target replica : Nat)
  /-- TRAIN_UPDATE_MESSAGE (R362) -/
  | trainUpdateMessage (k v target gen : Nat) (m : Machine.UpdMsg)
  /-- TRAIN_UPDATE_APPLY (R363) -/
  | trainUpdateApply (k v target : Nat)
  /-- PARTS_TRANSFER (R373) -/
  | partsTransfer (k v target gen : Nat) (p : Machine.Parts)
  /-- GROUP_JOIN (R378) -/
  | groupJoin (k v target : Nat) (n : JoinNote)
  /-- TRAIN_TIMEOUT (R377) -/
  | trainTimeout (order : Nat)
  /-- SQ_TAIL (R662) -/
  | sqTail (f : Fn) (tee : Bool) (ring tail : Nat) (stores : List HostStore)
  /-- RQ_HEAD (R79) -/
  | rqHead (f : Fn) (tee : Bool) (head : Nat)
  /-- EQ_HEAD (R664) -/
  | eqHead (head : Nat)
  /-- RING_CTRL_WRITE (R661) -/
  | ringCtrlWrite (f : Fn) (tee : Bool) (r : RingName) (value : Nat)
  /-- RING_GEOMETRY_WRITE (R658) -/
  | ringGeometryWrite (f : Fn) (tee : Bool) (r : RingName) (size : Bool) (value : Nat)
  /-- INT_STATUS (R660) -/
  | intStatus (f : Fn) (tee : Bool) (value : Nat)
  /-- INT_MASK (R660) -/
  | intMask (f : Fn) (tee : Bool) (value : Nat)
  /-- REGISTER_WRITE (R655) -/
  | registerWrite (f : Fn) (tee : Bool) (offset width value : Nat)
  /-- ALARM_SLOT (R669) -/
  | alarmSlot (value : Nat)
  /-- ALARM_WINDOW (R671) -/
  | alarmWindow (len : Nat) (updatedAfterLatch : Bool)
  /-- SUMMARY (R670) -/
  | summary (len : Nat)
  /-- EVENT_FIFO (R670) -/
  | eventFifo (len : Nat)
  /-- ALARM_ACK (R672) -/
  | alarmAck (bytes : List Byte)
  /-- WAKE (R673) -/
  | wake (bytes : List Byte)
  /-- ENTDAA (R591) -/
  | entdaa (addr : Nat)
  /-- SETDASA (R591) -/
  | setdasa (addr : Nat)
  /-- DIAGNOSTIC_COMMAND (R10) -/
  | diagnosticCommand (c : Cmd)
  /-- DEVICE_QUERY (R75) -/
  | deviceQuery (c : Cmd)
  /-- STROKE_QUERY (R75) -/
  | strokeQuery (c : Cmd)
  /-- STROKE_CONFIG (R39) -/
  | strokeConfig (c : Cmd)
  /-- SLICE_SET (R42) -/
  | sliceSet (c : Cmd)
  /-- SLICE_QUERY (R75) -/
  | sliceQuery (c : Cmd)
  /-- LEND_GROUP (R72) -/
  | lendGroup (c : Cmd)
  /-- LEND_CONSENT (R73) -/
  | lendConsent (c : Cmd)
  /-- STROKE_WAIT (R74) -/
  | strokeWait (c : Cmd)
  /-- FENCE_SC (R67) -/
  | fenceSc (c : Cmd)
  /-- WORD_STORE (R66) -/
  | wordStore (c : Cmd)
  /-- WORD_LOAD (R66) -/
  | wordLoad (c : Cmd)
  /-- COMP_CREATE (R447) -/
  | compCreate (c : Cmd)
  /-- COMP_DESTROY (R467) -/
  | compDestroy (c : Cmd)
  /-- COMP_QUENCH (R457) -/
  | compQuench (c : Cmd)
  /-- TENANT_CHANGE (R466) -/
  | tenantChange (c : Cmd)
  /-- COMP_QUERY (R469) -/
  | compQuery (c : Cmd)
  /-- FAR_CLEAR (R464) -/
  | farClear (c : Cmd)
  /-- DEVICE_QUENCH (R468) -/
  | deviceQuench (c : Cmd)
  /-- CERT_READ (R442) -/
  | certRead (c : Cmd)
  /-- ATTEST_REPORT (R421) -/
  | attestReport (c : Cmd)
  /-- SESSION_QUERY (R444) -/
  | sessionQuery (c : Cmd)
  /-- TENANT_CLAIM (R417) -/
  | tenantClaim (c : Cmd)
  /-- KEY_DELIVER (R427) -/
  | keyDeliver (c : Cmd)
  /-- KEY_QUERY (R444) -/
  | keyQuery (c : Cmd)
  /-- KEY_POLICY (R443) -/
  | keyPolicy (c : Cmd)
  /-- KEY_ROTATE (R443) -/
  | keyRotate (c : Cmd)
  /-- KEY_DESTROY (R435) -/
  | keyDestroy (c : Cmd)
  /-- LIFECYCLE_ADVANCE (R436) -/
  | lifecycleAdvance (c : Cmd)
  /-- MEM_CONFIG (R245) -/
  | memConfig (c : Cmd)
  /-- TENSOR_CREATE (R246) -/
  | tensorCreate (c : Cmd)
  /-- BUFFER_CREATE (R246) -/
  | bufferCreate (c : Cmd)
  /-- MEM_FREE (R247) -/
  | memFree (c : Cmd)
  /-- MEM_QUERY (R250) -/
  | memQuery (c : Cmd)
  /-- TENSOR_PLACE (R248) -/
  | tensorPlace (c : Cmd)
  /-- TENSOR_IMPORT (R249) -/
  | tensorImport (c : Cmd)
  /-- TENSOR_EXPORT (R249) -/
  | tensorExport (c : Cmd)
  /-- MATMUL (R163) -/
  | matmul (c : Cmd)
  /-- CONV (R176) -/
  | conv (c : Cmd)
  /-- SCAN (R180) -/
  | scan (c : Cmd)
  /-- MOE_ROUTE (R184) -/
  | moeRoute (c : Cmd)
  /-- MOE_MATMUL (R186) -/
  | moeMatmul (c : Cmd)
  /-- ENGINE_QUERY (R204) -/
  | engineQuery (c : Cmd)
  /-- NUMERIC_CONFIG (R157) -/
  | numericConfig (c : Cmd)
  /-- NUMERIC_QUERY (R158) -/
  | numericQuery (c : Cmd)
  /-- SCALE_HIST_SET (R157) -/
  | scaleHistSet (c : Cmd)
  /-- SCALE_HIST_READ (R158) -/
  | scaleHistRead (c : Cmd)
  /-- STREAM_OPEN (R341) -/
  | streamOpen (c : Cmd)
  /-- STREAM_CLOSE (R341) -/
  | streamClose (c : Cmd)
  /-- STREAM_QUERY (R342) -/
  | streamQuery (c : Cmd)
  /-- KV_APPEND (R311) -/
  | kvAppend (c : Cmd)
  /-- KV_TRUNCATE (R317) -/
  | kvTruncate (c : Cmd)
  /-- MIX_QUERY (R342) -/
  | mixQuery (c : Cmd)
  /-- ATTEND (R330) -/
  | attend (c : Cmd)
  /-- ATTEND_MAT (R333) -/
  | attendMat (c : Cmd)
  /-- LINMIX (R338) -/
  | linmix (c : Cmd)
  /-- BASE_LOAD (R258) -/
  | baseLoad (c : Cmd)
  /-- BASE_UNLOAD (R263) -/
  | baseUnload (c : Cmd)
  /-- BASE_QUERY (R302) -/
  | baseQuery (c : Cmd)
  /-- BASE_ATTACH (R267) -/
  | baseAttach (c : Cmd)
  /-- BASE_DETACH (R268) -/
  | baseDetach (c : Cmd)
  /-- SERVE_POLICY (R288) -/
  | servePolicy (c : Cmd)
  /-- VARIANT_REGISTER (R278) -/
  | variantRegister (c : Cmd)
  /-- VARIANT_LOAD (R279) -/
  | variantLoad (c : Cmd)
  /-- VARIANT_RESIDE (R280) -/
  | variantReside (c : Cmd)
  /-- VARIANT_PARK (R280) -/
  | variantPark (c : Cmd)
  /-- VARIANT_SWAP (R297) -/
  | variantSwap (c : Cmd)
  /-- VARIANT_MODE (R293) -/
  | variantMode (c : Cmd)
  /-- VARIANT_REBASE (R298) -/
  | variantRebase (c : Cmd)
  /-- VARIANT_CUTOVER (R299) -/
  | variantCutover (c : Cmd)
  /-- VARIANT_UNREGISTER (R281) -/
  | variantUnregister (c : Cmd)
  /-- VARIANT_QUERY (R302) -/
  | variantQuery (c : Cmd)
  /-- VARIANT_MATMUL (R286) -/
  | variantMatmul (c : Cmd)
  /-- TRAIN_OPEN (R388) -/
  | trainOpen (c : Cmd)
  /-- TRAIN_CLOSE (R382) -/
  | trainClose (c : Cmd)
  /-- TRAIN_CONFIG (R368) -/
  | trainConfig (c : Cmd)
  /-- TRAIN_QUERY (R389) -/
  | trainQuery (c : Cmd)
  /-- FEEDBACK_SUBMIT (R352) -/
  | feedbackSubmit (c : Cmd)
  /-- FEEDBACK_TAKE (R354) -/
  | feedbackTake (c : Cmd)
  /-- TRAIN_STEP (R363) -/
  | trainStep (c : Cmd)
  /-- TRAIN_CHECKPOINT (R375) -/
  | trainCheckpoint (c : Cmd)
  /-- TRAIN_PUBLISH (R379) -/
  | trainPublish (c : Cmd)
  /-- TRAIN_EXPORT (R383) -/
  | trainExport (c : Cmd)
  /-- TRAIN_IMPORT (R385) -/
  | trainImport (c : Cmd)
  /-- LINK_CONFIG (R491) -/
  | linkConfig (c : Cmd)
  /-- LINK_ENABLE (R485) -/
  | linkEnable (c : Cmd)
  /-- LINK_QUERY (R509) -/
  | linkQuery (c : Cmd)
  /-- CELL_SET (R497) -/
  | cellSet (c : Cmd)
  /-- ROUTE_SET (R484) -/
  | routeSet (c : Cmd)
  /-- SPAN_SET (R495) -/
  | spanSet (c : Cmd)
  /-- COLL_GROUP (R500) -/
  | collGroup (c : Cmd)
  /-- COLL_RUN (R501) -/
  | collRun (c : Cmd)
  /-- COLL_QUERY (R509) -/
  | collQuery (c : Cmd)
  /-- RAND_GEN (R403) -/
  | randGen (c : Cmd)
  /-- RAND_QUERY (R405) -/
  | randQuery (c : Cmd)
  /-- POWER_SET (R545) -/
  | powerSet (c : Cmd)
  /-- POWER_QUERY (R563) -/
  | powerQuery (c : Cmd)
  /-- POWER_PIN (R562) -/
  | powerPin (c : Cmd)
  /-- TELEM_READ (R595) -/
  | telemRead (c : Cmd)
  /-- LOG_CONFIG (R594) -/
  | logConfig (c : Cmd)
  /-- TRACE_CONFIG (R587) -/
  | traceConfig (c : Cmd)
  /-- ALARM_READ (R594) -/
  | alarmRead (c : Cmd)
  /-- ALARM_ACK_COMMAND (R586) -/
  | alarmAckCommand (c : Cmd)
  /-- LOG_QUERY (R595) -/
  | logQuery (c : Cmd)
  /-- FW_STAGE (R620) -/
  | fwStage (c : Cmd)
  /-- FW_ACTIVATE (R621) -/
  | fwActivate (c : Cmd)
  /-- FW_COMMIT (R622) -/
  | fwCommit (c : Cmd)
  /-- FW_QUERY (R623) -/
  | fwQuery (c : Cmd)
  /-- UNASSIGNED_UNITS (R260) -/
  | unassignedUnits (fin : List RunItem)
  /-- D0_TO_D3HOT (R531) -/
  | d0ToD3hot (f : Fn)
  /-- VF_ENABLE_SET (R517) -/
  | vfEnableSet (numVfs : Nat)
  /-- DOE_ERROR (R523) -/
  | doeError (f : Fn) (len : Nat)
  deriving DecidableEq, Repr

end Sys2Proof
end

