-- ==== Sys2Proof/Decode.lean ====
section
/-! DEFINITION. Words of the opcode table: the table gives no row any bits, so no word spells a command. A packet's opcode is
a field of its header, which intake reads (03 Table 3.3). -/

namespace Sys2Proof

/-- The command that a word of `nbits` bits spells by the opcode table: none. -/
def decodeTableWord (_nbits _w : Nat) : Option Instr := none

end Sys2Proof
end

