-- ==== Sys2Proof/Machine/Bytes.lean ====
section
/-! DEFINITION. Sparse tables, little-endian fields (00_scope.md R3, R4) and byte memories in their canonical form. -/

namespace Sys2Proof.Machine

/-- The value listed at key `k`, if any. -/
def Tab.find? {α : Type} : Tab α → Nat → Option α
  | [], _ => none
  | (k', v) :: r, k => if k = k' then some v else Tab.find? r k

/-- The value at key `k`, or the default `d`. -/
def Tab.get {α : Type} (d : α) (t : Tab α) (k : Nat) : α := (Tab.find? t k).getD d

/-- Write `v` at key `k`, keeping the keys rising. -/
def Tab.set {α : Type} : Tab α → Nat → α → Tab α
  | [], k, v => [(k, v)]
  | (k', v') :: r, k, v =>
    if k < k' then (k, v) :: (k', v') :: r
    else if k = k' then (k, v) :: r
    else (k', v') :: Tab.set r k v

/-- Remove key `k`. -/
def Tab.del {α : Type} : Tab α → Nat → Tab α
  | [], _ => []
  | (k', v') :: r, k => if k = k' then Tab.del r k else (k', v') :: Tab.del r k

/-- Change the value at key `k`, an unlisted key counting as `d`. -/
def Tab.modify {α : Type} (d : α) (t : Tab α) (k : Nat) (f : α → α) : Tab α := Tab.set t k (f (Tab.get d t k))

/-- The numbers `a, a+1, …`, `n` of them. -/
def upFrom : Nat → Nat → List Nat
  | _, 0 => []
  | a, n + 1 => a :: upFrom (a + 1) n

/-- Insert before the first entry that it may stand before. -/
def insertBy {α : Type} (le : α → α → Bool) (x : α) : List α → List α
  | [] => [x]
  | y :: r => if le x y then x :: y :: r else y :: insertBy le x r

/-- Sort a list by an order; entries equal in it keep their order. -/
def sortBy {α : Type} (le : α → α → Bool) : List α → List α
  | [] => []
  | x :: r => insertBy le x (sortBy le r)

/-- Bits [h:l] of a number (00_scope.md R4). -/
def bitsOf (x h l : Nat) : Nat := x / 2 ^ l % 2 ^ (h + 1 - l)

/-- Bit `i` of a number. -/
def bitOf (x i : Nat) : Bool := x / 2 ^ i % 2 == 1

/-- The number of bits set among bits 0 … n-1 of `x`. -/
def popCount (x : Nat) : Nat → Nat
  | 0 => 0
  | n + 1 => popCount x n + (if bitOf x n then 1 else 0)

/-- The indices below `n` of the bits set in `x`, rising. -/
def bitList (x n : Nat) : List Nat := (upFrom 0 n).filter (bitOf x)

/-- A byte of a block; past its end, zero. -/
def byteAt (b : List Byte) (i : Nat) : Nat := ((b[i]?).getD 0).toNat

/-- `n` bytes from offset `o`, little-endian (R3). -/
def leAt (b : List Byte) (o : Nat) : Nat → Nat
  | 0 => 0
  | n + 1 => byteAt b o + 256 * leAt b (o + 1) n

/-- The `n` low bytes of a number, little-endian (R3). -/
def leBytes (x : Nat) : Nat → List Byte
  | 0 => []
  | n + 1 => BitVec.ofNat 8 x :: leBytes (x / 256) n

/-- One byte. -/
def u8 (b : List Byte) (o : Nat) : Nat := leAt b o 1
/-- Two bytes. -/
def u16 (b : List Byte) (o : Nat) : Nat := leAt b o 2
/-- Four bytes. -/
def u32 (b : List Byte) (o : Nat) : Nat := leAt b o 4
/-- Six bytes. -/
def u48 (b : List Byte) (o : Nat) : Nat := leAt b o 6
/-- Eight bytes. -/
def u64 (b : List Byte) (o : Nat) : Nat := leAt b o 8
/-- Four bytes read as a signed number. -/
def i32 (b : List Byte) (o : Nat) : Int := if u32 b o < 2 ^ 31 then (u32 b o : Int) else (u32 b o : Int) - 2 ^ 32

/-- A signed number as its `w`-bit two's complement. -/
def twos (w : Nat) (x : Int) : Nat := (x % (2 ^ w : Int)).toNat

/-- Bytes `o` … `o+n-1` of a block are zero. -/
def zeroAt (b : List Byte) (o n : Nat) : Bool := (upFrom o n).all fun i => byteAt b i == 0

/-- A list cut or padded with zero bytes to `n` bytes. -/
def padTo (n : Nat) (b : List Byte) : List Byte := b.take n ++ List.replicate (n - b.length) 0

/-- A record of `n` bytes built from (offset, width, value) fields in rising order; bytes between fields are zero. -/
def layout (n : Nat) (fs : List (Nat × Nat × Nat)) : List Byte :=
  padTo n (fs.foldl (fun acc f => padTo f.1 acc ++ leBytes f.2.2 f.2.1) [])

/-- The largest value of a 64-bit saturating counter. -/
def max64 : Nat := 2 ^ 64 - 1

/-- A saturating 64-bit sum. -/
def sat64 (a n : Nat) : Nat := min (a + n) max64

/-- What an unlisted address of a byte memory reads as (log 4). -/
def Mem.empty : Byte := 0

/-- One byte of a memory. -/
def Mem.read (m : Mem) (a : Nat) : Byte := (Tab.find? m a).getD Mem.empty

/-- Write one byte; the byte an unlisted address reads as is not listed. -/
def Mem.write (m : Mem) (a : Nat) (b : Byte) : Mem := if b = Mem.empty then Tab.del m a else Tab.set m a b

/-- Write bytes at consecutive addresses. -/
def Mem.writeBytes (m : Mem) (a : Nat) : List Byte → Mem
  | [] => m
  | b :: r => Mem.writeBytes (Mem.write m a b) (a + 1) r

/-- Write `n` bytes equal to the unlisted one. -/
def Mem.clear (m : Mem) (a n : Nat) : Mem := m.filter fun c => c.1 < a || a + n ≤ c.1

/-- Read `n` bytes at consecutive addresses. -/
def Mem.readBytes (m : Mem) (a : Nat) : Nat → List Byte
  | 0 => []
  | n + 1 => Mem.read m a :: Mem.readBytes m (a + 1) n

/-- The canonical form: addresses strictly rising, no listed byte equal to the unlisted one. -/
def Mem.wf : Mem → Bool
  | [] => true
  | [(_, b)] => b != Mem.empty
  | (a, b) :: (a', b') :: r => b != Mem.empty && decide (a < a') && Mem.wf ((a', b') :: r)

end Sys2Proof.Machine
end

