-- ==== Sys2Proof/Machine/Crypto.lean ====
section
/-! DEFINITION. The functions of the standards that the spec names and that can be computed: SHA-384 (FIPS 180-4), HMAC and
HKDF with SHA-384 (RFC 5869), AES-256 (FIPS 197), AES key wrap (NIST SP 800-38F) and AES-256-GCM (NIST SP 800-38D) (11 R407, R410, R426, R430; 06 R221; log 7). -/

namespace Sys2Proof.Machine

/-- The first eighty primes: 2 to 409. -/
def primes80 : List Nat := (upFrom 2 408).filter fun n => (upFrom 2 19).all fun d => d == n || n % d != 0

/-- The integer root of degree `e` of a number, from its binary digit of weight 2^(b-1) down. -/
def rootDigits (e n : Nat) : Nat → Nat → Nat
  | 0, r => r
  | b + 1, r => rootDigits e n b (if (r + 2 ^ b) ^ e ≤ n then r + 2 ^ b else r)

/-- The first 64 bits of the fraction of the root of degree `e` of a number below 512 (FIPS 180-4). -/
def rootFraction (e p : Nat) : Nat := rootDigits e (p * 2 ^ (64 * e)) 69 0 % 2 ^ 64

/-- Initial hash of SHA-384: square roots of the ninth to the sixteenth prime (FIPS 180-4). -/
def shaH : List Nat := ((primes80.drop 8).take 8).map (rootFraction 2)

/-- The AES S-box (FIPS 197), 0-63. -/
def sbox0 : List Nat :=
  [ 0x63, 0x7c, 0x77, 0x7b, 0xf2, 0x6b, 0x6f, 0xc5, 0x30, 0x01, 0x67, 0x2b, 0xfe, 0xd7, 0xab, 0x76
  , 0xca, 0x82, 0xc9, 0x7d, 0xfa, 0x59, 0x47, 0xf0, 0xad, 0xd4, 0xa2, 0xaf, 0x9c, 0xa4, 0x72, 0xc0
  , 0xb7, 0xfd, 0x93, 0x26, 0x36, 0x3f, 0xf7, 0xcc, 0x34, 0xa5, 0xe5, 0xf1, 0x71, 0xd8, 0x31, 0x15
  , 0x04, 0xc7, 0x23, 0xc3, 0x18, 0x96, 0x05, 0x9a, 0x07, 0x12, 0x80, 0xe2, 0xeb, 0x27, 0xb2, 0x75 ]

/-- The AES S-box (FIPS 197), 64-127. -/
def sbox1 : List Nat :=
  [ 0x09, 0x83, 0x2c, 0x1a, 0x1b, 0x6e, 0x5a, 0xa0, 0x52, 0x3b, 0xd6, 0xb3, 0x29, 0xe3, 0x2f, 0x84
  , 0x53, 0xd1, 0x00, 0xed, 0x20, 0xfc, 0xb1, 0x5b, 0x6a, 0xcb, 0xbe, 0x39, 0x4a, 0x4c, 0x58, 0xcf
  , 0xd0, 0xef, 0xaa, 0xfb, 0x43, 0x4d, 0x33, 0x85, 0x45, 0xf9, 0x02, 0x7f, 0x50, 0x3c, 0x9f, 0xa8
  , 0x51, 0xa3, 0x40, 0x8f, 0x92, 0x9d, 0x38, 0xf5, 0xbc, 0xb6, 0xda, 0x21, 0x10, 0xff, 0xf3, 0xd2 ]

/-- The AES S-box (FIPS 197), 128-191. -/
def sbox2 : List Nat :=
  [ 0xcd, 0x0c, 0x13, 0xec, 0x5f, 0x97, 0x44, 0x17, 0xc4, 0xa7, 0x7e, 0x3d, 0x64, 0x5d, 0x19, 0x73
  , 0x60, 0x81, 0x4f, 0xdc, 0x22, 0x2a, 0x90, 0x88, 0x46, 0xee, 0xb8, 0x14, 0xde, 0x5e, 0x0b, 0xdb
  , 0xe0, 0x32, 0x3a, 0x0a, 0x49, 0x06, 0x24, 0x5c, 0xc2, 0xd3, 0xac, 0x62, 0x91, 0x95, 0xe4, 0x79
  , 0xe7, 0xc8, 0x37, 0x6d, 0x8d, 0xd5, 0x4e, 0xa9, 0x6c, 0x56, 0xf4, 0xea, 0x65, 0x7a, 0xae, 0x08 ]

/-- The AES S-box (FIPS 197), 192-255. -/
def sbox3 : List Nat :=
  [ 0xba, 0x78, 0x25, 0x2e, 0x1c, 0xa6, 0xb4, 0xc6, 0xe8, 0xdd, 0x74, 0x1f, 0x4b, 0xbd, 0x8b, 0x8a
  , 0x70, 0x3e, 0xb5, 0x66, 0x48, 0x03, 0xf6, 0x0e, 0x61, 0x35, 0x57, 0xb9, 0x86, 0xc1, 0x1d, 0x9e
  , 0xe1, 0xf8, 0x98, 0x11, 0x69, 0xd9, 0x8e, 0x94, 0x9b, 0x1e, 0x87, 0xe9, 0xce, 0x55, 0x28, 0xdf
  , 0x8c, 0xa1, 0x89, 0x0d, 0xbf, 0xe6, 0x42, 0x68, 0x41, 0x99, 0x2d, 0x0f, 0xb0, 0x54, 0xbb, 0x16 ]

/-- The round constants of SHA-384: cube roots of the first eighty primes (FIPS 180-4). -/
def shaK : List Nat := primes80.map (rootFraction 3)

/-- The AES S-box. -/
def sbox : List Nat := sbox0 ++ sbox1 ++ sbox2 ++ sbox3

/-! ### SHA-384 -/

/-- Reduction to 64 bits. -/
def w64 (x : Nat) : Nat := x % 2 ^ 64

/-- Rotation of a 64-bit word to the right. -/
def rotr64 (x n : Nat) : Nat := x / 2 ^ n ||| w64 (x * 2 ^ (64 - n))

/-- The small and large sigma functions of SHA-384: two rotations and a shift, or three rotations. -/
def sig3 (x a b c : Nat) (shift : Bool) : Nat := rotr64 x a ^^^ rotr64 x b ^^^ (if shift then x / 2 ^ c else rotr64 x c)

/-- Big-endian number of bytes. -/
def beNat (b : List Byte) : Nat := b.foldl (fun n x => n * 256 + x.toNat) 0

/-- The `n` low bytes of a number, big-endian. -/
def beBytes (x n : Nat) : List Byte := (leBytes x n).reverse

/-- Cut a list into pieces of `n`, at most `fuel` of them. -/
def chunks {α : Type} (n : Nat) : Nat → List α → List (List α)
  | 0, _ => []
  | f + 1, l => if l.isEmpty then [] else l.take n :: chunks n f (l.drop n)

/-- Extend the message schedule, newest word first. -/
def shaExtend : Nat → List Nat → List Nat
  | 0, r => r
  | n + 1, r =>
    let g := fun i => r.getD i 0
    shaExtend n (w64 (sig3 (g 1) 19 61 6 true + g 6 + sig3 (g 14) 1 8 7 true + g 15) :: r)

/-- One round on the eight working words. -/
def shaRound (v : List Nat) (kw : Nat × Nat) : List Nat :=
  let g := fun i => v.getD i 0
  let ch := (g 4 &&& g 5) ^^^ ((2 ^ 64 - 1 - g 4) &&& g 6)
  let t1 := g 7 + sig3 (g 4) 14 18 41 false + ch + kw.1 + kw.2
  let maj := (g 0 &&& g 1) ^^^ (g 0 &&& g 2) ^^^ (g 1 &&& g 2)
  let t2 := sig3 (g 0) 28 34 39 false + maj
  [w64 (t1 + t2), g 0, g 1, g 2, w64 (g 3 + t1), g 4, g 5, g 6]

/-- One 128-byte block. -/
def shaBlock (h : List Nat) (b : List Byte) : List Nat :=
  let w := (shaExtend 64 ((chunks 8 16 b).map beNat).reverse).reverse
  let v := (shaK.zip w).foldl shaRound h
  (h.zip v).map fun p => w64 (p.1 + p.2)

/-- SHA-384 of a message. -/
def sha384 (m : List Byte) : List Byte :=
  let z := (128 - (m.length + 17) % 128) % 128
  let p := m ++ [0x80] ++ List.replicate z 0 ++ beBytes (8 * m.length) 16
  let h := (chunks 128 (p.length / 128) p).foldl shaBlock shaH
  (h.take 6).flatMap fun x => beBytes x 8

/-- HMAC with SHA-384. -/
def hmac384 (key m : List Byte) : List Byte :=
  let k := padTo 128 (if key.length > 128 then sha384 key else key)
  sha384 (k.map (· ^^^ 0x5C) ++ sha384 (k.map (· ^^^ 0x36) ++ m))

/-- HKDF-Extract. -/
def hkdfExtract (salt ikm : List Byte) : List Byte := hmac384 salt ikm

/-- The blocks of HKDF-Expand. -/
def hkdfBlocks (prk info : List Byte) : Nat → Nat → List Byte → List Byte
  | 0, _, _ => []
  | f + 1, i, t =>
    let t' := hmac384 prk (t ++ info ++ [BitVec.ofNat 8 i])
    t' ++ hkdfBlocks prk info f (i + 1) t'

/-- HKDF-Expand to `n` bytes. -/
def hkdfExpand (prk info : List Byte) (n : Nat) : List Byte := (hkdfBlocks prk info ((n + 47) / 48) 1 []).take n

/-- HKDF with SHA-384. -/
def hkdf384 (salt ikm info : List Byte) (n : Nat) : List Byte := hkdfExpand (hkdfExtract salt ikm) info n

/-- The bytes of an ASCII string. -/
def ascii (s : String) : List Byte := s.toList.map fun c => BitVec.ofNat 8 c.toNat

/-! ### AES-256 and GCM -/

/-- Substitute a byte. -/
def subByte (x : Nat) : Nat := sbox.getD x 0

/-- Multiplication by x in the field of AES. -/
def xtime (x : Nat) : Nat := if x < 128 then 2 * x else (2 * x) % 256 ^^^ 0x1B

/-- Two byte strings added in the field. -/
def xorL (a b : List Nat) : List Nat := (a.zip b).map fun p => p.1 ^^^ p.2

/-- Key expansion: words of 4 bytes, newest first. -/
def aesExpand : Nat → Nat → Nat → List (List Nat) → List (List Nat)
  | 0, _, _, ws => ws
  | n + 1, i, rcon, ws =>
    let t := ws.headD []
    let old := ws.getD 7 []
    if i % 8 = 0 then
      let s := (t.drop 1 ++ t.take 1).map subByte
      aesExpand n (i + 1) (xtime rcon) (xorL old (xorL s [rcon, 0, 0, 0]) :: ws)
    else if i % 8 = 4 then aesExpand n (i + 1) rcon (xorL old (t.map subByte) :: ws)
    else aesExpand n (i + 1) rcon (xorL old t :: ws)

/-- The 15 round keys of AES-256, 16 bytes each. -/
def aesKeys (key : List Byte) : List (List Nat) :=
  let ws := (chunks 4 8 (key.map BitVec.toNat)).reverse
  (chunks 4 15 (aesExpand 52 8 1 ws).reverse).map List.flatten

/-- ShiftRows on 16 bytes held by columns. -/
def shiftRows (b : List Nat) : List Nat := (upFrom 0 16).map fun i => b.getD ((i + 4 * (i % 4)) % 16) 0

/-- MixColumns on one column. -/
def mixCol (c : List Nat) : List Nat :=
  (upFrom 0 4).map fun i =>
    let g := fun j => c.getD ((i + j) % 4) 0
    xtime (g 0) ^^^ (xtime (g 1) ^^^ g 1) ^^^ g 2 ^^^ g 3

/-- One AES-256 block. -/
def aesBlock (keys : List (List Nat)) (b : List Nat) : List Nat :=
  let s0 := xorL b (keys.getD 0 [])
  let mid := ((keys.drop 1).take 13).foldl
    (fun s k => xorL ((chunks 4 4 (shiftRows (s.map subByte))).flatMap mixCol) k) s0
  xorL (shiftRows (mid.map subByte)) (keys.getD 14 [])

/-- A 128-bit block encrypted, as numbers. -/
def aesNat (keys : List (List Nat)) (x : Nat) : Nat :=
  (aesBlock keys ((beBytes x 16).map BitVec.toNat)).foldl (fun n y => n * 256 + y) 0

/-- A block of 16 bytes encrypted. -/
def aesBytes (keys : List (List Nat)) (b : List Byte) : List Byte := (aesBlock keys (b.map BitVec.toNat)).map (BitVec.ofNat 8)

/-- Tweak of block j of an XTS data unit: the first, taken as a little-endian number, times alpha to the j (IEEE 1619). -/
def xtsTweak (t : Nat) : Nat → Nat
  | 0 => t
  | j + 1 =>
    let x := xtsTweak t j
    2 * x % 2 ^ 128 ^^^ (if x < 2 ^ 127 then 0 else 0x87)

/-- AES-256 XTS of one 64-byte data unit under a key pair of 64 bytes (IEEE 1619; 06 R222). -/
def xtsLine (key : List Byte) (tweak : Nat) (line : List Byte) : List Byte :=
  let first := (aesBytes (aesKeys (key.drop 32)) (leBytes tweak 16)).reverse
  (chunks 16 4 line).zipIdx.flatMap fun p =>
    let t := leBytes (xtsTweak (beNat first) p.2) 16
    List.zipWith (· ^^^ ·) (aesBytes (aesKeys (key.take 32)) (List.zipWith (· ^^^ ·) p.1 t)) t

/-- One step of AES key wrap: the register A and the 64-bit words, oldest first; step `i` of the pass (NIST SP 800-38F). -/
def kwStep (keys : List (List Nat)) (p : Nat × List Nat) (i : Nat) : Nat × List Nat :=
  let b := aesNat keys (p.1 * 2 ^ 64 + p.2.headD 0)
  (b / 2 ^ 64 ^^^ i, p.2.drop 1 ++ [b % 2 ^ 64])

/-- AES-256 key wrap (KW) of a key of whole 64-bit words (NIST SP 800-38F; 11 R407). -/
def kwWrap (kek key : List Byte) : List Byte :=
  let words := (chunks 8 (key.length / 8) key).map beNat
  let r := (upFrom 1 (6 * words.length)).foldl (kwStep (aesKeys kek)) (0xA6A6A6A6A6A6A6A6, words)
  beBytes r.1 8 ++ r.2.flatMap fun w => beBytes w 8

/-- Multiplication in the field of GCM, over the bits of the first factor from bit 127 down. -/
def gfMul (x : Nat) : Nat → Nat → Nat → Nat
  | 0, z, _ => z
  | n + 1, z, v =>
    let z := if bitOf x n then z ^^^ v else z
    let v := if v % 2 = 1 then (v / 2) ^^^ (0xE1 * 2 ^ 120) else v / 2
    gfMul x n z v

/-- GHASH over 16-byte blocks. -/
def ghash (h : Nat) (bs : List (List Byte)) : Nat :=
  bs.foldl (fun y b => gfMul (y ^^^ beNat (padTo 16 b)) 128 0 h) 0

/-- The 16-byte pieces of a string, the last padded with zero. -/
def blocks16 (b : List Byte) : List (List Byte) := (chunks 16 (b.length / 16 + 1) b).map (padTo 16)

/-- The counter mode of GCM from counter 2. -/
def gcmCtr (keys : List (List Nat)) (iv : List Byte) (b : List Byte) : List Byte :=
  (blocks16 b).zipIdx.flatMap (fun p =>
    let ks := beBytes (aesNat keys (beNat iv * 2 ^ 32 + (p.2 + 2) % 2 ^ 32)) 16
    (p.1.zip ks).map fun q => q.1 ^^^ q.2) |>.take b.length

/-- The tag of GCM. -/
def gcmTag (keys : List (List Nat)) (iv aad ct : List Byte) : List Byte :=
  let h := aesNat keys 0
  let g := ghash h (blocks16 aad ++ blocks16 ct ++ [beBytes (8 * aad.length) 8 ++ beBytes (8 * ct.length) 8])
  beBytes (g ^^^ aesNat keys (beNat iv * 2 ^ 32 + 1)) 16

/-- AES-256-GCM encryption: ciphertext and 16-byte tag. -/
def gcmSeal (key iv aad pt : List Byte) : List Byte × List Byte :=
  let keys := aesKeys key
  let ct := gcmCtr keys iv pt
  (ct, gcmTag keys iv aad ct)

/-- AES-256-GCM decryption: the plaintext where the tag verifies. -/
def gcmOpen (key iv aad ct tag : List Byte) : Option (List Byte) :=
  let keys := aesKeys key
  if gcmTag keys iv aad ct = tag then some (gcmCtr keys iv ct) else none

/-! ### P-384 -/

/-- The field prime of P-384 (FIPS 186-5). -/
def p384P : Nat := 2 ^ 384 - 2 ^ 128 - 2 ^ 96 + 2 ^ 32 - 1

/-- The coefficient b of P-384. -/
def p384B : Nat :=
  0xb3312fa7e23ee7e4988e056be3f82d19181d9c6efe8141120314088f5013875ac656398d8a2ed19d2a85c8edd3ec2aef

/-- The order n of the base point of P-384 (FIPS 186-5). -/
def p384N : Nat :=
  0xffffffffffffffffffffffffffffffffffffffffffffffffc7634d81f4372ddf581a0db248b0a77aecec196accc52973

/-- A SEC1 uncompressed point on P-384 (11 R442). -/
def p384Point (b : List Byte) : Bool :=
  let x := beNat ((b.drop 1).take 48)
  let y := beNat ((b.drop 49).take 48)
  b.length == 97 && byteAt b 0 == 4 && x < p384P && y < p384P
    && (y * y) % p384P == (x * x * x + (p384P - 3) * x + p384B) % p384P

end Sys2Proof.Machine
end

