-- ==== Sys2Proof/Config.lean ====
section
/-! DEFINITION. The free values and what one implementation fixes: constants without a body, for what the spec leaves open
(log 6), for what the part holds fused or in ROM, and for the signature and key-agreement functions of the standards the
spec names, whose outputs the model does not compute (log 7). -/

namespace Sys2Proof.Config

/-- Values drawn from Crucible's entropy source or left open by the spec (02 R66; 03 R100; 06 R218; 11 R409), by the number
of the draw (log 6). -/
opaque freeNat : Nat → Nat

/-- TRACE_CODE of a traced kind, less one and modulo 65,535: 0 completed command, 1 GUARD_CUTS, 2 forge start, 3 forge commit,
4 forge discard, 5 training step close, 6 late inclusion, 7 rollback (16 R587, R589; log 6). -/
opaque traceCode : Nat → Nat

/-- OFFSET_NS of an event: stroke, code, scope, ARG0 (16 Table 16.6; log 6: the model keeps no time within a stroke). -/
opaque offsetNs : Nat → Nat → Nat → Nat → Nat

/-- How ARG0 of a traced command holds its opcode and tag (16 R587; log 6). -/
opaque traceArg : Nat → Nat → Nat

/-- Bytes drawn from Crucible's entropy source: draw number, length (log 6). -/
opaque freeBytes : Nat → Nat → List Byte

/-- The Crucible, CP-A and CP-B boot ROMs, concatenated (11 Table 11.3, block 1). -/
opaque bootRoms : List Byte

/-- The certificate chains 0 and 1, root first (11 R411, R442). -/
opaque certChain : Nat → List Byte

/-- The ECDSA P-384 signature r ‖ s of a message: private key, message (FIPS 186-5; 11 R410, R412). -/
opaque ecdsaSign : Nat → List Byte → List Byte

/-- The ML-DSA-87 signature of a message: seed of the key pair, context string, message (FIPS 204; 11 R410, R412, R421). -/
opaque mldsaSign : List Byte → List Byte → List Byte → List Byte

/-- ECDSA P-384 verification: public key, message, signature (FIPS 186-5). -/
opaque ecdsaVerify : List Byte → List Byte → List Byte → Bool

/-- ML-DSA-87 verification: public key, context, message, signature (FIPS 204). -/
opaque mldsaVerify : List Byte → List Byte → List Byte → List Byte → Bool

/-- Kenholt's firmware-signing keys in the boot ROM: ECDSA and ML-DSA-87 (17 R605). -/
opaque fwKeyEcdsa : List Byte
opaque fwKeyMldsa : List Byte

/-- Z = Z_ecdh ‖ Z_mlkem of a key exchange: the device's draw, the peer's ECDH and ML-KEM public values (11 R415). -/
opaque sharedSecret : Nat → List Byte → List Byte → List Byte

/-- The device's ML-KEM-1024 ciphertext of a key exchange: the device's draw, the encapsulation key (11 R415). -/
opaque mlkemCiphertext : Nat → List Byte → List Byte

/-- The secrets of the SPDM 1.3 key schedule from Z and a transcript: label, Z, transcript (11 R415). -/
opaque spdmSecret : List Byte → List Byte → List Byte → List Byte

/-- Bytes of engine-local SRAM in the partition of a compartment whose run has so many units (02 R49; log 101). -/
opaque sramPartition : Nat → Nat

/-- Physical address of the first Hearth line of a cached copy: TENSOR_ID, TILE_INDEX (06 R222; log 122). -/
opaque hearthCopy : Nat → Nat → Nat

/-- Base bank and base row of a tile in its cluster's operand buffer: TENSOR_ID, TILE_INDEX (05 R173; log 102). -/
opaque sramBank : Nat → Nat → Nat
opaque sramRow : Nat → Nat → Nat

/-- The Tong that serves a tile: TENSOR_ID, TILE_INDEX (06 R223; log 102). -/
opaque tongOf : Nat → Nat → Nat

end Sys2Proof.Config
end

