-- ==== Sys2Proof/Machine/State.lean ====
section
/-! DEFINITION. The state of the block as plain data, and its value right after reset: the end of Dawn (17 R602) with
nothing listed. Each field's line gives its width, the rule that names it and its reset value. -/

namespace Sys2Proof.Machine

/-- STATE of a ring (19 Table 19.4). -/
inductive RingSt where
  | disabled
  | enabling
  | enabled
  | disabling
  deriving DecidableEq, Repr

/-- What became of one admitted command (03 R93, R95). -/
structure CmdOutcome where
  /-- how often the ring had been enabled when the number was given -/
  epoch : Nat
  seq : Nat
  status : Nat
  stroke : Nat
  deriving DecidableEq, Repr

/-- A submission ring. -/
structure SqRing where
  /-- SQ_BASE: 64 bits; 19 Table 19.1; reset 0 -/
  base : Nat := 0
  /-- SQ_SIZE.SIZE_LOG2: 5 bits; 19 Table 19.1; reset 0 -/
  sizeLog : Nat := 0
  /-- SQ_CTRL.ENABLE: 1 bit; 19 Table 19.4; reset 0 -/
  enable : Bool := false
  /-- SQ_CTRL.DISABLE_MODE: 1 bit, true ABORT; 19 Table 19.4; reset 0 -/
  abortMode : Bool := false
  /-- SQ_CTRL.STATE: 2 bits; 19 Table 19.4; reset DISABLED -/
  st : RingSt := .disabled
  /-- SQ_CTRL.FAULTED: 1 bit; 19 Table 19.4; reset 0 -/
  faulted : Bool := false
  /-- a ring fault disables the ring at the next boundary: 1 bit; 03 R80; reset 0 -/
  faultDue : Bool := false
  /-- SQ_HEAD: 32 bits; 03 R78; reset 0 -/
  head : Nat := 0
  /-- SQ_TAIL: 32 bits; 03 R78; reset 0 -/
  tail : Nat := 0
  /-- tail as it stood at offset 0 of the stroke: 32 bits; 02 R34; reset 0 -/
  tailAt0 : Nat := 0
  /-- SQ_NEXT_SEQ: 48 bits; 03 R92, 19 Table 19.1; reset 0 -/
  nextSeq : Nat := 0
  /-- strokes of holding of the packet at the head: count to 256; 03 R94; reset 0 -/
  hold : Nat := 0
  /-- how often the ring has been enabled: a sequence number belongs to one enabling; 03 R78, R95; reset 0 -/
  epoch : Nat := 0
  /-- outcome window: the last 16,384 admitted commands; 03 R95; reset empty -/
  outcomes : List CmdOutcome := []
  deriving DecidableEq, Repr

/-- A reply ring or the event ring. -/
structure OutRing where
  /-- RQ_BASE, EQ_BASE: 64 bits; 19 Table 19.1; reset 0 -/
  base : Nat := 0
  /-- RQ_SIZE, EQ_SIZE SIZE_LOG2: 5 bits; 19 Table 19.1; reset 0 -/
  sizeLog : Nat := 0
  /-- ENABLE: 1 bit; 19 Table 19.4; reset 0 -/
  enable : Bool := false
  /-- STATE: 2 bits; 19 Table 19.4; reset DISABLED -/
  st : RingSt := .disabled
  /-- FAULTED: 1 bit; 19 Table 19.4; reset 0 -/
  faulted : Bool := false
  /-- a fault disables the ring at the next boundary: 1 bit; 03 R80, 19 R664; reset 0 -/
  faultDue : Bool := false
  /-- RQ_HEAD, EQ_HEAD, the host head: 32 bits; 03 R79; reset 0 -/
  head : Nat := 0
  /-- RQ_TAIL, EQ_TAIL, the device tail: 32 bits; 03 R79; reset 0 -/
  tail : Nat := 0
  deriving DecidableEq, Repr

/-- A held notice (03 R106). -/
structure Notice where
  kind : Nat
  /-- stroke from which it applies, bytes 0-7 -/
  stroke : Nat
  /-- bytes 8-11 -/
  lo : List Byte
  /-- bytes 16-21 -/
  hi : List Byte
  deriving DecidableEq, Repr

/-- TDI states (14 R527). -/
inductive TdiSt where
  | unlocked
  | locked
  | run
  | error
  deriving DecidableEq, Repr

/-- An index range handed out least recently freed first (03 R99): tags, stream handles, domains. -/
structure IdxRange where
  /-- seed of the free first generations (03 R100; log 6) -/
  seed : Nat := 0
  /-- GENERATIONs assigned since the range was set up, by index, 16 bits each -/
  gens : Tab Nat := []
  /-- indices assigned at least once since the range was set up -/
  fresh : Nat := 0
  /-- indices freed since, oldest first -/
  freed : List Nat := []
  /-- indices in use -/
  used : List Nat := []
  deriving DecidableEq, Repr

/-- An SPDM session of a function (11 R413-R418). -/
structure Session where
  /-- SESSION_ID: 32 bits -/
  id : Nat
  /-- FINISH established it -/
  established : Bool
  /-- mutual authentication was requested -/
  mutualAuth : Bool
  /-- PQ_FINISH made it tenant-authenticated (R418) -/
  tenantAuth : Bool
  /-- Z, the secret that enters the SPDM key schedule: 80 bytes (R415) -/
  secret : List Byte
  /-- transcript hash TH2, 48 bytes; zero before FINISH -/
  th2 : List Byte
  /-- stroke of FINISH -/
  finishStroke : Nat
  /-- stroke of the last HEARTBEAT -/
  beat : Nat
  /-- updates of the requester's and of the responder's key (KEY_UPDATE) -/
  reqUpdates : Nat
  rspUpdates : Nat
  /-- BLOB_SEQ of the last accepted KEY.DELIVER -/
  blobSeq : Nat
  deriving DecidableEq, Repr

/-- SPDM and TDISP error responses (11 R413-R415; 14 R524, R529). -/
inductive SpdmErr where
  | invalidRequest
  | unexpectedRequest
  | unsupportedRequest
  | versionMismatch
  | sessionLimitExceeded
  | decryptError
  | invalidSession
  /-- the entropy source is stopped (11 R409) -/
  | noEntropy
  /-- the TDI is in another state (TDISP) -/
  | invalidState
  /-- the nonce is not the current lock's (TDISP) -/
  | invalidNonce
  /-- any other error code of the specification -/
  | other (code : Nat)
  deriving DecidableEq, Repr

/-- The response a DOE mailbox holds (11 R413-R420; 14 R523-R529). -/
inductive DoeResp where
  /-- VERSION, listing one version -/
  | version (v : Nat)
  | capabilities
  | algorithms
  /-- DIGESTS: the digest of slot 0's chain -/
  | digests (slot0 : List Byte)
  /-- CERTIFICATE: portion and remainder length -/
  | certificate (portion : List Byte) (remainder : Nat)
  /-- CHALLENGE_AUTH with its ECDSA signature -/
  | challengeAuth (sig : List Byte)
  /-- MEASUREMENTS: number of blocks, the blocks, and the ECDSA signature where one was asked for -/
  | measurements (count : Nat) (blocks sig : List Byte)
  /-- KEY_EXCHANGE_RSP: session, mutual authentication requested, ML-KEM ciphertext, ECDSA signature -/
  | keyExchangeRsp (session : Nat) (mutualAuth : Bool) (ciphertext sig : List Byte)
  | finishRsp
  /-- the answer to PQ_FINISH -/
  | pqFinishRsp
  /-- the answer to GET_PQ_SIGNATURE -/
  | pqSignature (sig : List Byte)
  /-- the answer to GET_PQ_CERT -/
  | pqCert (portion : List Byte) (remainder : Nat)
  | endSessionAck
  | heartbeatAck
  | keyUpdateAck
  /-- KP_ACK with its status, 0 success -/
  | kpAck (status : Nat)
  | kGoStopAck
  /-- LOCK_INTERFACE_RESPONSE with START_INTERFACE_NONCE -/
  | lockInterface (nonce : List Byte)
  | startInterface
  | stopInterface
  | tdiBind
  | error (e : SpdmErr)
  deriving DecidableEq, Repr

/-- One function's registers, rings and mailbox. -/
structure FnState where
  /-- four submission rings; 03 Table 3.1; reset all disabled -/
  sq : Tab SqRing := []
  /-- the reply ring; 03 R79; reset disabled -/
  rq : OutRing := {}
  /-- reply writing stopped by a reply-ring fault: 1 bit; 03 R80; reset 0 -/
  rqStopped : Bool := false
  /-- INT_STATUS: 32 bits, bits [3:0] used; 19 Table 19.3; reset 0 -/
  intStatus : Nat := 0
  /-- INT_MASK: 32 bits, bits [3:0] used; 19 R660; reset 0 -/
  intMask : Nat := 0
  /-- bits an event set in this stroke: 4 bits; 19 R660; reset 0 -/
  intEvents : Nat := 0
  /-- an unmasked bit became set in this stroke: 1 bit; 14 R519, 19 R660; reset 0 -/
  statusDue : Bool := false
  /-- RING_COUNTER[0-7]: 8 x 64 bits; 03 Table 3.9, 19 Table 19.1; reset 0 -/
  counters : Tab Nat := []
  /-- held notices, at most one of each kind; 03 R106; reset none -/
  notices : Tab Notice := []
  /-- tag indices of the function: generations, freed order, in use; 03 R97-R100; reset none used (first generations are free values, log 6) -/
  tags : IdxRange := {}
  /-- a function reset is due at the next boundary: 1 bit; 14 R531; reset 0 -/
  resetDue : Bool := false
  /-- D3hot: 1 bit; 14 Table 14.1; reset D0 -/
  d3 : Bool := false
  /-- the response the DOE mailbox holds; 14 R523; reset none -/
  doe : Option DoeResp := none
  /-- SPDM negotiation reached: 0 none, 1 VERSION, 2 CAPABILITIES, 3 ALGORITHMS; 11 R413; reset 0 -/
  spdmStage : Nat := 0
  /-- the kept ML-DSA-87 signature of the last signed response; 11 R414; reset none -/
  keptSig : Option (List Byte) := none
  /-- DOE Error: 1 bit; 14 R523; reset 0 -/
  doeError : Bool := false
  /-- SPDM sessions, at most 2; 11 R413; reset none -/
  sessions : List Session := []
  /-- TDI state (virtual functions): 14 R527; reset CONFIG_UNLOCKED -/
  tdi : TdiSt := .unlocked
  /-- START_INTERFACE_NONCE of the current lock: 32 bytes; 14 R527; reset none -/
  nonce : List Byte := []
  /-- a TDI_BIND was accepted since CONFIG_LOCKED was last entered: 1 bit; 14 R528; reset 0 -/
  bindOk : Bool := false
  /-- the binding ended: rings abort at the next boundary without replies: 1 bit; 14 R530; reset 0 -/
  unbindDue : Bool := false
  /-- low-half read latches of 64-bit registers, by offset: 32 bits each; 19 R654; reset none -/
  latch : Tab Nat := []
  /-- MSI-X table by 32-bit word: 8 entries of the physical function, 4 of a virtual one; 14 Table 14.2; reset PRESUMED vectors masked (PCI Express) -/
  msixTable : Tab Nat := []
  /-- MSI-X pending-bit array; 14 Table 14.2; reset 0 -/
  msixPending : Nat := 0
  /-- MSI-X messages sent, by vector (count since reset); 14 R519; reset 0 -/
  msix : Tab Nat := []
  deriving DecidableEq, Repr

/-- Numeric configuration (04 R155, R156). -/
structure NumCfg where
  /-- NAN_POLICY is TRAP -/
  trap : Bool := false
  /-- GUARD_DEFAULT is on -/
  guard : Bool := true
  clipShare : Nat := 16
  rangeShift : Nat := 4
  deriving DecidableEq, Repr

/-- A set scale-history slot (04 R145, R146). -/
structure HistSlot where
  fmt : Nat
  len : Nat
  margin : Nat
  /-- window, newest first, FP32 -/
  window : List Nat
  /-- pending maximum, FP32 -/
  pending : Nat := 0
  /-- current d, FP32 -/
  d : Nat
  advances : Nat := 0
  lastStroke : Nat := 0
  /-- number of times the slot has been set or released when this set took effect (04 R157) -/
  gen : Nat
  deriving DecidableEq, Repr

/-- What planning a command's first quantum fixes for all its quanta: its checks have passed, and these values hold until it
ends (04 R120, R157; 05 R169; 06 R246). -/
structure Snap where
  /-- numeric configuration captured (04 R157) -/
  num : NumCfg := {}
  /-- scale-history slots captured: their d and generation (04 R120, R157) -/
  hist : Tab HistSlot := []
  /-- addresses and identifiers taken, in the order in which the work asks for them (06 R211, R246) -/
  taken : List Nat := []
  /-- decode scales of the integer path's judgement: of the X row blocks, then of the W column blocks; none where the reduction
  tiles of a block do not share one (05 R169) -/
  judged : List (List (Option Nat)) := []
  /-- the plan is complete: the quanta that follow only work it off -/
  ready : Bool := false
  deriving DecidableEq, Repr

/-- An accumulator tile at a cut: a unit of a command, the reduction steps it has received, and its 32-bit values for the valid
rows and columns, in row-major order (02 R48; 05 R162, R163). A unit of SCAN holds the carried states of a group of 128 channels
(05 R181). -/
structure AccTile where
  unit : Nat
  steps : Nat
  vals : List Nat
  /-- elements whose INT32 sum was held at a limit, which INT32_SATURATED counts (04 R152) -/
  held : List Nat := []
  deriving DecidableEq, Repr

/-- The work of a command between its first quantum and its end (02 R48-R50). -/
structure Work where
  order : Nat
  comp : Nat
  /-- accumulator tiles carried in the compartment's engine-local SRAM partition (02 R49), and those whose output tile waits for
  others -/
  tiles : List AccTile := []
  /-- output units finished and held uncommitted -/
  done : List Nat := []
  /-- statistics records of finished output tiles, by tile (04 R150) -/
  stats : List (Nat × List Byte) := []
  /-- lengths that the first quantum read (08 R322) -/
  lens : List Nat := []
  /-- tiles that the first quantum read for the whole command (08 R337) -/
  data : List TileData := []
  deriving DecidableEq, Repr

/-- The two accumulator tiles of an Anvil: one receives steps, the other is drained by the epilogue unit (05 R162); each with the
command it belongs to. -/
structure Anvil where
  receiving : Option (Nat × AccTile) := none
  draining : Option (Nat × AccTile) := none
  deriving DecidableEq, Repr

/-- A Tong: the compartment whose run it serves, and its two buffers of 72 KiB, each with the stored form of one tile (06 R223). -/
structure Tong where
  comp : Nat
  first : List Byte := []
  second : List Byte := []
  deriving DecidableEq, Repr

/-- A tile that the Tongs have placed in engine-local SRAM for the command under way: its 64-byte lines as the banks hold them, each
with its bank and row (05 R173; 06 R208). -/
structure SramTile where
  order : Nat
  comp : Nat
  /-- device address of the table, and tile index -/
  table : Nat
  tile : Nat
  /-- base bank and base row -/
  bank : Nat
  row : Nat
  /-- w: bytes of an element, 1 for 8 bits or fewer -/
  width : Nat
  lines : List (Nat × Nat × List Byte)
  deriving DecidableEq, Repr

/-- The quantum that is being worked on (the model's own: it is empty between commands). -/
structure Act where
  /-- the planned command whose quantum executes, by admission order -/
  order : Option Nat := none
  /-- the first quantum is being planned: checks are made and values captured, nothing else is kept -/
  trial : Bool := false
  /-- where the quantum is cut; none for the last quantum -/
  reach : List Reach := []
  /-- what planning fixed, as far as the work has not asked for it -/
  snap : Option Snap := none
  /-- a rehearsal, which asks only which Hearth copies the work will make (06 R232) -/
  dry : Bool := false
  /-- stored forms written to host windows: compartment, address, bytes (06 R227) -/
  writes : List (Nat × Nat × List Byte) := []
  deriving DecidableEq, Repr

/-- An admitted command whose reply is not written yet (03 R83, R103). -/
structure Adm where
  cmd : Cmd
  /-- opcode, class in [15:8] (00 R8) -/
  op : Nat
  /-- dependencies (ring, sequence number), AFTER_PREV's included (03 R92) -/
  deps : List (Nat × Nat)
  /-- REQUIRE_OK (03 Table 3.4) -/
  requireOk : Bool
  /-- referenced block: address and length (03 R87) -/
  ref : Option (Nat × Nat)
  /-- the referenced block has been read, or the block is inline -/
  fetched : Bool
  /-- planned in a plan phase: its first quantum may execute -/
  planned : Bool
  /-- waits for something its own section names (STROKE.WAIT, COMP.CREATE, BASE.LOAD ...) -/
  waiting : Bool
  /-- strokes of deferral (15 R536) -/
  heldStrokes : Nat
  /-- strokes of waiting for slot space (06 R228) -/
  slotWait : Nat
  /-- last stroke of a DRAIN that affects it (03 R110) -/
  drainEnd : Option Nat
  /-- a drain under a lower cap ends with SHED (15 R553) -/
  drainShed : Bool
  /-- how often each ring of its function had been enabled at its admission: the numbering its dependencies name (03 R92, R95) -/
  epochs : List Nat := []
  /-- a plan phase has examined its dependencies (03 R93) -/
  examined : Bool := false
  /-- its dependencies were satisfied when they were examined (03 R93) -/
  depsMet : Bool := false
  /-- what the planning of its first quantum fixed -/
  snap : Option Snap := none
  deriving DecidableEq, Repr

/-- A reply to be written in the report phase (03 R104). -/
structure Reply where
  cmd : Cmd
  op : Nat
  status : Nat
  detail : Nat
  /-- false for a packet refused at intake: TAG and SEQ read 0 -/
  admitted : Bool
  /-- its reply is not written and counts in REPLIES_LOST (03 R80) -/
  lost : Bool
  /-- last stroke of a DRAIN that affects it while its results are held back (03 R110), and whether it then ends with SHED (15 R553) -/
  drainEnd : Option Nat := none
  drainShed : Bool := false
  deriving DecidableEq, Repr

/-- A result record or other host write of the report phase, in its function's DMA space (02 R71). -/
structure HostWrite where
  fn : Fn
  addr : Nat
  bytes : List Byte
  deriving DecidableEq, Repr

/-- A slice layout entry: F, C and FILL_MODE (02 R42, R52). -/
structure Slice where
  first : Nat := 0
  count : Nat := 0
  openFill : Bool := false
  deriving DecidableEq, Repr

/-- An accepted SLICE.SET that has not taken effect (02 R47). -/
structure PendingSlice where
  comp : Nat
  slice : Slice
  effective : Nat
  deriving DecidableEq, Repr

/-- A consent of a lending group's member, bound to a session's transcript hash (02 R73). -/
structure Consent where
  comp : Nat
  members : Nat
  hash : List Byte
  deriving DecidableEq, Repr

/-- A lending group (02 R54). -/
structure LendGroup where
  members : Nat
  consents : List Consent
  active : Bool
  dissolving : Bool
  deriving DecidableEq, Repr

/-- A pending STROKE.CONFIG (02 R39). -/
structure PendingConfig where
  target : Nat
  period : Nat
  burst : Bool
  deriving DecidableEq, Repr

/-- ALIGN_STATE (02 Table 2.8). -/
inductive AlignSt where
  | standalone
  | aligned
  | unaligned
  deriving DecidableEq, Repr

/-- Phases of a stroke (02 Table 2.1). -/
inductive Phase where
  | boundary
  | intake
  | plan
  | execute
  | settle
  | report
  deriving DecidableEq, Repr

/-- The stroke timer and what is scheduled on it. -/
structure StrokeSt where
  /-- STROKE_NUMBER: 64 bits; 02 R36; reset 0 -/
  number : Nat := 0
  /-- phase of the stroke last entered; 02 R33; reset the boundary of stroke 0 -/
  phase : Phase := .boundary
  /-- PERIOD: 16 bits, in 10 us; 02 R38; reset 25 -/
  period : Nat := 25
  /-- clock policy: 1 bit, true BURST; 02 R41; reset FIXED -/
  burst : Bool := false
  /-- pending STROKE.CONFIG; 02 R39; reset none -/
  pending : Option PendingConfig := none
  /-- CONFIG_EPOCH: 64 bits; 02 R47, 19 Table 19.7; reset 0 -/
  configEpoch : Nat := 0
  /-- accepted SLICE.SETs not in force yet, oldest first; 02 R47; reset none -/
  slices : List PendingSlice := []
  /-- lending groups 0-15; 02 R54; reset none -/
  groups : Tab LendGroup := []
  /-- ALIGN_STATE: 2 bits; 02 Table 2.8; reset standalone -/
  align : AlignSt := .standalone
  /-- ALIGN_OFFSET: signed 32 bits, ps; 02 Table 2.8; reset 0 -/
  alignOffset : Int := 0
  /-- consecutive strokes with the reference missing: count; 02 R60; reset 0 -/
  refMissing : Nat := 0
  /-- the last report phase's lengthening by the trim: signed, ps; 02 R33, R61; reset DESIGN CHOICE 0 (log 9) -/
  trim : Int := 0
  /-- pending disables of a function or link by boundary are held by their own fields; admission counter: 64 bits; 02 R46; reset 0 -/
  nextOrder : Nat := 0
  /-- compartments whose run has begun in this stroke; 02 R43; reset none -/
  ran : List Nat := []
  /-- the compartment whose run is under way; 02 R43; reset none -/
  current : Option Nat := none
  /-- the run under way is in its guard interval: 1 bit; 02 R43, R51; reset 0 -/
  guard : Bool := false
  /-- usable time of the run under way that planned, further and lent quanta have taken, ns; 02 R51, R53, R55; reset 0 -/
  usedNs : Nat := 0
  /-- the compartment to which the idle time of the run under way is lent; 02 R55; reset none -/
  borrower : Option Nat := none
  /-- rings that this stroke's intake has not left yet, in order, while it stands at a packet held in its 256th stroke; 03 R81, R94;
  reset none -/
  intakeLeft : List (Fn × Nat) := []
  /-- functions whose ring reads fail at this intake; 03 R80; reset none -/
  intakeFail : List Fn := []
  /-- packets taken and ring bytes counted of the first of those functions: the allowance of 03 Table 3.1; reset 0 and 0 -/
  intakeUsed : Nat × Nat := (0, 0)
  deriving DecidableEq, Repr

/-- A signal-word store that is not yet certainly visible (02 R66). -/
structure WordStorePending where
  /-- admission order of the WORD.STORE -/
  order : Nat
  comp : Nat
  index : Nat
  value : Nat
  ring : Nat
  /-- a FENCE.SC made it visible (02 R67) -/
  visible : Bool := false
  /-- rings whose fence took effect once it was visible: what they store then is ordered after it -/
  fencedBy : List Nat := []
  /-- admission orders of the stores to its word that are ordered after it -/
  later : List Nat := []
  deriving DecidableEq, Repr

/-- Channel states (16 R568), in the coding of R595. -/
inductive ChanSt where
  | valid
  | starting
  | faulted
  | off
  deriving DecidableEq, Repr

/-- One sensor channel (16 R567-R569). -/
structure Chan where
  /-- the last good samples, newest first, at most 5; 16 R567; reset none -/
  win : List Int := []
  /-- consecutive bad samples: count; 16 R568; reset 0 -/
  badRun : Nat := 0
  /-- channel state; 16 R568; reset STARTING -/
  st : ChanSt := .starting
  /-- y of the rule filter: 48 bits; 16 R569; reset 0 -/
  yRule : Int := 0
  /-- y of the thermal filter: 48 bits; 16 R569; reset 0 -/
  yTherm : Int := 0
  /-- y of the reporting filter: 48 bits; 16 R569; reset 0 -/
  yRep : Int := 0
  /-- PEAK, the highest VALUE since Dawn: signed 32 bits; 16 R595; reset none -/
  peak : Option Int := none
  /-- ticks outside the VALID window or FAULTED (tamper channels): count; 16 R574; reset 0 -/
  tamperRun : Nat := 0
  /-- last converted value: signed 32 bits; 16 R565; reset 0 -/
  raw : Int := 0
  deriving DecidableEq, Repr

/-- A channel configuration entry (16 Table 16.3). -/
structure ChanCfg where
  enable : Bool := false
  shift : Nat := 0
  vmin : Int := -(2 ^ 31)
  vmax : Int := 2 ^ 31 - 1
  deriving DecidableEq, Repr

/-- A rule (16 Table 16.4). -/
structure Rule where
  source : Nat
  below : Bool
  action : Nat
  arg : Nat
  first : Nat
  last : Nat
  threshold : Int
  clear : Int
  holdTicks : Nat
  clearTicks : Nat
  cls : Nat
  flags : Nat
  deriving DecidableEq, Repr

/-- A rule table (16 Table 16.2). -/
structure RuleTable where
  format : Nat := 1
  svn : Nat := 0
  chans : Tab ChanCfg := []
  rules : List Rule := []
  deriving DecidableEq, Repr

/-- RULE_STATUS of one rule (19 Table 19.12). -/
structure RuleSt where
  ticks : Nat := 0
  asserted : Bool := false
  assertions : Nat := 0
  deriving DecidableEq, Repr

/-- Event classes (16 Table 16.6 FLAGS [1:0]). -/
inductive EvClass where
  | alarm
  | error
  | warn
  | trace
  deriving DecidableEq, Repr

/-- One occurrence of an event (16 Table 16.6), before it is coalesced on a path. -/
structure Ev where
  code : Nat
  cls : EvClass
  scope : Nat
  arg0 : Nat
  arg1 : Nat
  stroke : Nat
  alert : Bool := false
  deriving DecidableEq, Repr

/-- A record of the alarm ring (16 Table 16.6, R584). -/
structure AlarmRec where
  stroke : Nat
  code : Nat
  scope : Nat
  rep : Nat
  arg0 : Nat
  arg1 : Nat
  lastStroke : Nat
  coalesced : Bool
  merged : Bool
  alert : Bool
  acked : Bool
  hostSent : Bool
  sbSent : Bool
  deriving DecidableEq, Repr

/-- A record of the sideband FIFO (16 R582). -/
structure FifoRec where
  ev : Ev
  rep : Nat
  seq : Nat
  deriving DecidableEq, Repr

/-- A pending summary (16 R581). -/
structure Summary where
  /-- strokes covered; 0 is an empty summary -/
  strokes : Nat := 0
  errDropped : Nat := 0
  warnDropped : Nat := 0
  traceDropped : Nat := 0
  slotsDropped : Nat := 0
  pendingAlarms : Nat := 0
  written : Nat := 0
  firstStroke : Nat := 0
  lastStroke : Nat := 0
  deriving DecidableEq, Repr

/-- A traced event in a compartment's queue (16 R588, R589). -/
structure TraceRec where
  code : Nat
  arg0 : Nat
  arg1 : Nat
  deriving DecidableEq, Repr

/-- A tenant's trace configuration (16 R587). -/
structure TraceCfg where
  key : Nat
  slots : Nat
  mask : Nat
  deriving DecidableEq, Repr

/-- Log budgets (16 Table 16.8). -/
structure Budgets where
  error : Nat := 32
  warn : Nat := 32
  trace : Nat := 64
  sbError : Nat := 4
  sbWarn : Nat := 2
  traceMask : Nat := 0
  deriving DecidableEq, Repr

/-- Nightwatch, its events, its paths and the sideband. -/
structure WatchSt where
  /-- 256 sensor channels; 16 Table 16.1; reset STARTING, windows empty -/
  chans : Tab Chan := []
  /-- ticks counted: 100 us each; 16 R566; reset DESIGN CHOICE 0 (log 10) -/
  ticks : Nat := 0
  /-- the rule table in force; 16 R570; reset DESIGN CHOICE no rules (log 11) -/
  table : RuleTable := {}
  /-- RULE_STATUS by rule index: 64 bits each; 19 Table 19.12; reset 0 -/
  ruleSt : Tab RuleSt := []
  /-- events raised and not yet matched against the EVENT rules, oldest first; 16 R571; reset none -/
  raised : List Ev := []
  /-- event occurrences of this stroke, oldest first; 16 R578; reset none -/
  events : List Ev := []
  /-- alarm ring: 4,096 slots; 16 R584; reset empty (standby power-on) -/
  alarms : Tab AlarmRec := []
  /-- general slot of the newest alarm record: 0-4,031; 16 R584; reset DESIGN CHOICE 4,031, so that slot 0 is taken first (log 12) -/
  newestSlot : Nat := 4031
  /-- log budgets and device trace mask in force; 16 Table 16.8; reset 32, 32, 64, 4, 2, 0 -/
  budgets : Budgets := {}
  /-- LOG.CONFIG pending for the next boundary; 16 R593; reset none -/
  budgetsPending : Option Budgets := none
  /-- the event ring's registers; 19 Table 19.1; reset disabled, 0 -/
  eq : OutRing := {}
  /-- PATH_SEQ of the host path: 32 bits; 16 Table 16.6; reset 0 -/
  hostSeq : Nat := 0
  /-- PATH_SEQ of the sideband: 32 bits; 16 Table 16.6; reset 0 -/
  sbSeq : Nat := 0
  /-- summary not yet written on the host path; 16 R581; reset empty -/
  hostSummary : Summary := {}
  /-- sideband event FIFO: at most 255 records; 16 R582; reset empty -/
  fifo : List FifoRec := []
  /-- sideband SUMMARY register; 16 R582, 19 Table 19.13; reset 0 -/
  sbSummary : Summary := {}
  /-- ALARM_SLOT: 12 bits; 19 Table 19.13; reset 0 -/
  alarmSlot : Nat := 0
  /-- ACK_RESULT: 16 bits; 19 Table 19.13; reset 0 -/
  ackResult : Nat := 0
  /-- dynamic I3C address, 7 bits, none before assignment; 16 R591; reset none -/
  dynAddr : Option Nat := none
  /-- RECORDS_WRITTEN: 64 bits; 16 Table 16.12; reset 0 -/
  recordsWritten : Nat := 0
  /-- ERRORS_DROPPED: 64 bits; 16 Table 16.12; reset 0 -/
  errorsDropped : Nat := 0
  /-- WARNS_DROPPED: 64 bits; 16 Table 16.12; reset 0 -/
  warnsDropped : Nat := 0
  /-- TRACES_DROPPED: 64 bits; 16 Table 16.12; reset 0 -/
  tracesDropped : Nat := 0
  /-- SB_DROPPED: 64 bits; 16 Table 16.12; reset 0 -/
  sbDropped : Nat := 0
  /-- 1 ms budget periods since the last Dawn started, while no stroke runs: 63 bits; 16 R576, 19 Table 19.13; reset 0 -/
  periods : Nat := 0
  /-- in-band interrupts sent (count); 16 R592; reset 0 -/
  ibis : Nat := 0
  /-- mandatory byte of the last in-band interrupt: 8 bits; 16 R591; reset DESIGN CHOICE 0 (log 119) -/
  ibiByte : Nat := 0
  /-- sideband read address: 16 bits; 19 R668; reset DESIGN CHOICE 0 (log 119) -/
  sbAddr : Nat := 0
  deriving DecidableEq, Repr

/-- Power states (15 Table 15.1). -/
inductive PowerState where
  | dawn
  | noon
  | highNoon
  | afternoon
  | evening
  | duskServing
  | duskHolding
  | night
  deriving DecidableEq, Repr

/-- What the main domain does (17 Table 17.1, R604). -/
inductive MainSt where
  /-- in service: strokes run -/
  | service
  /-- Night: the main domain is off (15 R557) -/
  | night
  /-- a Dawn failed (17 R604) -/
  | failed
  /-- VSTBY_3V3 absent (17 R599) -/
  | unpowered
  deriving DecidableEq, Repr

/-- Why Night was entered (16 Table 16.7 NIGHT_ENTRY), restart and RESET_N included. -/
inductive NightCause where
  | supply
  | thermal
  | trip
  | tamper
  | rule
  | cap
  | restart
  | reset
  | powerOn
  deriving DecidableEq, Repr

/-- A burst in progress (15 R547). -/
structure Burst where
  start : Nat
  length : Nat
  deriving DecidableEq, Repr

/-- Power, lands and clocks. -/
structure PowerSt where
  /-- what the main domain does; 17 R597, R604; reset in service -/
  main : MainSt := .service
  /-- cause of the Night the device is in or last was in; 15 R556; reset standby power-on -/
  nightCause : NightCause := .powerOn
  /-- POWER_STATE: 4 bits; 15 Table 15.1; reset Noon, as the levels and the cap allow (17 R602) -/
  state : PowerState := .noon
  /-- SUPPLY_LEVEL: 4 bits; 15 Table 15.3, 19 Table 19.9; reset DESIGN CHOICE 0 (log 13) -/
  supply : Nat := 0
  /-- THERMAL_LEVEL: 4 bits; 15 Table 15.3, 19 Table 19.9; reset DESIGN CHOICE 0 (log 13) -/
  thermal : Nat := 0
  /-- CAP: 4 bits, a state code; 15 R545, 17 R602; reset Noon 0x1 -/
  cap : Nat := 1
  /-- DEFER_LIMIT: 16 bits; 15 R536, 17 R602; reset 4,096 -/
  deferLimit : Nat := 4096
  /-- POWER.SET pending for the next boundary: (CAP, DEFER_LIMIT); 15 R545; reset none -/
  setPending : Option (Nat × Nat) := none
  /-- STATE_SINCE: 64 bits; 15 Table 15.9; reset 0 -/
  since : Nat := 0
  /-- a change took effect after offset P - 10 us: work is shed from the next stroke: 1 bit; 15 R550; reset 0 -/
  shedDue : Bool := false
  /-- HIGH_NOON_NS: 64 bits; 15 Table 15.9; reset 0 -/
  highNoonNs : Nat := 0
  /-- the burst in progress; 15 R547; reset none -/
  burst : Option Burst := none
  /-- stroke at which the last burst ended; 15 R547; reset none -/
  lastBurstEnd : Option Nat := none
  /-- past bursts: (first stroke, ns spent), newest first; 15 R547; reset none -/
  bursts : List (Nat × Nat) := []
  /-- BURSTS_ENDED_EARLY: 64 bits; 15 Table 15.9; reset 0 -/
  burstsEndedEarly : Nat := 0
  /-- SHED_COMMANDS of the device: 64 bits; 15 Table 15.9; reset 0 -/
  shed : Nat := 0
  /-- DEFERRED_COMMANDS of the device: 64 bits; 15 Table 15.9; reset 0 -/
  deferred : Nat := 0
  /-- RESET_N level: 1 bit, true released; 18 R643; reset DESIGN CHOICE released (log 14) -/
  resetN : Bool := true
  /-- THERMTRIP_N latch: 1 bit nonvolatile; 18 R644; reset DESIGN CHOICE clear (log 14) -/
  tripLatch : Bool := false
  /-- the trip was latched, or VSTBY_3V3 was away, while RESET_N was asserted: 1 bit; 18 R644; reset 0 -/
  tripInReset : Bool := false
  /-- PWR_GOOD land: 1 bit; 17 Table 17.6; reset high -/
  pwrGood : Bool := true
  /-- input switch closed: 1 bit; 18 R637; reset closed -/
  inputSwitch : Bool := true
  /-- REFCLK holdover: 1 bit; 18 R647, 19 Table 19.9; reset 0 -/
  holdover : Bool := false
  /-- REFCLK is back and the clocks return at the next boundary: 1 bit; 18 R647; reset 0 -/
  refclkBack : Bool := false
  /-- FW.ACTIVATE with WHEN 1 completed: restart at the next boundary: 1 bit; 17 R621; reset 0 -/
  restartDue : Bool := false
  /-- Hearth was row-cleared at the last Night entry: 1 bit; 15 R556; reset DESIGN CHOICE true (log 14) -/
  hearthCleared : Bool := true
  deriving DecidableEq, Repr

/-- A bank of the firmware store (17 R605). -/
structure Bank where
  /-- the bank is valid under R605 but for the anti-rollback counter -/
  valid : Bool := false
  svn : Nat := 0
  verMajor : Nat := 0
  verMinor : Nat := 0
  /-- body followed by trailer -/
  image : List Byte := []
  deriving DecidableEq, Repr

/-- One kind's two banks and anti-rollback counter (17 R605-R607). -/
structure Banks where
  /-- active bank: 0-1; 17 R606; reset DESIGN CHOICE 0 (log 15) -/
  active : Nat := 0
  /-- the inactive bank is marked pending: 1 bit; 17 R606; reset 0 -/
  pending : Bool := false
  /-- the two banks; 17 R605; reset DESIGN CHOICE bank 0 valid with SVN 0 and version 1.0, bank 1 empty (log 15) -/
  banks : Tab Bank := [(0, { valid := true, verMajor := 1 })]
  /-- values written to the counter's one-time slots, newest first, at most 255; 17 R607; reset DESIGN CHOICE none written (log 15) -/
  slots : List Nat := []
  deriving DecidableEq, Repr

/-- A fence in force (17 R611-R613). -/
structure Fence where
  /-- 0 double claim, 1 lapse -/
  cause : Nat
  /-- holder at the fence -/
  former : Option Cp
  /-- failed self-test rounds -/
  rounds : Nat
  deriving DecidableEq, Repr

/-- Crucible's lifecycle, firmware store, lease and entropy. -/
structure DawnSt where
  /-- lifecycle fuse copy A: 8-bit code; 00 Table 0.4, 11 R438; reset DESIGN CHOICE 0x03 DEPLOYED (log 8) -/
  fuseA : Nat := 3
  /-- lifecycle fuse copy B: 8-bit code; 11 R438; reset DESIGN CHOICE 0x03 DEPLOYED (log 8) -/
  fuseB : Nat := 3
  /-- lifecycle code in force: 8 bits; 00 R13; reset DESIGN CHOICE 0x03 DEPLOYED (log 8) -/
  lifecycle : Nat := 3
  /-- armed transition: (target, challenge, stroke of completion); 11 R436; reset none -/
  armed : Option (Nat × Nat × Nat) := none
  /-- committed transition that takes effect at the next boundary: target; 11 R437; reset none -/
  transition : Option Nat := none
  /-- the quench of a committed transition has begun: 1 bit; 11 R437; reset 0 -/
  transiting : Bool := false
  /-- SERIAL: 64 bits, fused; 19 Table 19.7; reset DESIGN CHOICE 0 (log 16) -/
  serial : Nat := 0
  /-- DAWN_RESULT: 8 bits; 17 Table 17.3; reset 0x00 -/
  dawnResult : Nat := 0
  /-- DAWNS: 64 bits; 17 R623; reset 1 -/
  dawns : Nat := 1
  /-- FENCES: 64 bits; 17 R623; reset 0 -/
  fences : Nat := 0
  /-- command-processor firmware banks; 17 R605 -/
  fw : Banks := {}
  /-- rule-table banks; 17 R605 -/
  rule : Banks := {}
  /-- HOLDER of the lease; 17 R609; reset CP-A -/
  holder : Option Cp := some .a
  /-- LEASE_COUNTER: 64 bits; 17 R609; reset 1 (0 at standby power-on, one grant at Dawn) -/
  leaseCounter : Nat := 1
  /-- stroke number for which a renewal was accepted; 17 R610; reset DESIGN CHOICE stroke 0 (log 17) -/
  leaseFor : Nat := 0
  /-- the fence in force; 17 R611; reset none -/
  fence : Option Fence := none
  /-- ENTROPY_OK: 1 bit; 11 R409, 19 Table 19.9; reset 1 -/
  entropyOk : Bool := true
  /-- requests served by the CTR_DRBG since its last seed: count to 2^20; 11 R409; reset 0 -/
  drbgRequests : Nat := 0
  /-- reseeds of the CTR_DRBG (count); 11 R409; reset 0 -/
  reseeds : Nat := 0
  /-- the unique device secret, fused: 32 bytes, none of it before MANUFACTURE has drawn it; 11 R410; reset DESIGN CHOICE 32 zero
  bytes (log 118) -/
  uds : List Byte := List.replicate 32 0
  /-- the test access ports are disconnected by fuse: 1 bit; 00 R17; reset 1, as in DEPLOYED (log 8) -/
  jtagOff : Bool := true
  deriving DecidableEq, Repr

/-- One selective IDE stream (14 R525, R526). -/
structure IdeStream where
  /-- Stream ID, 8 bits -/
  id : Nat
  /-- functions covered: first and last, in the numbering pf 0, vf k is k + 1 -/
  first : Nat
  last : Nat
  /-- key sets programmed: 0 and 1 -/
  key0 : Bool := false
  key1 : Bool := false
  /-- active key set -/
  active : Option Nat := none
  secure : Bool := false
  deriving DecidableEq, Repr

/-- The HOST port (14_host_link.md). -/
structure HostSt where
  /-- the logical link is in L0: 1 bit; 14 R514; reset DESIGN CHOICE trained (log 18) -/
  up : Bool := true
  /-- link rate in GT/s: 16, 32 or 64; 14 R514; reset DESIGN CHOICE 64 (log 18) -/
  rate : Nat := 64
  /-- link width: 8 or 16; 14 R514; reset DESIGN CHOICE 16 (log 18) -/
  width : Nat := 16
  /-- VF Enable: 1 bit; 14 R517; reset 0 -/
  vfEnable : Bool := false
  /-- NumVFs: 16 bits, 0-64; 14 R517; reset 0 -/
  numVfs : Nat := 0
  /-- 65 selective IDE stream register blocks, by block; 14 R525; reset none programmed -/
  ide : Tab IdeStream := []
  /-- HOST transmitters lit: 1 bit; 17 Table 17.6; reset lit -/
  lit : Bool := true
  deriving DecidableEq, Repr

/-- STATE of a compartment (12 Table 12.6). -/
inductive CompSt where
  | absent
  | active
  | quenching
  | changing
  | destroying
  deriving DecidableEq, Repr

/-- Per-compartment counters, 64 bits each, saturating. -/
inductive Ctr where
  -- 02 Table 2.8
  | runStrokes | idleNs | lentNs | borrowedNs | guardCuts | fences
  -- 15 Table 15.9
  | shedCommands | deferredCommands
  -- 16 Table 16.12
  | traceRecords | traceOverflow
  -- 04 Table 4.15
  | elemsEncoded | elemsClipped | guardClipFires | guardRangeFires | nanConverted | nanTraps | int32Saturated | srElems
  -- 06 Table 6.13
  | hearthHits | hearthMisses | unwrittenReads | authFails | tilesSealed | tilesCoded | codedBytesSaved | pinRefused | slotWaits
  -- 05 Table 5.14
  | steps | feedStallCycles | epilogueExposedCycles | transposedSteps | scanChunks | k0Commands | routeDropped | routeNanLogits
  -- 10 Table 10.6
  | randCommands | randElems | randBlocks | maskOnes | maskZeros
  -- 08 Table 8.7
  | tokensAppended | pagesFlushed | pagesColdMoved | rowsAllMasked | blocksProcessed | bucketPadKeys | linmixChunks
  deriving DecidableEq, Repr

/-- A tile descriptor (06 Table 6.6) with what its stored form holds. -/
structure Tile where
  /-- the tile's contents; none while WRITTEN is 0 -/
  data : Option TileData := none
  /-- SLOT_ADDR, the device's choice (log 6) -/
  slot : Nat := 0
  /-- CODED_LEN, 0 when unwritten -/
  codedLen : Nat := 0
  /-- EPC -/
  coded : Bool := false
  /-- TIER -/
  tier : Nat := 0
  /-- PEER -/
  peer : Nat := 0
  /-- SEAL_COUNT and SEALER_ID of the last seal -/
  sealCount : Nat := 0
  sealer : Nat := 0
  /-- HEARTH_COPY: the stroke of the copy's last use -/
  copy : Option Nat := none
  /-- the copy is pinned (06 R233) -/
  pinned : Bool := false
  /-- PIN_REFUSED has counted this tile (06 R233) -/
  refused : Bool := false
  /-- the stored form in HBM does not authenticate any more (06 R225) -/
  spoilt : Bool := false
  deriving DecidableEq, Repr

/-- A tensor: its table header (06 Table 6.5) and its descriptors. -/
structure Tensor where
  /-- TENSOR_ID -/
  id : Nat
  /-- FORMAT_BYTE -/
  fmt : Nat
  axis : Nat
  home : Nat
  cache : Nat
  peer : Nat := 0
  /-- DOMAIN, where DOMAIN_VALID -/
  domain : Option Nat := none
  readOnly : Bool := false
  keyRef : Nat := 0
  rows : Nat
  cols : Nat
  batch : Nat := 1
  /-- descriptors by index; an unlisted one is unwritten -/
  tiles : Tab Tile := []
  /-- class whose command created it: 3, 5, 6 or 7 (06 R247) -/
  owner : Nat := 3
  /-- alias of a base tensor: (base slot, TENSOR_NO) (07 R267) -/
  base : Option (Nat × Nat) := none
  /-- admission order of the MEM.FREE that names it (06 R247) -/
  closing : Option Nat := none
  deriving DecidableEq, Repr

/-- A page of a buffer: its last seal (06 R220). -/
structure Page where
  slot : Nat := 0
  sealCount : Nat := 0
  sealer : Nat := 0
  deriving DecidableEq, Repr

/-- A buffer (06 R220). -/
structure Buffer where
  /-- identifier from the TENSOR_ID counter -/
  id : Nat
  /-- LENGTH in bytes -/
  len : Nat
  home : Nat
  /-- bytes by offset, in canonical form -/
  mem : Mem := []
  /-- lines written (LINE_MASK, or the Hearth mask), rising -/
  lines : Tab Unit := []
  /-- pages of HOME 1, by index -/
  pages : Tab Page := []
  owner : Nat := 3
  closing : Option Nat := none
  /-- route records committed and not written over since: offset, bytes, E, TOPK, T; 05 R203 -/
  routes : List (Nat × Nat × Nat × Nat × Nat) := []
  deriving DecidableEq, Repr

/-- A SCALE.HIST.SET that has not taken effect (04 R157): none releases the slot. -/
structure HistSet where
  slot : Nat
  order : Nat
  set : Option (Nat × Nat × Nat × Nat)
  deriving DecidableEq, Repr

/-- Memory configuration (06 R245). -/
structure MemCfg where
  strict : Bool := false
  sixteenths : Nat := 8
  deriving DecidableEq, Repr

/-- One layer of a stream (08 R307-R309). -/
structure KvLayer where
  /-- LENGTH -/
  len : Nat := 0
  /-- table address of the staging page -/
  stage : Nat
  /-- table addresses of the flushed pages held, by page index -/
  pages : Tab Nat := []
  deriving DecidableEq, Repr

/-- A stream context (08 R305). -/
structure StreamCtx where
  handle : Nat
  kvHeads : Nat
  fmt : Nat
  headDim : Nat
  ringPages : Nat
  stageHome : Nat
  coldHome : Nat
  hotPages : Nat
  /-- handle of the variant it is bound to, 0 for none -/
  variant : Nat
  layers : List KvLayer
  /-- admission order of its close -/
  closing : Option Nat := none
  deriving DecidableEq, Repr

/-- One adapted layer of a variant's set (07 R275). -/
structure LayerEntry where
  /-- TENSOR_NO of the base tensor -/
  layer : Nat
  rank : Nat
  /-- α, FP32 -/
  alpha : Nat
  /-- (TENSOR_NO, table address) of factors A and B and of the scale vector -/
  a : Nat × Nat
  b : Nat × Nat
  s : Option (Nat × Nat)
  deriving DecidableEq, Repr

/-- An adapter set of a variant (07, States and residency). -/
structure VarSet where
  /-- base slot it is bound to -/
  slot : Nat
  /-- version number, once it has been active -/
  version : Option Nat := none
  /-- image digest, 48 bytes -/
  digest : List Byte := []
  layers : List LayerEntry := []
  deriving DecidableEq, Repr

/-- A queued feedback record, as the tenant sealed it (09 R350, R351). -/
structure FbRecord where
  header : List Byte
  cipher : List Byte
  tag : List Byte
  deriving DecidableEq, Repr

/-- Hyperparameters (09 R368), FP32. -/
structure Hyper where
  from_ : Nat := 0
  lr : Nat := 0x38D1B717
  beta1 : Nat := 0x3F666666
  beta2 : Nat := 0x3F7FBE77
  eps : Nat := 0x322BCC77
  decay : Nat := 0
  clip : Nat := 0
  deriving DecidableEq, Repr

/-- One trainable tensor of a training state (09 R345, R346). -/
structure Trainable where
  no : Nat
  rows : Nat
  cols : Nat
  axis : Nat
  /-- WORKING_REF and GRAD_REF -/
  work : Nat
  grad : Nat
  /-- error term, master copy, moments: held as tensors of their own homes -/
  err : Tensor
  master : Tensor
  m1 : Tensor
  m2 : Tensor
  /-- pending updates: DELAY sets, that of update u in set u mod DELAY (09 R367) -/
  pend : List Tensor := []
  deriving DecidableEq, Repr

/-- What the training root holds (09 R358-R362, R372, R376). -/
structure TrainRoot where
  nextClose : Nat := 1
  gen : Nat := 0
  /-- contributions and markers held, with the stroke of arrival -/
  held : List (Nat × Contribution) := []
  /-- (replica, step) of every contribution and marker that arrived in this generation -/
  arrived : List (Nat × Nat) := []
  /-- e_root by trainable tensor, BF16 codes -/
  err : List (List TileData) := []
  lagged : List Nat := []
  /-- consecutive closed steps without an arrival, by replica -/
  missed : Tab Nat := []
  /-- digests reported: (shard, update, replica, digest) -/
  reports : List (Nat × Nat × Nat × List Byte) := []
  /-- agreed digest of each shard: (shard, update, digest) -/
  agreed : List (Nat × Nat × List Byte) := []
  /-- updates whose verdict is given; updates at or below the base get none -/
  judged : List Nat := []
  base : Nat := 0
  /-- update of the last agreed checkpoint -/
  ckpt : Nat := 0
  /-- REBUILDs for the next message: (update, shard, replica, source) -/
  rebuilds : List (Nat × Nat × Nat × Nat) := []
  /-- rejoins for the next message -/
  rejoins : List Nat := []
  /-- replicas that have joined, and their configuration digests not yet compared -/
  joined : List Nat := []
  /-- the configuration digest of the root (R378) -/
  digest : List Byte := []
  /-- messages closed and not yet broadcast -/
  outbox : List UpdMsg := []
  deriving DecidableEq, Repr

/-- One trainable tensor of a checkpoint: working copy, and the holder's master copy and moments, by descriptor index. -/
structure CkptPart where
  work : Tab Tile
  master : Tab Tile
  m1 : Tab Tile
  m2 : Tab Tile
  deriving DecidableEq, Repr

/-- A checkpoint (09 R375), by trainable tensor. -/
structure Ckpt where
  update : Nat
  parts : List CkptPart
  deriving DecidableEq, Repr

/-- A TRAIN.OPEN that waits for its group to form or for a rejoin (09 R376-R378). -/
structure TrainOpening where
  order : Nat
  /-- stroke of its first quantum -/
  start : Nat
  rejoin : Bool
  /-- configuration digest -/
  digest : List Byte
  /-- tables of the working copies and local gradients -/
  tables : List (Nat × Tensor)
  /-- map and result record: address and bytes -/
  records : List (Nat × List Byte)
  deriving DecidableEq, Repr

/-- A TRAIN.STEP that has sent its contribution (09 R356, R363). -/
structure Stepping where
  order : Nat
  step : Nat
  /-- stroke of its first quantum -/
  start : Nat
  /-- new error terms by trainable tensor -/
  err : List (List TileData)
  deriving DecidableEq, Repr

/-- A training state (09 R345-R349). -/
structure Train where
  target : Nat
  nearHome : Nat
  stateHome : Nat
  ckptHome : Nat
  peer : Nat
  replicas : Nat
  index : Nat
  copies : Nat
  shardRowTiles : Nat
  groupId : Nat
  collGroup : Nat
  delay : Nat
  closeStrokes : Nat
  srWork : Bool
  srMoments : Bool
  digestInterval : Nat
  ckptInterval : Nat
  seed : Nat
  streamBase : Nat
  tensors : List Trainable
  /-- base slot and layer entries of the target set -/
  slot : Nat
  layers : List LayerEntry
  /-- the TRAIN.OPEN that waits; none once the state is open -/
  opening : Option TrainOpening := none
  gen : Nat := 0
  nextStep : Nat := 1
  applied : Nat := 0
  /-- highest step for which a contribution or marker was sent -/
  sent : Nat := 0
  configs : List Hyper := []
  /-- messages held and not applied, with the stroke from whose plan phase each is held -/
  messages : List (Nat × UpdMsg) := []
  /-- the TRAIN.STEP that waits for its message -/
  stepping : Option Stepping := none
  /-- parts received and not installed -/
  received : List Parts := []
  ckpt : Option Ckpt := none
  ckptPending : Option Ckpt := none
  ckptAsked : Bool := false
  /-- digests to send with the next contribution -/
  digests : List (Nat × Nat × List Byte) := []
  lagged : Bool := false
  root : Option TrainRoot := none
  late : Nat := 0
  dropped : Nat := 0
  stale : Nat := 0
  duplicates : Nat := 0
  rebuilds : Nat := 0
  rollbacks : Nat := 0
  /-- UPDATE_SKIPPED -/
  skipped : Nat := 0
  ckptSkipped : Nat := 0
  deriving DecidableEq, Repr

/-- A forged copy (07 R289-R294). -/
structure Forge where
  /-- (TENSOR_NO of the base tensor, table address) -/
  copies : List (Nat × Nat)
  /-- stroke whose settle committed it -/
  since : Nat
  /-- admissions from this order bind to the side path (R294) -/
  endOrder : Option Nat := none
  /-- every layer is built, or only those served only forged (R276) -/
  all : Bool := true
  deriving DecidableEq, Repr

/-- A forge in progress: the stroke it started (07 R291). -/
structure ForgeWork where
  started : Nat
  /-- plan phases of deferral (15 R536) -/
  held : Nat := 0
  /-- every layer is built, or only those served only forged (R276) -/
  all : Bool
  /-- bytes reserved for it, 0 before a plan phase has reserved them (R290) -/
  bytes : Nat := 0
  /-- plan phases in which the reservation was not met (R290) -/
  waits : Nat := 0
  deriving DecidableEq, Repr

/-- A pending SWAP or CUTOVER (07 R296). -/
structure Switch where
  order : Nat
  cutover : Bool
  deriving DecidableEq, Repr

/-- A variant (07 R271-R282). -/
structure Variant where
  handle : Nat
  keyHandle : Nat
  baseSlot : Nat
  resident : Bool := false
  closing : Option Nat := none
  /-- MODE: 0 AUTO, 1 SIDE, 2 FORGED -/
  mode : Nat := 0
  active : Option VarSet := none
  shadow : Option VarSet := none
  successor : Option VarSet := none
  /-- highest version number so far -/
  version : Nat := 0
  switch : Option Switch := none
  forge : Option Forge := none
  forging : Option ForgeWork := none
  /-- forged copies that only commands bound earlier still use (R294) -/
  oldForges : List Forge := []
  /-- a forge of the layers served only forged was refused or failed since the last window's end (log 117) -/
  mustTried : Bool := false
  /-- first admission order after the settle of the last cutover (09 R380) -/
  cutTo : Nat := 0
  servedRows : Nat := 0
  lastRows : Nat := 0
  forges : Nat := 0
  forgeRefused : Nat := 0
  forgeFaults : Nat := 0
  switches : Nat := 0
  /-- the training queue (09 R350) -/
  queue : List FbRecord := []
  /-- last accepted RECORD_SEQ -/
  lastSeq : Nat := 0
  fbTaken : Nat := 0
  fbAccepted : Nat := 0
  /-- training states of TARGET 0 and TARGET 2 -/
  train0 : Option Train := none
  train2 : Option Train := none
  deriving DecidableEq, Repr

/-- Serving policy (07 R288). -/
structure Policy where
  cap : Nat := 4
  window : Nat := 4096
  hot : Nat := 1048576
  cold : Nat := 65536
  deriving DecidableEq, Repr

/-- STATE of a collective group (13 Table 13.10). -/
inductive GroupSt where
  | forming
  | formed
  | broken
  | resetting
  deriving DecidableEq, Repr

/-- A collective under way on this member (13 R501-R505). -/
structure CollRunning where
  order : Nat
  seq : Nat
  desc : CollDesc
  /-- stroke of the first quantum and TIMEOUT_STROKES -/
  start : Nat
  timeout : Nat
  /-- this member's part is complete: DST is held uncommitted -/
  done : Bool := false
  /-- rank 0 found every READY at the plan phase of stroke y -/
  readyAt : Option Nat := none
  /-- COMMIT held: x -/
  commitAt : Option Nat := none
  deriving DecidableEq, Repr

/-- A collective group of a compartment (13 R500). -/
structure CollGroup where
  handle : Nat
  /-- NODE_IDs in rank order -/
  members : List Nat
  rank : Nat
  st : GroupSt := .forming
  gen : Nat := 1
  /-- the COLL.GROUP that waits, and the stroke since which it does -/
  order : Option Nat := none
  since : Nat := 0
  /-- ranks whose creation or reset is known -/
  heard : List Nat := []
  /-- collectives issued since it formed or was reset -/
  issued : Nat := 0
  running : Option CollRunning := none
  /-- received by (COLL_SEQ, rank): tiles by descriptor index of the sender's SRC; at rank 0 descriptors and READYs -/
  data : List (Nat × Nat × List (Nat × TileData)) := []
  descs : List (Nat × Nat × CollDesc) := []
  ready : List (Nat × Nat) := []
  committed : Nat := 0
  abandoned : Nat := 0
  staleDropped : Nat := 0
  timeouts : Nat := 0
  deriving DecidableEq, Repr

/-- A span of a compartment (13 R495). -/
structure Span where
  id : Nat
  /-- (NODE_ID, compartment) in ascending NODE_ID -/
  members : List (Nat × Nat)
  /-- what each other member reported: node, same list, F, C, digest of its claim -/
  reports : List (Nat × Bool × Nat × Nat × List Byte) := []
  mismatched : Bool := false
  deriving DecidableEq, Repr

/-- A tensor of a base slot (07 Table 7.2, R264, R265): the image's shape, the part held, and its tiles by local index. -/
structure BaseTensor where
  fmt : Nat
  axis : Nat
  split : Nat
  rows : Nat
  cols : Nat
  localRows : Nat
  localCols : Nat
  /-- first row tile and first column tile of the part held -/
  row0 : Nat
  col0 : Nat
  tiles : List TileData
  deriving DecidableEq, Repr

/-- STATE of a base slot (07 R257). -/
inductive BaseSt where
  | empty
  | loading
  | ready
  | unloading
  deriving DecidableEq, Repr

/-- A base slot (07 R257-R261). -/
structure BaseSlot where
  st : BaseSt := .empty
  cellSize : Nat := 0
  cellPos : Nat := 0
  imageId : Nat := 0
  /-- handle of the BASE key named by its load (11 R435) -/
  key : Nat := 0
  /-- 48 bytes -/
  digest : List Byte := []
  /-- TENSOR_COUNT of the image -/
  count : Nat := 0
  tensors : List BaseTensor := []
  /-- header and manifest of the image of a load that has read them (R258) -/
  image : List Byte := []
  /-- table bytes and slots of the shard (R259) -/
  shardBytes : Nat := 0
  tilesTotal : Nat := 0
  tilesLoaded : Nat := 0
  /-- admission order of the BASE.LOAD or BASE.UNLOAD under way -/
  order : Option Nat := none
  deriving DecidableEq, Repr

/-- A tenant's claim (11 R417): the keys under which PQ_FINISH and requester signatures verify, and their digest. -/
structure Claim where
  ecdsa : List Byte
  mldsa : List Byte
  digest : List Byte
  deriving DecidableEq, Repr

/-- One generation of a key (11 R429-R431). -/
structure KeyGen where
  /-- generation number -/
  gen : Nat
  /-- the key: 32 bytes -/
  key : List Byte
  /-- invocation counter: the last count given, at most 2^40 -/
  count : Nat := 0
  /-- live tiles sealed under it -/
  live : Nat := 0
  deriving DecidableEq, Repr

/-- A key table entry, or a compartment key (11 R422-R435). -/
structure KeyEntry where
  /-- KIND: 0 compartment, 1 BASE, 2 VARIANT, 3 EXPORT -/
  kind : Nat
  keyId : Nat
  sealerBase : Nat
  rotate : Bool := false
  /-- admission order of its KEY.DESTROY, once admitted (R435) -/
  destroying : Option Nat := none
  /-- kept generations, ascending; the last is the newest -/
  gens : List KeyGen
  rotations : Nat := 0
  exhaustions : Nat := 0
  deriving DecidableEq, Repr

/-- One compartment (12_compartments_and_quench.md). -/
structure Comp where
  /-- STATE: 12 Table 12.6; reset ABSENT -/
  st : CompSt := .absent
  /-- EPOCH: 8 bits; 12 Table 12.2, R457; reset DESIGN CHOICE 0 at creation (log 19) -/
  epoch : Nat := 0
  /-- ended EPOCHs whose lines await zeroing; 12 R461, R462; reset none -/
  zeroing : List Nat := []
  /-- the Hearth row-clear is under way: 1 bit; 12 R460; reset 0 -/
  clearing : Bool := false
  /-- HEARTH_UNITS: 16 bits; 12 R447; reset 0 -/
  hearthUnits : Nat := 0
  /-- HBM_GIB: 16 bits; 12 R447; reset 0 -/
  hbmGib : Nat := 0
  /-- TAG_QUOTA: 16 bits; 12 R448; reset 0 -/
  tagQuota : Nat := 0
  /-- STREAM_QUOTA: 16 bits; 12 R448; reset 0 -/
  streamQuota : Nat := 0
  /-- DOMAIN_QUOTA: 32 bits; 12 R448; reset 0 -/
  domainQuota : Nat := 0
  /-- RESIDENT_QUOTA: 16 bits; 12 R448; reset 0 -/
  residentQuota : Nat := 0
  /-- KEY_QUOTA: 16 bits; 12 R448; reset 0 -/
  keyQuota : Nat := 0
  /-- TAG_BASE: 16 bits; 12 Table 12.6; reset 0 -/
  tagBase : Nat := 0
  /-- STREAM_BASE: 16 bits; 12 Table 12.6; reset 0 -/
  streamBase : Nat := 0
  /-- DOMAIN_BASE: 32 bits; 12 Table 12.6; reset 0 -/
  domainBase : Nat := 0
  /-- first key index of the range: 12 R448, 11 R424; reset 0 -/
  keyBase : Nat := 0
  /-- FAR_PENDING: the recorded host window (address, length); 12 R464; reset none -/
  farPending : Option (Nat × Nat) := none
  /-- UNKEYED: 1 bit; 12 R455; reset 0 -/
  unkeyed : Bool := false
  /-- TENANCY: 64 bits; 12 Table 12.6; reset DESIGN CHOICE 0 at creation (log 19) -/
  tenancy : Nat := 0
  /-- QUENCHES: 64 bits; 12 Table 12.6; reset 0 -/
  quenches : Nat := 0
  /-- LAST_QUENCH_STROKE: 64 bits; 12 Table 12.6; reset 0 -/
  lastQuench : Nat := 0
  /-- LINE_TAG_FAULTS: 64 bits; 12 Table 12.6; reset 0 -/
  lineTagFaults : Nat := 0
  /-- slice in force: F, C, FILL_MODE; 02 R42; reset 0, 0, CLOSED -/
  slice : Slice := {}
  /-- counters, 64 bits each; 02 Table 2.8 and the query records of the other chapters; reset 0 -/
  ctrs : List (Ctr × Nat) := []
  /-- 4,096 signal words of 64 bits; 02 R66; reset 0 -/
  words : Tab Nat := []
  /-- pinned streams, at most 16; 15 R562; reset none -/
  pins : List Nat := []
  /-- priority ring; 15 R562; reset none -/
  prioRing : Option Nat := none
  /-- POWER.PINs pending for the next boundary, oldest first: (ACTION, RING, STREAM); 15 R562; reset none -/
  pinsPending : List (Nat × Nat × Nat) := []
  /-- trace configuration in force; 16 R587; reset none -/
  trace : Option TraceCfg := none
  /-- TRACE.CONFIG pending for the next boundary (none inside: stop); 16 R593; reset none -/
  tracePending : Option (Option TraceCfg) := none
  /-- trace queue: at most 256 records; 16 R588; reset empty -/
  traceQueue : List TraceRec := []
  /-- the trace key ended: cause 1 key limit, 2 key destroyed, tracing ends at the next boundary; 16 R590; reset none -/
  traceEnd : Option Nat := none
  /-- numeric configuration in force; 04 R156; reset ZERO, on, 16, 4 -/
  num : NumCfg := {}
  /-- NUMERIC.CONFIG pending for the next boundary; 04 R157; reset none -/
  numPending : Option (Nat × NumCfg) := none
  /-- 4,096 scale-history slots, by number; 04 R145; reset all unset -/
  hist : Tab HistSlot := []
  /-- how often each slot was set or released; 04 R157; reset 0 -/
  histGen : Tab Nat := []
  /-- SCALE.HIST.SETs pending for the next boundary; 04 R157; reset none -/
  histPending : List HistSet := []
  /-- memory configuration in force; 06 R245; reset 0, 8 -/
  mem : MemCfg := {}
  /-- MEM.CONFIGs accepted and not in effect, oldest first, with their host window; 06 R245; reset none -/
  memPending : List (MemCfg × Option (Nat × Nat)) := []
  /-- tensors by device address of their tables: 48 bits; 06 R210, R216; reset none -/
  tensors : Tab Tensor := []
  /-- buffers by device address: 48 bits; 06 R210, R220; reset none -/
  buffers : Tab Buffer := []
  /-- next table address while the range has not been used to its end: 48 bits; 06 R211; reset 0x1000 -/
  tabNext : Nat := 0x1000
  /-- next buffer address while the range has not been used to its end: 48 bits; 06 R211; reset 0x0100_0000_0000 -/
  bufNext : Nat := 0x10000000000
  /-- TENSOR_ID counter: 64 bits; 06 R218; reset a free value drawn at creation and at tenant change (log 6) -/
  idNext : Nat := 0
  /-- CACHE hints pending for the next boundary: (table address, CACHE); 06 R248; reset none -/
  placePending : List (Nat × Nat) := []
  /-- open streams by handle; 08 R305; reset none -/
  streams : Tab StreamCtx := []
  /-- serving policy in force; 07 R288; reset 4, 4,096, 1,048,576, 65,536 -/
  policy : Policy := {}
  /-- SERVE.POLICY pending for the next boundary; 07 R288; reset none -/
  policyPending : Option Policy := none
  /-- domain indices: generations, freed order, in use; 07 R273; reset none used -/
  domIdx : IdxRange := {}
  /-- variants by INDEX; 07 R271-R282; reset none -/
  variants : Tab Variant := []
  /-- attachments: base slots and the alias tables of each, in TENSOR_NO order; 07 R267; reset none -/
  attached : Tab (List Nat) := []
  /-- collective groups by INDEX 0-63; 13 R500; reset none -/
  groups : Tab CollGroup := []
  /-- group indices: generations, freed order, in use; 13 R500; reset none used -/
  groupIdx : IdxRange := {}
  /-- the span the compartment belongs to; 13 R495; reset none -/
  span : Option Span := none
  /-- stored forms held for the tiles of peers: (owner node, owner compartment, EPOCH, TENSOR_ID, tile index), bytes; 13 R498; reset none -/
  peerHeld : List ((Nat × Nat × Nat × Nat × Nat) × List Byte) := []
  /-- host window: address and length, HOST_WIN_ADDR and HOST_WIN_LEN, 64 bits each; 06 R245; reset none -/
  hostWin : Option (Nat × Nat) := none
  /-- claim: ECDSA P-384 and ML-DSA-87 public keys and TENANT_KEY_DIGEST (48 bytes); 11 R417; reset unclaimed -/
  claim : Option Claim := none
  /-- key table, by key index of the compartment: at most KEY_QUOTA entries; 11 R424; reset empty -/
  keys : Tab KeyEntry := []
  /-- the compartment key, none while UNKEYED; 11 R422, 12 R455; reset none -/
  compKey : Option KeyEntry := none
  /-- the compartment Hearth key: 32 bytes, none while UNKEYED; 11 R422, 06 R222; reset none -/
  hearthKey : Option (List Byte) := none
  /-- stream handle indices: generations, freed order, in use; 03 R98-R100; reset none used -/
  streamIdx : IdxRange := {}
  /-- handles of streams that are closing; 03 R102; reset none -/
  closing : List Nat := []
  deriving DecidableEq, Repr

/-- A quench, tenant change or destruction that falls due (12 R463), narrowest first. -/
inductive QuenchKind where
  | quench
  | change
  | destroy
  deriving DecidableEq, Repr

/-- A due quench of one compartment (12 R457, R463). -/
structure QuenchDue where
  comp : Nat
  kind : QuenchKind
  /-- CAUSE of the QUENCHED notice: 0 operator, 1 tenant, 2 Nightwatch -/
  cause : Nat
  deriving DecidableEq, Repr

/-- Quenches due or under way on the device (12 R457-R468). -/
structure QuenchSt where
  /-- quenches due at the next boundary, held ones included; 12 R457, R462; reset none -/
  due : List QuenchDue := []
  /-- a device quench is due at the next boundary: 1 bit; 12 R468; reset 0 -/
  deviceDue : Bool := false
  /-- the device-wide Hearth clear is under way: 1 bit; 12 R468; reset 0 -/
  deviceClearing : Bool := false
  /-- the device-wide Hearth clear ended: compartments become ABSENT at the next boundary: 1 bit; 12 R468; reset 0 -/
  deviceCleared : Bool := false
  /-- HBM of ended compartments, of unloaded base regions and of the last Dawn that awaits zeroing: bytes by compartment, 64 the whole device,
  65 and 66 the regions of base slots 0 and 1; 07 R263, 12 R449, 15 R558; reset the whole device (17 R602) -/
  hbmAwaiting : List (Nat × Nat) := [(64, 384 * 2 ^ 30)]
  deriving DecidableEq, Repr

/-- A result that settle commits (02 R69): who issued it, when it was admitted, and what it does. -/
inductive Commit where
  /-- a compartment becomes ACTIVE, with the tag range of its function drawn anew (12 R450; 03 R100) -/
  | compActive (k : Nat) (x : Comp) (tags : IdxRange)
  /-- a tensor, its table and slots (06 R246) -/
  | tensorNew (k addr : Nat) (t : Tensor)
  /-- a buffer (06 R246) -/
  | bufferNew (k addr : Nat) (b : Buffer)
  /-- the release of a tensor or buffer (06 R247) -/
  | memFree (k addr : Nat)
  /-- tiles written by a command, by descriptor index (06 R227) -/
  | tileWrite (k addr : Nat) (tiles : List (Nat × Tile))
  /-- a placement is complete: HOME, CACHE, PEER (06 R248) -/
  | place (k addr home cache peer : Nat)
  /-- tiles that a placement, by its admission order, has moved to another home (06 R248) -/
  | placeMoves (k addr order home peer : Nat) (moves : List (Nat × Tile))
  /-- bytes written to a buffer at an offset, and the seals of its pages (06 R220) -/
  | bufWrite (k addr off : Nat) (bytes : List Byte) (pages : List (Nat × Page))
  /-- counters that increase for committed work -/
  | count (k : Nat) (l : List (Ctr × Nat))
  /-- a contribution to a scale-history slot (04 R146): slot, generation captured, largest magnitude, HIST_ADVANCE -/
  | hist (k slot gen amax : Nat) (advance : Bool)
  /-- a compartment's claim (11 R417) -/
  | claim (k : Nat) (c : Claim)
  /-- a delivered key (11 R427) -/
  | keyDeliver (index : Nat) (e : KeyEntry)
  /-- ROTATE of a VARIANT key (11 R443) -/
  | keyPolicy (k index : Nat) (rotate : Bool)
  /-- a new generation (11 R443) -/
  | keyRotate (k handle : Nat)
  /-- the erasure of a key (11 R435) -/
  | keyDestroy (handle : Nat)
  /-- a staged image: kind 1 firmware, 2 rule table (17 R620) -/
  | fwStage (kind : Nat) (b : Bank)
  /-- a stream's close (03 R102) -/
  | streamClose (k handle : Nat)
  /-- a new stream (08 R341) -/
  | streamOpen (k handle : Nat) (x : StreamCtx)
  /-- a layer after an append or a truncation (08 R311, R317): its length, pages added and pages freed -/
  | kvLayer (k handle layer len : Nat) (added : List (Nat × Nat)) (freed : List Nat)
  /-- tensors freed with an object of their class -/
  | freeAll (k : Nat) (addrs : List Nat)
  /-- alias tables of an attachment (07 R267) -/
  | attach (k slot : Nat) (tables : List (Nat × Tensor))
  /-- the end of an attachment (07 R268) -/
  | detach (k slot : Nat)
  /-- a base slot at the end of a load or an unload (07 R261, R263) -/
  | baseSlot (slot : Nat) (b : BaseSlot)
  /-- a variant registered (07 R278), replaced in one part, or closed -/
  | varNew (k index : Nat) (v : Variant)
  /-- a set loaded or published: TARGET, the set, its tensors (07 R279; 09 R379) -/
  | varSet (k index target : Nat) (x : VarSet) (ts : List (Nat × Tensor))
  /-- residency: the sets' tensors move (07 R280) -/
  | varReside (k index : Nat) (resident : Bool) (moves : List (Nat × Tensor))
  /-- MODE (07 R293) -/
  | varMode (k index mode : Nat)
  /-- an empty successor (07 R298) -/
  | varRebase (k index slot : Nat)
  /-- the close of a variant (07 R281) -/
  | varClose (k index : Nat)
  /-- SERVED_ROWS (07 R292) -/
  | varServed (k index rows : Nat)
  /-- feedback queued: records and the last RECORD_SEQ (09 R352) -/
  | fbQueue (k index : Nat) (l : List FbRecord) (seq : Nat)
  /-- feedback taken: number of records (09 R354) -/
  | fbTake (k index n : Nat)
  /-- a training state as a command leaves it; none frees it (09 R363, R382) -/
  | train (k index target : Nat) (x : Option Train)
  /-- a waiting configuration (09 R368) -/
  | trainCfg (k index target : Nat) (h : Hyper)
  /-- a checkpoint request (09 R375) -/
  | ckptAsk (k index target : Nat)
  /-- CONFIG_EPOCH grows by one (02 R47) -/
  | epochUp
  /-- a lending group is defined (02 R72) -/
  | lendGroup (g : Nat) (x : LendGroup)
  /-- a lending group dissolves at the next boundary (02 R72) -/
  | lendDissolve (g : Nat)
  /-- a member's consent, or its withdrawal (02 R73) -/
  | consent (g k : Nat) (x : Option Consent)
  /-- a cell is set or left (13 R497) -/
  | cellSet (x : Option (Nat × Nat × List Nat))
  /-- a route record stands at an offset of a buffer: bytes, E, TOPK, T (05 R203) -/
  | routeRecord (k addr off bytes e topk t : Nat)
  /-- the route of a destination (13 R484) -/
  | routeSet (dest mask : Nat)
  /-- a span is defined or dissolved (13 R495) -/
  | spanSet (k id : Nat) (x : Option Span)
  /-- the end of a collective group (13 R500) -/
  | groupFree (k index : Nat)
  /-- the stroke period from a target stroke on (02 R38) -/
  | strokeConfig (p : PendingConfig)
  /-- the layout of a run from a stroke on (02 R47) -/
  | sliceSet (p : PendingSlice)
  /-- the power cap and DEFER_LIMIT of the next boundary (15 R561) -/
  | powerSet (cap limit : Nat)
  /-- a pin, the end of one, or the priority ring: ACTION, RING, STREAM (15 R561) -/
  | powerPin (k action ring stream : Nat)
  /-- log budgets of the next boundary (16 R593) -/
  | logBudgets (b : Budgets)
  /-- the trace configuration of the next boundary; none ends tracing (16 R593) -/
  | traceSet (k : Nat) (t : Option TraceCfg)
  /-- alarm records are acknowledged, and the command's DETAIL counts them (16 R586, R594) -/
  | alarmAck (order first count stroke : Nat)
  /-- a quench, tenant change or destruction of the next boundary (12 R457, R466, R467) -/
  | quenchDue (q : QuenchDue)
  /-- a device quench of the next boundary (12 R468) -/
  | deviceDue
  /-- an armed lifecycle transition: target, challenge, stroke; or none armed (11 R436) -/
  | armed (x : Option (Nat × Nat × Nat))
  /-- the lifecycle transition that begins at the next boundary (11 R437) -/
  | transition (target : Nat)
  /-- inactive banks marked pending, and a restart at the next boundary (17 R621) -/
  | fwPending (kinds : List Nat) (restart : Bool)
  /-- rollback counters that rise to the SVN of the running image (17 R622) -/
  | fwRaise (kinds : List Nat)
  /-- NODE_ID and ALIGN_PRIORITY (13 R491) -/
  | linkConfig (node priority : Nat)
  /-- a port is disabled from a stroke on; ABORT or DRAIN (13 R490) -/
  | portDisable (p from_ : Nat) (abort : Bool)
  deriving DecidableEq, Repr

/-- A pending commit with its issuer and admission order. -/
structure PendingCommit where
  fn : Fn
  order : Nat
  what : Commit
  deriving DecidableEq, Repr

/-- Slot space that a planned command holds until it commits, fails or is aborted (06 R228): Hearth, HBM and host bytes. -/
structure Resv where
  order : Nat
  comp : Nat
  hearth : Nat
  hbm : Nat
  host : Nat
  deriving DecidableEq, Repr

/-- State of an optical port (13 Table 13.4). -/
inductive PortSt where
  | dark
  | probe
  | lock
  | identify
  | align
  | up
  deriving DecidableEq, Repr

/-- A message (13 Table 13.3) with its payload. -/
structure LinkMsg where
  vc : Nat
  dest : Nat
  src : Nat
  span : Nat
  type : Nat
  hops : Nat
  groupIndex : Nat
  gen : Nat
  msgId : Nat
  seqKey : Nat
  payload : List Byte
  deriving DecidableEq, Repr

/-- A DATA flit in the retry buffer: SEQ, VC, LAST, 240 payload bytes, times sent, and the message it belongs to. -/
structure Flit where
  seq : Nat
  vc : Nat
  last : Bool
  payload : List Byte
  sends : Nat
  msg : LinkMsg
  deriving DecidableEq, Repr

/-- One optical port (13 R474-R490). -/
structure Port where
  /-- STATE -/
  st : PortSt := .dark
  /-- active lanes, 0 before training -/
  width : Nat := 0
  /-- MAX_LANES of the last LINK.ENABLE -/
  maxLanes : Nat := 0
  /-- lanes that locked, in ascending order -/
  lanes : List Nat := []
  /-- peer's NODE_ID -/
  peer : Option Nat := none
  /-- LAST_DOWN -/
  lastDown : Nat := 0
  /-- DEPTH of this device through this port -/
  depth : Nat := 0
  /-- RTT_NS measured in ALIGN: a free value of at most 2,600 ns (R480) -/
  rttNs : Nat := 0
  keyEpoch : Nat := 0
  /-- first flit counter of the current key epoch -/
  epochStart : Nat := 0
  /-- the device is the initiator (R486) -/
  initiator : Bool := false
  /-- PRK of the current key epoch; none of it while the link has no keys -/
  prk : List Byte := []
  /-- PRK of the next key epoch and the counter at which it starts (R488) -/
  nextPrk : Option (Nat × List Byte) := none
  /-- flit counters of the two directions -/
  txCount : Nat := 0
  rxCount : Nat := 0
  /-- sender: segment bit, next SEQ, retry buffer (oldest first), resend position, draining -/
  txSeg : Bool := false
  txSeq : Nat := 0
  retry : List Flit := []
  resend : Option Nat := none
  draining : Bool := false
  /-- the next new DATA flit starts a segment (R480) -/
  newSeg : Bool := true
  /-- DATA flits waiting to be sent first -/
  outbox : List (Nat × Bool × List Byte × LinkMsg) := []
  /-- receiver: segment bit, last SEQ received in order, NAK, message parts by VC -/
  rxSeg : Bool := false
  rxSeq : Nat := 0xFFF
  nak : Bool := false
  partial_ : Tab (List Byte) := []
  /-- whole messages not yet delivered: VC and bytes, oldest first -/
  whole : List (Nat × List Byte) := []
  /-- credits: granted by the peer and spent, granted to the peer, by VC -/
  granted : Tab Nat := []
  spent : Tab Nat := []
  given : Tab Nat := []
  /-- the last flit sent -/
  sent : List Byte := []
  /-- PROBE bursts sent (count) -/
  probes : Nat := 0
  corrected : Nat := 0
  uncorrectable : Nat := 0
  corrupt : Nat := 0
  downs : Nat := 0
  /-- order of the LINK.ENABLE that waits, its stroke and TIMEOUT_MS -/
  order : Option Nat := none
  timeoutMs : Nat := 0
  /-- stroke at which ALIGN was entered -/
  alignSince : Nat := 0
  /-- disable under way (R490): stroke of a DRAIN or ABORT, and whether ABORT -/
  disable : Option (Nat × Bool) := none
  /-- last TIMING record received: t_tx of the peer and local receive time, ps -/
  timing : Option (Int × Int) := none
  /-- the last TIMING record sent (R493) -/
  timingSent : Option TimingRec := none
  /-- peer's DEPTH and offset (ps) of the last TIMING record, and whether it reaches the reference -/
  peerDepth : Option Nat := none
  peerOffset : Int := 0
  deriving DecidableEq, Repr

/-- A peer move under way (13 R498). -/
structure PeerMove where
  order : Nat
  comp : Nat
  /-- table address and TENSOR_ID -/
  tensor : Nat
  id : Nat
  tile : Nat
  since : Nat
  /-- the completion has arrived -/
  got : Bool := false
  /-- the stored form that a read's completion brought -/
  form : List Byte := []
  deriving DecidableEq, Repr

/-- The optical side: node, set, routes, cell and ports (13_optical_links.md). -/
structure LinkSt where
  /-- NODE_ID: 13 bits; 13 R491; reset unset -/
  node : Option Nat := none
  /-- ALIGN_PRIORITY: 8 bits; 13 R491; reset 0 -/
  priority : Nat := 0
  /-- incarnation: 64 bits, drawn at Dawn; 13 R481; reset DESIGN CHOICE 0 stands for the draw (log 6) -/
  incarnation : Nat := 0
  /-- the 16 ports; 13 R474; reset DARK -/
  ports : Tab Port := []
  /-- member list of the connected set; 13 R491; reset empty (standalone) -/
  members : List Member := []
  /-- REF_NODE: NODE_ID of the reference; 13 R492; reset none -/
  ref : Option Nat := none
  /-- the join that left the device standalone until Dawn: DETAIL 1 or 2; 13 R494; reset none -/
  refused : Option Nat := none
  /-- route table: 16-bit port mask by destination node; 13 R484; reset empty -/
  routes : Tab Nat := []
  /-- next port of each destination's rotation; 13 R484; reset 0 -/
  rotation : Tab Nat := []
  /-- cell: CELL_ID, position, NODE_IDs by position; 13 R497; reset none -/
  cell : Option (Nat × Nat × List Nat) := none
  /-- MSG_ID counters of the sender by (source node, span, VC); 13 R481; reset 0 -/
  sentIds : List ((Nat × Nat × Nat) × Nat) := []
  /-- last delivered MSG_ID of the receiver by (source node, span, VC); 13 R481; reset 0 -/
  gotIds : List ((Nat × Nat × Nat) × Nat) := []
  /-- messages delivered to landing areas and not yet consumed, oldest first; 13 R482; reset none -/
  landed : List LinkMsg := []
  /-- messages waiting for a route or the next run of their compartment; 13 R480, R490; reset none -/
  waiting : List LinkMsg := []
  /-- releases that wait for a route: (holder node, compartment, EPOCH ended); 13 R499; reset none -/
  releases : List (Nat × Nat × Nat) := []
  /-- peer moves under way; 13 R498; reset none -/
  moves : List PeerMove := []
  /-- ROUTE_DROPS: 64 bits; 13 Table 13.10; reset 0 -/
  routeDrops : Nat := 0
  deriving DecidableEq, Repr

/-- The whole state of the block. -/
structure State where
  /-- commands waiting, first in first out (the model's own queue); reset empty -/
  pending : List Instr := []
  /-- number of free values drawn so far (the model's own; DESIGN CHOICE 0, log 6) -/
  free : Nat := 0
  /-- host memory as each function's DMA space shows it, by function (pf 0, vf k is k + 1); 14 R520; reset nothing listed (log 4) -/
  hostMem : Tab Mem := []
  /-- strokes, slices and lending; 02_strokes.md -/
  stroke : StrokeSt := {}
  /-- function registers, rings and mailboxes, by function (pf 0, vf k is k + 1); 19_register_map.md -/
  fns : Tab FnState := []
  /-- admitted commands in admission order; 03 R83, R103; reset none -/
  queue : List Adm := []
  /-- replies to be written in the report phase; 03 R104; reset none -/
  replies : List Reply := []
  /-- result records to be written in the report phase; 02 R71; reset none -/
  records : List HostWrite := []
  /-- signal-word stores of this stroke not certainly visible yet; 02 R66; reset none -/
  wordStores : List WordStorePending := []
  /-- results to be committed at settle; 02 R65, R69; reset none -/
  commits : List PendingCommit := []
  /-- compartments 0-63; 12_compartments_and_quench.md; reset all ABSENT (17 R602) -/
  comps : Tab Comp := []
  /-- quenches; 12_compartments_and_quench.md -/
  quench : QuenchSt := {}
  /-- Nightwatch, logs and sideband; 16_nightwatch_and_logs.md -/
  watch : WatchSt := {}
  /-- power, lands and clocks; 15_power_states.md, 18_package_and_pins.md -/
  power : PowerSt := {}
  /-- lifecycle, firmware, lease, entropy; 17_dawn_reset_faults.md, 11_crucible_and_keys.md -/
  dawn : DawnSt := {}
  /-- the HOST port; 14_host_link.md -/
  host : HostSt := {}
  /-- reservations of slot space; 06 R228; reset none -/
  resv : List Resv := []
  /-- BASE keys, indices 0-3 of the physical function's key table; 11 R424; reset empty -/
  baseKeys : Tab KeyEntry := []
  /-- die transport keys, 32 bytes each: of the four compute dies and the two Bellows dies, none while the main domain is off; 11 R407;
  reset DESIGN CHOICE six keys of zero bytes, for the draws of the Dawn before (log 120) -/
  transport : List (List Byte) := []
  /-- base slots 0-1; 07 R257; reset EMPTY (17 R602) -/
  bases : Tab BaseSlot := []
  /-- optical links; 13_optical_links.md; reset every port DARK, NODE_ID unset -/
  link : LinkSt := {}
  /-- work of commands cut into quanta: carried accumulator tiles and held results; 02 R48-R50; reset none -/
  works : List Work := []
  /-- accumulator tiles of Anvils 0-639: two of 64 KiB each; 05 R162; reset empty -/
  anvils : Tab Anvil := []
  /-- Tongs 0-127 (32 on each compute die) with two buffers of 72 KiB each; 06 R223; reset unassigned, empty -/
  tongs : Tab Tong := []
  /-- fresh slots written and not committed yet: compartment, tier, address, bytes; 06 R227; reset none -/
  fresh : List (Nat × Nat × Nat × Nat) := []
  /-- operand tiles in engine-local SRAM; 05 R173, 06 R208; reset none -/
  sram : List SramTile := []
  /-- the quantum being worked on (the model's own; DESIGN CHOICE none, log 100) -/
  act : Act := {}
  deriving DecidableEq, Repr

/-- The block right after reset: the end of Dawn (17 R602), every register at the value the spec states or the log names. -/
def State.reset : State := { transport := List.replicate 6 (List.replicate 32 0) }

/-- No meaning stops with a fault: every failure the spec names is a status, an event or a change of state. The one
constructor is kept for a command outside what a well-formed sender sends. -/
inductive Fault where
  /-- Raised by no meaning of this model; safe. -/
  | none
  deriving DecidableEq, Repr

/-- Why a command has no meaning. -/
inductive Refusal where
  /-- Raised by an arm of exec whose command has no meaning yet; safe. -/
  | notModelled (mnemonic : String)
  deriving DecidableEq, Repr

end Sys2Proof.Machine
end

