-- ==== Sys2Proof/Machine/Ops.lean ====
section
/-! DEFINITION. The named operations over the state: functions and compartments, status codes, free values, events and the
alarm ring, replies, notices, result records, and the frame every packet command runs in. -/

namespace Sys2Proof.Machine

/-- Status codes (00 R11; 03 Table 3.7 and the classes' own codes). -/
inductive Status where
  | ok | okNote | badOpcode | badParam | notPermitted | staleGeneration | aborted | noResource | memUnwritten
  | keyExhausted | authFail | shed | replicaDiverged | deferred | staleDropped | depFailed | paramFetchFail
  -- 12 Table 12.10
  | lineTagFault | rangeFragmented
  -- 11 Table 11.15
  | keyAbsent | keyInUse | entropyFault
  -- 06 R251
  | tileCodingFault | hostWindowFault
  -- 05
  | nanTrapped
  -- 08
  | kvLengthMismatch | kvPageSealed
  -- 07
  | variantNotResident | variantBaseMismatch | variantNoShadow | baseInUse | imageFormat | imageReadFault | baseNotReady
  -- 09
  | trainNotOpen | trainNoSet | trainStepMismatch | feedbackFormat | feedbackReplay | trainTimeout | groupMismatch
  | replicaLagged | trainClosed | exportFormat
  -- 13
  | peerUnreachable | collMismatch | collNotAligned | collRunMismatch | joinRefused | linkPeerRejected | linkTrainTimeout
  | nodeConflict | collTimeout | collBroken
  -- 17 Table 17.12
  | fwImageInvalid | fwRollback | svnSlotsExhausted | fwReadFault
  deriving DecidableEq, Repr

/-- The 16-bit value of a status. -/
def Status.code : Status → Nat
  | .ok => 0x0000 | .okNote => 0x0001 | .badOpcode => 0x0010 | .badParam => 0x0011 | .notPermitted => 0x0012
  | .staleGeneration => 0x0013 | .aborted => 0x0014 | .noResource => 0x0015 | .memUnwritten => 0x0016
  | .keyExhausted => 0x0017 | .authFail => 0x0018 | .shed => 0x0019 | .replicaDiverged => 0x001A | .deferred => 0x001B
  | .staleDropped => 0x001C | .depFailed => 0x0020 | .paramFetchFail => 0x0021
  | .lineTagFault => 0x0110 | .rangeFragmented => 0x0111
  | .keyAbsent => 0x0210 | .keyInUse => 0x0211 | .entropyFault => 0x0212
  | .tileCodingFault => 0x0310 | .hostWindowFault => 0x0311 | .nanTrapped => 0x0410
  | .kvLengthMismatch => 0x0510 | .kvPageSealed => 0x0511
  | .variantNotResident => 0x0610 | .variantBaseMismatch => 0x0611 | .variantNoShadow => 0x0612 | .baseInUse => 0x0613
  | .imageFormat => 0x0614 | .imageReadFault => 0x0615 | .baseNotReady => 0x0616
  | .trainNotOpen => 0x0710 | .trainNoSet => 0x0711 | .trainStepMismatch => 0x0712 | .feedbackFormat => 0x0713
  | .feedbackReplay => 0x0714 | .trainTimeout => 0x0715 | .groupMismatch => 0x0716 | .replicaLagged => 0x0717
  | .trainClosed => 0x0718 | .exportFormat => 0x0719
  | .peerUnreachable => 0x0810 | .collMismatch => 0x0811 | .collNotAligned => 0x0812 | .collRunMismatch => 0x0813
  | .joinRefused => 0x0814 | .linkPeerRejected => 0x0815 | .linkTrainTimeout => 0x0816 | .nodeConflict => 0x0817
  | .collTimeout => 0x0818 | .collBroken => 0x0819
  | .fwImageInvalid => 0x0B10 | .fwRollback => 0x0B11 | .svnSlotsExhausted => 0x0B12 | .fwReadFault => 0x0B13

/-- A status code reports success exactly when its low byte lies in 0x00-0x0F (00 R11). -/
def succeeded (code : Nat) : Bool := code % 256 < 16

/-- DETAIL where no one field is at fault (05 R205). -/
def noField : Nat := 0xFFFFFFFF

/-! ### Functions and compartments -/

/-- Number of a function: the physical function 0, the virtual function of compartment `k` k + 1 (14 R517). -/
def fnKey : Fn → Nat
  | .pf => 0
  | .vf k => k + 1

/-- FUNCTION of FUNC_INFO and SCOPE of an event: the compartment, or 0x40 for the physical function (19 Table 19.2). -/
def fnCode : Fn → Nat
  | .pf => 64
  | .vf k => k

/-- SCOPE of an event of a function (16 Table 16.6). -/
def fnScope : Fn → Nat
  | .pf => 0x41
  | .vf k => k

/-- Every function in the order of intake: the physical function, then compartments 0-63 (03 R81). -/
def allFns : List Fn := .pf :: (upFrom 0 64).map .vf

/-- A function's state. -/
def State.fnOf (s : State) (f : Fn) : FnState := Tab.get {} s.fns (fnKey f)

/-- Replace a function's state. -/
def State.setFn (s : State) (f : Fn) (x : FnState) : State := { s with fns := Tab.set s.fns (fnKey f) x }

/-- Change a function's state. -/
def State.modFn (s : State) (f : Fn) (g : FnState → FnState) : State := s.setFn f (g (s.fnOf f))

/-- A compartment. -/
def State.comp (s : State) (k : Nat) : Comp := Tab.get {} s.comps k

/-- Replace a compartment. -/
def State.setComp (s : State) (k : Nat) (x : Comp) : State := { s with comps := Tab.set s.comps k x }

/-- Change a compartment. -/
def State.modComp (s : State) (k : Nat) (g : Comp → Comp) : State := s.setComp k (g (s.comp k))

/-- A compartment exists when it is not ABSENT (12 Table 12.6). -/
def State.exists_ (s : State) (k : Nat) : Bool := k < 64 && decide ((s.comp k).st ≠ .absent)

/-- A counter's value. -/
def ctrGet (l : List (Ctr × Nat)) (c : Ctr) : Nat :=
  match l with
  | [] => 0
  | (c', n) :: r => if c = c' then n else ctrGet r c

/-- Add to a saturating 64-bit counter. -/
def ctrAdd (l : List (Ctr × Nat)) (c : Ctr) (n : Nat) : List (Ctr × Nat) :=
  match l with
  | [] => [(c, sat64 0 n)]
  | (c', m) :: r => if c = c' then (c', sat64 m n) :: r else (c', m) :: ctrAdd r c n

/-- Add to a compartment's counter. -/
def State.bump (s : State) (k : Nat) (c : Ctr) (n : Nat) : State :=
  s.modComp k fun x => { x with ctrs := ctrAdd x.ctrs c n }

/-- Add to a function's ring counter `i` of Table 3.9. -/
def State.bumpRing (s : State) (f : Fn) (i n : Nat) : State :=
  s.modFn f fun x => { x with counters := Tab.modify 0 x.counters i (sat64 · n) }

/-! ### Free values -/

/-- Draw one free value (log 6). -/
def State.draw (s : State) : Nat × State := (Config.freeNat s.free, { s with free := s.free + 1 })

/-- Draw `n` bytes (log 6). -/
def State.drawBytes (s : State) (n : Nat) : List Byte × State := (Config.freeBytes s.free n, { s with free := s.free + 1 })

/-- One of several allowed values; where only one is allowed, that one (02 R66; log 6). -/
def State.pick (s : State) (l : List Nat) : Nat × State :=
  match l with
  | [] => (0, s)
  | [v] => (v, s)
  | _ => (l.getD (Config.freeNat s.free % l.length) 0, { s with free := s.free + 1 })

/-! ### Index ranges -/

/-- The first GENERATION of an index: a nonzero free value (03 R100). -/
def firstGen (seed i : Nat) : Nat := 1 + Config.freeNat (seed + i) % 65535

/-- The GENERATION after `g`: after 0xFFFF comes 0x0001 (03 R99). -/
def nextGen (g : Nat) : Nat := if g ≥ 0xFFFF then 1 else g + 1

/-- The GENERATION an index has now. -/
def IdxRange.gen (r : IdxRange) (i : Nat) : Nat := (Tab.find? r.gens i).getD (firstGen r.seed i)

/-- Assign the index freed least recently out of `base … base+quota-1`, with its next GENERATION (03 R99). -/
def IdxRange.assign (r : IdxRange) (base quota : Nat) : Option (Nat × Nat × IdxRange) :=
  let take (i : Nat) (r : IdxRange) :=
    let g := nextGen (r.gen i)
    some (i, g, { r with gens := Tab.set r.gens i g, used := r.used ++ [i] })
  if r.fresh < quota then take (base + r.fresh) { r with fresh := r.fresh + 1 }
  else match r.freed with
    | [] => none
    | i :: rest => take i { r with freed := rest }

/-- Free an index in use (03 R103). -/
def IdxRange.free (r : IdxRange) (i : Nat) : IdxRange :=
  if r.used.contains i then { r with used := r.used.filter (· ≠ i), freed := r.freed ++ [i] } else r

/-- A handle or tag: GENERATION in [31:16], INDEX below (03 R96). -/
def handleOf (gen index : Nat) : Nat := gen * 65536 + index

/-- A range set up anew: every index freed in ascending order, generations drawn anew (03 R99, R100). -/
def State.freshRange (s : State) : IdxRange × State :=
  ({ seed := s.free }, { s with free := s.free + 65536 })

/-- Tag range of a function: first index and size (03 R97). -/
def State.tagRange (s : State) : Fn → Nat × Nat
  | .pf => (0, 256)
  | .vf k => ((s.comp k).tagBase, (s.comp k).tagQuota)

/-- A stream handle is live: its index lies in the compartment's range and is in use, its GENERATION matches, and it is not
closing (03 R101, R102). -/
def State.streamLive (s : State) (k h : Nat) : Bool :=
  let x := s.comp k
  let i := h % 32768
  h / 32768 % 2 == 0 && x.streamIdx.used.contains i && x.streamIdx.gen i == h / 65536 && !x.closing.contains h

/-- Units assigned to no compartment (02 R42). -/
def State.unassigned (s : State) : Nat := 256 - (s.comps.map fun p => p.2.slice.count).foldl (· + ·) 0

/-! ### What a handle names -/

/-- An object that a close admitted before the command names is gone for it (06 R247; 03 R102). -/
def liveFor (closing : Option Nat) (c : Cmd) : Bool :=
  match closing with
  | none => true
  | some o => c.order ≤ o

/-- INDEX of a variant handle (07 R273). -/
def varIndex (h : Nat) : Nat := h % 65536

/-- A variant handle is live for a command (07 R273, R277). -/
def State.variantOf (s : State) (k h : Nat) (c : Cmd) : Option Variant :=
  let x := s.comp k
  let i := varIndex h
  if x.domIdx.used.contains i && x.domIdx.gen i == h / 65536 then
    match Tab.find? x.variants i with
    | some v => if liveFor v.closing c then some v else none
    | none => none
  else none

/-- The stream a handle names: in range, of its generation, not closing for the command, its variant not closing (03 R101,
R102; 08 R306). -/
def State.streamOf (s : State) (k h : Nat) (c : Cmd) : Option StreamCtx :=
  let x := s.comp k
  let i := h % 32768
  if h / 32768 % 2 == 0 && x.streamIdx.used.contains i && x.streamIdx.gen i == h / 65536 then
    match Tab.find? x.streams h with
    | some st =>
      if liveFor st.closing c && (st.variant == 0 || (s.variantOf k st.variant c).isSome) then some st else none
    | none => none
  else none

/-- The quantum of a planned command executes: the checks of its first quantum are behind it. -/
def State.executesPlan (s : State) : Bool := s.act.snap.isSome && !s.act.trial

/-! ### Tenant traces (16 R587, R588) -/

/-- A traced event joins its compartment's queue where bit `bit` of TRACE_MASK is set; beyond 256 records it counts in
TRACE_OVERFLOW. -/
def State.traceRec (s : State) (k bit : Nat) (e : TraceRec) : State :=
  match (s.comp k).trace with
  | none => s
  | some t =>
    if !bitOf t.mask bit then s
    else if 256 ≤ (s.comp k).traceQueue.length then s.bump k .traceOverflow 1
    else s.modComp k fun x => { x with traceQueue := x.traceQueue ++ [e] }

/-- TRACE_CODE of a traced kind: nonzero, 16 bits (16 R589; log 6). -/
def traceCode (kind : Nat) : Nat := 1 + Config.traceCode kind % 65535

/-- A traced event whose arguments the spec leaves open (log 6). -/
def State.traceKind (s : State) (k bit kind : Nat) : State :=
  let (a, s) := s.draw
  let (b, s) := s.draw
  s.traceRec k bit { code := traceCode kind, arg0 := a % 2 ^ 64, arg1 := b % 2 ^ 64 }

/-- The compartment's own faults, unwithheld (16 R587 bit 4). -/
def State.traceFault (s : State) (code scope arg0 arg1 : Nat) : State :=
  if [0x0130, 0x0140, 0x0141].contains code && scope < 64 then s.traceRec scope 4 { code, arg0, arg1 } else s

/-! ### Events -/

/-- STROKE of an event: the stroke number, or the 1 ms period count with bit 63 set when no stroke runs (16 Table 16.6). -/
def State.now (s : State) : Nat :=
  if s.power.main = .service then s.stroke.number else 2 ^ 63 + s.watch.periods

/-- An occurrence matches a held, unacknowledged general record (16 R584 step 1). -/
def alarmMatch (w : WatchSt) (e : Ev) : Option (Nat × AlarmRec) :=
  w.alarms.find? fun p => p.1 < 4032 && !p.2.acked && p.2.code == e.code && p.2.scope == e.scope && p.2.arg0 == e.arg0

/-- The next general slot after the newest record that is empty or ACKED (16 R584 step 2). -/
def alarmFree (w : WatchSt) : Option Nat :=
  ((upFrom 1 4032).map fun i => (w.newestSlot + i) % 4032).find? fun i =>
    match Tab.find? w.alarms i with
    | none => true
    | some r => r.acked

/-- A new alarm record of one occurrence. -/
def alarmNew (e : Ev) : AlarmRec :=
  { stroke := e.stroke, code := e.code, scope := e.scope, rep := 1, arg0 := e.arg0, arg1 := e.arg1, lastStroke := e.stroke,
    coalesced := false, merged := false, alert := e.alert, acked := false, hostSent := false, sbSent := false }

/-- REPEAT of an alarm record saturates (16 R584). -/
def satRep (n : Nat) : Nat := min (n + 1) 0xFFFFFFFF

/-- Place an ALARM occurrence in the alarm ring (16 R584). -/
def placeAlarm (w : WatchSt) (e : Ev) : WatchSt :=
  match alarmMatch w e with
  | some (i, r) =>
    let r := { r with rep := satRep r.rep, coalesced := true, lastStroke := e.stroke, hostSent := false, sbSent := false }
    { w with alarms := Tab.set w.alarms i r }
  | none =>
    match alarmFree w with
    | some i => { w with alarms := Tab.set w.alarms i (alarmNew e), newestSlot := i }
    | none =>
      let i := 4032 + (e.code - 0x80)
      match Tab.find? w.alarms i with
      | some r =>
        if r.acked then { w with alarms := Tab.set w.alarms i { alarmNew e with merged := true } }
        else
          let r := { r with rep := satRep r.rep, merged := true, arg0 := e.arg0, arg1 := e.arg1, lastStroke := e.stroke }
          { w with alarms := Tab.set w.alarms i { r with hostSent := false, sbSent := false } }
      | none => { w with alarms := Tab.set w.alarms i { alarmNew e with merged := true } }

/-- Raise an event: it is offered to the EVENT rules, joins this stroke's occurrences, and an ALARM is placed in the alarm
ring (16 R571, R578, R584). -/
def State.raiseAlert (s : State) (alert : Bool) (code : Nat) (cls : EvClass) (scope arg0 arg1 : Nat) : State :=
  let e : Ev := { code, cls, scope, arg0, arg1, stroke := s.now, alert }
  let w := if cls = .alarm then placeAlarm s.watch e else { s.watch with events := s.watch.events ++ [e] }
  ({ s with watch := { w with raised := w.raised ++ [e] } } : State).traceFault code scope arg0 arg1

/-- Raise an event that is not marked for ALERT_N by a rule. -/
def State.raise (s : State) (code : Nat) (cls : EvClass) (scope arg0 arg1 : Nat) : State :=
  s.raiseAlert false code cls scope arg0 arg1

/-! ### Interrupt status, notices, host writes -/

/-- An event sets bit `i` of a function's INT_STATUS (19 R660; 14 R519). -/
def State.setInt (s : State) (f : Fn) (i : Nat) : State :=
  s.modFn f fun x =>
    { x with
      intStatus := x.intStatus ||| 2 ^ i
      intEvents := x.intEvents ||| 2 ^ i
      statusDue := x.statusDue || !(bitOf x.intMask i) }

/-- CONFIG_ERROR of a function (19 Table 19.3). -/
def State.configError (s : State) (f : Fn) : State := s.setInt f 0

/-- Raise a notice: discarded unless the reply ring is ENABLED, otherwise held in place of one of its kind (03 R106). -/
def State.notice (s : State) (f : Fn) (n : Notice) : State :=
  s.modFn f fun x => if x.rq.st = .enabled then { x with notices := Tab.set x.notices n.kind n } else x

/-- Write bytes into a function's host memory. -/
def State.hostWrite (s : State) (f : Fn) (a : Nat) (b : List Byte) : State :=
  { s with hostMem := Tab.modify [] s.hostMem (fnKey f) fun m => Mem.writeBytes m a b }

/-- Read bytes of a function's host memory. -/
def State.hostRead (s : State) (f : Fn) (a n : Nat) : List Byte := Mem.readBytes (Tab.get [] s.hostMem (fnKey f)) a n

/-- A result record, written in the report phase of the completing stroke (02 R71). -/
def State.record (s : State) (f : Fn) (a : Nat) (b : List Byte) : State :=
  { s with records := s.records ++ [{ fn := f, addr := a, bytes := b }] }

/-- Leave a result for the settle phase (02 R69). -/
def State.commit (s : State) (c : Cmd) (w : Commit) : State :=
  { s with commits := s.commits ++ [{ fn := c.fn, order := c.order, what := w }] }

/-! ### The frame of a packet command -/

/-- A failed check: status and DETAIL. -/
structure Err where
  st : Status
  detail : Nat
  deriving DecidableEq, Repr

/-- A command's checks, in the order of its chapter. -/
abbrev Chk (α : Type) := Except Err α

/-- Require a condition, else complete with a status and DETAIL. -/
def need (b : Bool) (st : Status) (detail : Nat := 0) : Chk Unit := if b then .ok () else .error ⟨st, detail⟩

/-- Require a field at offset `off` to be within range, else BAD_PARAM with that DETAIL (05 R205). -/
def field (b : Bool) (off : Nat) : Chk Unit := need b .badParam off

/-- A block of the stated length, else BAD_PARAM with DETAIL 0xFFFF_FFFF (05 R205). -/
def blockLen (c : Cmd) (n : Nat) : Chk Unit := need (c.block.length == n) .badParam noField

/-- How a command's work ends: a status with DETAIL, or a wait that its own section names. -/
inductive Fin where
  | done (s : State) (st : Status) (detail : Nat)
  | wait (s : State)
  /-- not planned for want of slot space (06 R228) -/
  | space (s : State)
  /-- a quantum ended and work is left (02 R48) -/
  | part (s : State)

/-- The state that work leaves, whatever it ends in. -/
def Fin.state : Fin → State
  | .done s _ _ => s
  | .wait s => s
  | .space s => s
  | .part s => s

/-- The counters that a reply's status moves (03 Table 3.9; 15 Table 15.9), and LINK_OR_TDI by JOIN_REFUSED (19 Table 19.3). -/
def State.countStatus (s : State) (f : Fn) (st : Status) : State :=
  match st with
  | .depFailed => s.bumpRing f 4 1
  | .aborted => s.bumpRing f 5 1
  | .shed =>
    let s := { s with power := { s.power with shed := sat64 s.power.shed 1 } }
    match f with
    | .pf => s
    | .vf k => s.bump k .shedCommands 1
  | .deferred =>
    let s := { s with power := { s.power with deferred := sat64 s.power.deferred 1 } }
    match f with
    | .pf => s
    | .vf k => s.bump k .deferredCommands 1
  | .joinRefused => s.setInt f 3
  | _ => s

/-- A result that stays where its command fails or is aborted later: the tiles that a TENSOR.PLACE has moved (06 R248). -/
def Commit.stays : Commit → Bool
  | .placeMoves .. => true
  | _ => false

/-- A result of a command that is never aborted: a quench of any kind, a restart (12 R472; 17 R624). -/
def Commit.lasting : Commit → Bool
  | .quenchDue _ => true
  | .deviceDue => true
  | .fwPending _ restart => restart
  | _ => false

/-- Give up what a command that has not completed holds: its uncommitted results, its carried tiles, its slot space
(02 R50; 06 R228). -/
def State.dropHeld (s : State) (order : Nat) : State :=
  { s with
    commits := s.commits.filter fun p => p.order != order || p.what.stays
    works := s.works.filter fun w => w.order != order
    resv := s.resv.filter fun r => r.order != order }

/-- Complete an admitted command: it leaves the queue and its reply waits for the report phase (02 R46, 03 R103, R104). -/
def State.reply (s : State) (c : Cmd) (op : Nat) (st : Status) (detail : Nat) : State :=
  let s := s.countStatus c.fn st
  let s := if succeeded st.code then s else s.dropHeld c.order
  { s with
    queue := s.queue.filter fun a => decide (a.cmd ≠ c)
    sram := s.sram.filter fun t => t.order != c.order
    replies := s.replies ++ [{ cmd := c, op, status := st.code, detail, admitted := true, lost := false }] }

/-- Complete a command with no reply written: it counts in REPLIES_LOST (03 R80, R113). -/
def State.replyLost (s : State) (c : Cmd) (op : Nat) (st : Status) : State :=
  let s := (s.countStatus c.fn st).dropHeld c.order
  { s with
    queue := s.queue.filter fun a => decide (a.cmd ≠ c)
    sram := s.sram.filter fun t => t.order != c.order
    replies := s.replies ++ [{ cmd := c, op, status := st.code, detail := 0, admitted := true, lost := true }] }

/-- The entry of a command carried out on its own: no dependency, its block read, planned. -/
def admDirect (c : Cmd) (op : Nat) : Adm where
  cmd := c
  op := op
  deps := []
  requireOk := false
  ref := none
  fetched := true
  planned := true
  waiting := false
  heldStrokes := 0
  slotWait := 0
  drainEnd := none
  drainShed := false

/-- Keep a command admitted and waiting (03 R103). -/
def State.keep (s : State) (c : Cmd) (op : Nat) : State :=
  if s.queue.any fun a => decide (a.cmd = c) then
    { s with queue := s.queue.map fun a => if a.cmd = c then { a with waiting := true } else a }
  else
    { s with queue := s.queue ++ [{ admDirect c op with waiting := true }] }

/-- Keep a command that waits for slot space: one more stroke of waiting (06 R228). -/
def State.keepSpace (s : State) (c : Cmd) (op : Nat) : State :=
  let s := s.keep c op
  { s with queue := s.queue.map fun a => if a.cmd = c then { a with slotWait := a.slotWait + 1, planned := false } else a }

/-- Change an admitted command's entry. -/
def State.modAdm (s : State) (order : Nat) (g : Adm → Adm) : State :=
  { s with queue := s.queue.map fun a => if a.cmd.order = order then g a else a }

/-- The admitted command of an admission order. -/
def State.admOf (s : State) (order : Nat) : Option Adm := s.queue.find? fun a => a.cmd.order == order

/-- A command processor executes commands: the main domain is in service and the lease is held (01 R24; 17 R617). -/
def State.serving (s : State) : Bool := decide (s.power.main = .service) && s.dawn.holder.isSome

/-- A peer move of a command has no completion yet (13 R498). -/
def State.moveOpen (s : State) (order : Nat) : Bool := s.link.moves.any fun m => m.order == order && !m.got

end Sys2Proof.Machine
end

