-- ==== Sys2Proof/Machine/Opcodes.lean ====
section
/-! DEFINITION. The opcode table of the packet commands: who may issue each one, whether it is read-only, its block length
(02 Table 2.6 and the command tables of the other chapters), and the frame that every packet command runs in. -/

namespace Sys2Proof.Machine

/-- A row of the command tables: opcode, issued from the physical function, issued from a virtual function, read-only,
block length in bytes. -/
structure OpRow where
  op : Nat
  pf : Bool
  vf : Bool
  readOnly : Bool
  len : Nat
  deriving DecidableEq, Repr

/-- Commands of class 0x00. -/
def ops00 : List OpRow :=
  [ ⟨0x0001, true, true, true, 8⟩
  , ⟨0x0002, true, true, true, 8⟩
  , ⟨0x0003, true, false, false, 16⟩
  , ⟨0x0004, true, false, false, 8⟩
  , ⟨0x0005, true, true, true, 16⟩
  , ⟨0x0006, true, false, false, 16⟩
  , ⟨0x0007, false, true, false, 16⟩
  , ⟨0x0008, true, true, false, 8⟩
  , ⟨0x0009, false, true, false, 8⟩
  , ⟨0x000A, false, true, false, 16⟩
  , ⟨0x000B, false, true, false, 16⟩ ]

/-- Commands of class 0x01. -/
def ops01 : List OpRow :=
  [ ⟨0x0101, true, false, false, 32⟩
  , ⟨0x0102, true, false, false, 8⟩
  , ⟨0x0103, true, true, false, 8⟩
  , ⟨0x0104, true, false, false, 8⟩
  , ⟨0x0105, true, true, true, 16⟩
  , ⟨0x0106, false, true, false, 8⟩
  , ⟨0x0107, true, false, false, 8⟩ ]

/-- Commands of class 0x02. -/
def ops02 : List OpRow :=
  [ ⟨0x0201, true, true, true, 16⟩
  , ⟨0x0202, true, true, true, 48⟩
  , ⟨0x0203, true, true, true, 16⟩
  , ⟨0x0204, false, true, false, 2752⟩
  , ⟨0x0210, true, true, false, 128⟩
  , ⟨0x0211, true, true, true, 16⟩
  , ⟨0x0212, false, true, false, 8⟩
  , ⟨0x0213, false, true, false, 8⟩
  , ⟨0x0214, true, true, false, 8⟩ ]

/-- Commands of class 0x03. -/
def ops03 : List OpRow :=
  [ ⟨0x0301, false, true, false, 24⟩
  , ⟨0x0302, false, true, false, 32⟩
  , ⟨0x0303, false, true, false, 24⟩
  , ⟨0x0304, false, true, false, 8⟩
  , ⟨0x0305, false, true, true, 8⟩
  , ⟨0x0306, false, true, false, 16⟩
  , ⟨0x0307, false, true, false, 32⟩
  , ⟨0x0308, false, true, false, 32⟩ ]

/-- Commands of class 0x04. -/
def ops04 : List OpRow :=
  [ ⟨0x0401, false, true, false, 144⟩
  , ⟨0x0402, false, true, false, 160⟩
  , ⟨0x0403, false, true, false, 56⟩
  , ⟨0x0404, false, true, false, 32⟩
  , ⟨0x0405, false, true, false, 160⟩
  , ⟨0x0406, false, true, true, 8⟩
  , ⟨0x0440, false, true, false, 8⟩
  , ⟨0x0441, false, true, true, 8⟩
  , ⟨0x0442, false, true, false, 16⟩
  , ⟨0x0443, false, true, true, 16⟩ ]

/-- Commands of class 0x05. -/
def ops05 : List OpRow :=
  [ ⟨0x0501, false, true, false, 32⟩
  , ⟨0x0502, false, true, false, 8⟩
  , ⟨0x0503, false, true, true, 16⟩
  , ⟨0x0504, false, true, false, 40⟩
  , ⟨0x0505, false, true, false, 16⟩
  , ⟨0x0506, false, true, true, 8⟩
  , ⟨0x0510, false, true, false, 128⟩
  , ⟨0x0511, false, true, false, 128⟩
  , ⟨0x0512, false, true, false, 64⟩ ]

/-- Commands of class 0x06. -/
def ops06 : List OpRow :=
  [ ⟨0x0601, true, false, false, 32⟩
  , ⟨0x0602, true, false, false, 8⟩
  , ⟨0x0603, true, true, true, 16⟩
  , ⟨0x0604, false, true, false, 24⟩
  , ⟨0x0605, false, true, false, 8⟩
  , ⟨0x0606, true, false, false, 16⟩
  , ⟨0x0610, false, true, false, 16⟩
  , ⟨0x0611, false, true, false, 32⟩
  , ⟨0x0612, false, true, false, 8⟩
  , ⟨0x0613, false, true, false, 8⟩
  , ⟨0x0614, false, true, false, 8⟩
  , ⟨0x0615, false, true, false, 8⟩
  , ⟨0x0616, false, true, false, 8⟩
  , ⟨0x0617, false, true, false, 8⟩
  , ⟨0x0618, false, true, false, 8⟩
  , ⟨0x0619, false, true, true, 16⟩
  , ⟨0x0620, false, true, false, 160⟩ ]

/-- Commands of class 0x07. -/
def ops07 : List OpRow :=
  [ ⟨0x0701, false, true, false, 72⟩
  , ⟨0x0702, false, true, false, 8⟩
  , ⟨0x0703, false, true, false, 48⟩
  , ⟨0x0704, false, true, true, 16⟩
  , ⟨0x0710, false, true, false, 24⟩
  , ⟨0x0711, false, true, false, 32⟩
  , ⟨0x0720, false, true, false, 24⟩
  , ⟨0x0721, false, true, false, 8⟩
  , ⟨0x0722, false, true, false, 8⟩
  , ⟨0x0723, false, true, false, 32⟩
  , ⟨0x0724, false, true, false, 32⟩ ]

/-- Commands of class 0x08. -/
def ops08 : List OpRow :=
  [ ⟨0x0801, true, false, false, 8⟩
  , ⟨0x0802, true, false, false, 8⟩
  , ⟨0x0803, true, true, true, 16⟩
  , ⟨0x0804, true, false, false, 48⟩
  , ⟨0x0805, true, false, false, 8⟩
  , ⟨0x0806, true, false, false, 24⟩
  , ⟨0x0810, false, true, false, 32⟩
  , ⟨0x0811, false, true, false, 64⟩
  , ⟨0x0812, false, true, true, 16⟩ ]

/-- Commands of class 0x09. -/
def ops09 : List OpRow :=
  [ ⟨0x0901, false, true, false, 72⟩
  , ⟨0x0902, false, true, true, 8⟩ ]

/-- Commands of class 0x0A. -/
def ops0A : List OpRow :=
  [ ⟨0x0A01, true, false, false, 16⟩
  , ⟨0x0A02, true, true, true, 8⟩
  , ⟨0x0A03, false, true, false, 16⟩
  , ⟨0x0A10, true, false, true, 16⟩
  , ⟨0x0A11, true, false, false, 16⟩
  , ⟨0x0A12, false, true, false, 16⟩
  , ⟨0x0A13, true, false, true, 24⟩
  , ⟨0x0A14, true, false, false, 16⟩
  , ⟨0x0A15, true, true, true, 8⟩ ]

/-- Commands of class 0x0B. -/
def ops0B : List OpRow :=
  [ ⟨0x0B01, true, false, false, 32⟩
  , ⟨0x0B02, true, false, false, 16⟩
  , ⟨0x0B03, true, false, false, 8⟩
  , ⟨0x0B04, true, true, true, 8⟩
  , ⟨0x0B20, true, false, false, 16⟩ ]

/-- Every defined operation but the diagnostic classes (00 Table 0.3). -/
def opTable : List OpRow := ops00 ++ ops01 ++ ops02 ++ ops03 ++ ops04 ++ ops05 ++ ops06 ++ ops07 ++ ops08 ++ ops09 ++ ops0A ++ ops0B

/-- The row of an opcode. -/
def opRow (op : Nat) : Option OpRow := opTable.find? fun r => r.op == op

/-- An opcode of the diagnostic classes 0xF0-0xFF (00 Table 0.3). -/
def isDiagnostic (op : Nat) : Bool := op / 256 % 256 ≥ 0xF0

/-- The commands a RETIRED device accepts (00 R19, 11 R440). -/
def retiredAllows (r : OpRow) : Bool :=
  (r.op / 256 == 0 && r.readOnly)
    || [0x0201, 0x0202, 0x0203, 0x0A02, 0x0A10, 0x0A11, 0x0A12, 0x0A13, 0x0A14, 0x0A15, 0x0B04].contains r.op

/-- The commands an UNKEYED compartment's function may still issue (12 R455). -/
def unkeyedAllows (r : OpRow) : Bool :=
  (r.op / 256 == 0 && r.readOnly) || [0x0201, 0x0202, 0x0203, 0x0105].contains r.op

/-- Whether a function may issue a row's command. -/
def OpRow.issuable (r : OpRow) : Fn → Bool
  | .pf => r.pf
  | .vf _ => r.vf

/-- Check 4 of 03 Table 3.2: lifecycle and issuing function (00 R10, R19; the command's own table). -/
def permitted (lifecycle : Nat) (f : Fn) (r : OpRow) : Bool :=
  r.issuable f && (lifecycle != 4 || retiredAllows r)

/-- What stops a command before its own checks: permission, a compartment that does not exist and so has no tag
(03 R97), an UNKEYED compartment (12 R455). -/
def gate (op : Nat) (f : Fn) (s : State) : Option Status :=
  match opRow op with
  | none => some .badOpcode
  | some r =>
    if !permitted s.dawn.lifecycle f r then some .notPermitted
    else match f with
      | .pf => none
      | .vf k =>
        if !s.exists_ k then some .noResource
        else if (s.comp k).unkeyed && !unkeyedAllows r then some .entropyFault
        else none

/-- The commands that write host memory while they run: FAR.CLEAR, TENSOR.EXPORT, TRAIN.EXPORT (06 R249; 09 R384; 12 R464). -/
def movesHost (op : Nat) : Bool := [0x0106, 0x0308, 0x0723].contains op

/-- A stored form lies in its compartment's host window. -/
def State.inWindow (s : State) (w : Nat × Nat × List Byte) : Bool :=
  match (s.comp w.1).hostWin with
  | some (a, n) => a ≤ w.2.1 && w.2.1 + w.2.2.length ≤ a + n
  | none => false

/-- Host memory with stored forms written to host windows (06 R227). -/
def State.windowed (s : State) (m : Tab Mem) (l : List (Nat × Nat × List Byte)) : Tab Mem :=
  (l.filter s.inWindow).foldl (fun m w => Tab.modify [] m (fnKey (.vf w.1)) fun x => Mem.writeBytes x w.2.1 w.2.2) m

/-- Work outside a command is over: what it wrote to host windows stands there. -/
def State.flushWindow (s : State) : State := { s with hostMem := s.windowed s.hostMem s.act.writes, act := {} }

/-- What no packet command changes, whatever its work: the commands waiting, host memory but for exports and host windows, the HOST port, the
transport keys, the stroke in progress, the power state and its levels, the lease, the fence and the lifecycle in force. What
a command sets of these takes effect at a boundary (02 R37). -/
def State.framed (op : Nat) (s s' : State) : State :=
  { s' with
    pending := s.pending
    hostMem := s.windowed (if movesHost op then s'.hostMem else s.hostMem) s'.act.writes
    host := s.host
    transport := s.transport
    stroke :=
      { s'.stroke with
        number := s.stroke.number, phase := s.stroke.phase, period := s.stroke.period, burst := s.stroke.burst
        trim := s.stroke.trim, nextOrder := s.stroke.nextOrder, ran := s.stroke.ran, current := s.stroke.current, guard := s.stroke.guard
        usedNs := s.stroke.usedNs, borrower := s.stroke.borrower }
    act := {}
    power := { s.power with shed := s'.power.shed, deferred := s'.power.deferred }
    dawn :=
      { s'.dawn with
        holder := s.dawn.holder, leaseCounter := s.dawn.leaseCounter, leaseFor := s.dawn.leaseFor, fence := s.dawn.fence
        lifecycle := s.dawn.lifecycle, fuseA := s.dawn.fuseA, fuseB := s.dawn.fuseB, dawns := s.dawn.dawns, fences := s.dawn.fences } }

/-- Complete a command as its checks and work say; one whose quantum ended with work left stays as it is (02 R50). -/
def finishCmd (op : Nat) (c : Cmd) (s : State) (r : Chk Fin) : State :=
  match r with
  | .ok (.part s') => s.framed op s'
  | .error e => s.reply c op e.st e.detail
  | .ok (.done s' st d) => (s.framed op s').reply c op st d
  | .ok (.wait s') => (s.framed op s').keep c op
  | .ok (.space s') => (s.framed op s').keepSpace c op

/-- The frame of a packet command: nothing is executed while no command processor serves (01 R24; log 2); otherwise the
gate, then the command's own checks and work. -/
def runCmd (op : Nat) (c : Cmd) (s : State) (body : Chk Fin) : State :=
  if s.serving then
    match gate op c.fn s with
    | some st => s.reply c op st 0
    | none => finishCmd op c s body
  else s

/-- A command that ends at once with a status and no result. -/
def doneWith (s : State) (st : Status := .ok) (detail : Nat := 0) : Chk Fin := .ok (.done s st detail)

end Sys2Proof.Machine
end

