-- ==== Sys2Proof/Machine/Keys.lean ====
section
/-! DEFINITION. Keys: handles, key tables, invocation counters and generations (11 R422-R435). -/

namespace Sys2Proof.Machine

/-- The last count a generation can give: 2^40 (11 R429). -/
def sealLimit : Nat := 2 ^ 40

/-- KIND of a key handle (11 Table 11.7). -/
def keyHandleKind (h : Nat) : Nat := h / 8192

/-- INDEX of a key handle. -/
def keyHandleIndex (h : Nat) : Nat := h % 8192

/-- A key handle. -/
def keyHandle (kind index : Nat) : Nat := kind * 8192 + index

/-- Draw a compartment key: SEALER_BASE 0x10, ROTATE always set (11 R428, R432). -/
def State.drawCompKey (s : State) : KeyEntry × State :=
  let (b, s) := s.drawBytes 32
  ({ kind := 0, keyId := 0, sealerBase := 0x10, rotate := true, gens := [{ gen := 0, key := b }] }, s)

/-- Draw a compartment's key and Hearth key, or leave it UNKEYED while the entropy source is stopped (12 R455, 11 R422). The
Hearth key holds the two keys of XTS (06 R222; log 122). -/
def State.drawKeys (s : State) (k : Nat) : State :=
  if s.dawn.entropyOk then
    let (key, s) := s.drawCompKey
    let (h, s) := s.drawBytes 64
    s.modComp k fun x => { x with compKey := some key, hearthKey := some h, unkeyed := false }
  else s.modComp k fun x => { x with compKey := none, hearthKey := none, unkeyed := true }

/-- The key table of a function. -/
def State.keyTable (s : State) : Fn → Tab KeyEntry
  | .pf => s.baseKeys
  | .vf k => (s.comp k).keys

/-- Replace the key table of a function. -/
def State.setKeyTable (s : State) (f : Fn) (t : Tab KeyEntry) : State :=
  match f with
  | .pf => { s with baseKeys := t }
  | .vf k => s.modComp k fun x => { x with keys := t }

/-- The entry of a handle, live or being destroyed; handle 0 is the compartment key. -/
def State.keyEntry (s : State) (f : Fn) (h : Nat) : Option KeyEntry :=
  match f with
  | .pf => Tab.find? s.baseKeys (keyHandleIndex h) |>.filter fun e => e.kind == keyHandleKind h
  | .vf k =>
    if h = 0 then (s.comp k).compKey
    else Tab.find? (s.comp k).keys (keyHandleIndex h) |>.filter fun e => e.kind == keyHandleKind h

/-- A key lives for a command admitted before its destroy (11 R435). -/
def KeyEntry.liveFor (e : KeyEntry) (order : Nat) : Bool :=
  match e.destroying with
  | none => true
  | some d => order < d

/-- The live entry of a handle for a command: one being destroyed holds no live key (11 R435). -/
def State.liveKey (s : State) (c : Cmd) (h : Nat) : Option KeyEntry := (s.keyEntry c.fn h).filter fun e => e.liveFor c.order

/-- Replace the entry of a handle. -/
def State.setKey (s : State) (f : Fn) (h : Nat) (e : KeyEntry) : State :=
  match f with
  | .pf => { s with baseKeys := Tab.set s.baseKeys (keyHandleIndex h) e }
  | .vf k =>
    if h = 0 then s.modComp k fun x => { x with compKey := some e }
    else s.modComp k fun x => { x with keys := Tab.set x.keys (keyHandleIndex h) e }

/-- KIND allowed for the issuing function (11 R425). -/
def kindAllowed (f : Fn) (kind : Nat) : Bool :=
  match f with
  | .pf => kind == 1
  | .vf _ => kind == 0 || kind == 2 || kind == 3

/-- The checks of a key handle in a parameter block at offset `off` (11 R425). -/
def State.checkKey (s : State) (c : Cmd) (h off : Nat) : Chk KeyEntry := do
  let kind := keyHandleKind h
  field (kind ≤ 3 && (kind != 0 || h == 0)) off
  need (kindAllowed c.fn kind) .notPermitted
  match s.liveKey c h with
  | some e => .ok e
  | none => .error ⟨.keyAbsent, 0⟩

/-- An EXPORT key is live (16 R587). -/
def Comp.exportKeyLive (x : Comp) (h order : Nat) : Bool :=
  keyHandleKind h == 3 &&
    match Tab.find? x.keys (keyHandleIndex h) with
    | some e => e.kind == 3 && e.liveFor order
    | none => false

/-- The newest generation of a key. -/
def KeyEntry.newest (e : KeyEntry) : KeyGen := e.gens.getLastD { gen := 0, key := [] }

/-- SEALER_ID of a generation (11 R430). -/
def KeyEntry.sealerId (e : KeyEntry) (g : Nat) : Nat := if g = 0 then e.sealerBase else e.sealerBase + 1 + (g - 1) % 15

/-- The generation whose SEALER_ID a stored tile carries (11 R430). -/
def KeyEntry.genOf (e : KeyEntry) (sealer : Nat) : Option KeyGen := e.gens.find? fun g => e.sealerId g.gen == sealer

/-- Three later generations are kept and the oldest of them has live tiles (11 R431). -/
def KeyEntry.full (e : KeyEntry) : Bool :=
  let later := e.gens.filter fun g => g.gen != 0
  later.length ≥ 3 && (later.headD { gen := 0, key := [] }).live > 0

/-- A generation other than 0 or the newest is dropped once it has no live tile (11 R431). -/
def KeyEntry.dropGens (e : KeyEntry) : KeyEntry :=
  let n := e.newest.gen
  { e with gens := e.gens.filter fun g => g.gen == 0 || g.gen == n || g.live > 0 }

/-- The key of generation g + 1 of a VARIANT key (11 R430). -/
def nextVariantKey (e : KeyEntry) : List Byte :=
  let g := e.newest
  hkdf384 (List.replicate 48 0) g.key (ascii "KDW-D4 rotate v1" ++ leBytes e.sealerBase 4 ++ leBytes (g.gen + 1) 4) 32

/-- KEY_LOW (kind 2) or KEY_ROTATED (kind 3) to a compartment (11 R433). -/
def keyNotice (kind : Nat) (s : State) (h gen : Nat) : Notice :=
  { kind := kind, stroke := s.stroke.number, lo := leBytes h 2 ++ leBytes (gen % 256) 1 ++ [0], hi := padTo 6 [] }

/-- Create generation g + 1 of a compartment's key, or say why not (11 R430, R431, R443): the outcome is the state and
whether the entropy source is the cause of a refusal. -/
def State.newGeneration (s : State) (k h : Nat) : Except Bool State :=
  match s.keyEntry (.vf k) h with
  | none => .error false
  | some e =>
    if e.kind = 0 ∧ !s.dawn.entropyOk then .error true
    else if e.full then .error false
    else
      let (b, s) := if e.kind = 0 then s.drawBytes 32 else (nextVariantKey e, s)
      let g : KeyGen := { gen := e.newest.gen + 1, key := b }
      let e := { e with gens := e.gens ++ [g], rotations := sat64 e.rotations 1 }.dropGens
      .ok ((s.setKey (.vf k) h e).notice (.vf k) (keyNotice 3 s h g.gen))

/-- What a seal used: generation, SEALER_ID and count. -/
structure Seal where
  gen : Nat
  sealer : Nat
  count : Nat
  deriving DecidableEq, Repr

/-- Take the next count of the newest generation (11 R429, R433). -/
def State.takeCount (s : State) (k h : Nat) (e : KeyEntry) : State × Seal :=
  let g := e.newest
  let n := g.count + 1
  let e' := { e with gens := e.gens.map fun x => if x.gen = g.gen then { x with count := n } else x }
  let s := s.setKey (.vf k) h e'
  let s := if n = 15 * 2 ^ 36 + 1 then s.notice (.vf k) (keyNotice 2 s h g.gen) else s
  (s, { gen := g.gen, sealer := e.sealerId g.gen, count := n })

/-- A seal that fails counts in EXHAUSTIONS of its key (11 R444). -/
def State.exhausted (s : State) (k h : Nat) : State :=
  match s.keyEntry (.vf k) h with
  | some e => s.setKey (.vf k) h { e with exhaustions := sat64 e.exhaustions 1 }
  | none => s

/-- One seal under a key of a compartment (11 R429, R431): the seal, or a failure with its DETAIL. -/
def State.seal (s : State) (k h : Nat) : State × Except Nat Seal :=
  match s.keyEntry (.vf k) h with
  | none => (s, .error 0)
  | some e =>
    if e.newest.count < sealLimit then
      let (s, x) := s.takeCount k h e
      (s, .ok x)
    else if !e.rotate then (s.exhausted k h, .error 0)
    else
      match s.newGeneration k h with
      | .error entropy => (s.exhausted k h, .error (if entropy then 0x0212 else 0))
      | .ok s =>
        match s.keyEntry (.vf k) h with
        | none => (s, .error 0)
        | some e =>
          let (s, x) := s.takeCount k h e
          (s, .ok x)

/-- `n` seals under a key, in order; the first that fails ends the command (11 R434). -/
def State.seals (s : State) (k h : Nat) : Nat → State × Except Nat (List Seal)
  | 0 => (s, .ok [])
  | n + 1 =>
    match s.seal k h with
    | (s, .error d) => (s, .error d)
    | (s, .ok x) =>
      match s.seals k h n with
      | (s, .error d) => (s, .error d)
      | (s, .ok l) => (s, .ok (x :: l))

/-- Change the live-tile count of a generation, found by SEALER_ID (11 R431). -/
def State.liveTile (s : State) (k h sealer : Nat) (f : Nat → Nat) : State :=
  match s.keyEntry (.vf k) h with
  | none => s
  | some e =>
    let e := { e with gens := e.gens.map fun g => if e.sealerId g.gen = sealer then { g with live := f g.live } else g }
    s.setKey (.vf k) h e

/-- At settle every generation that its last tile has left is dropped (11 R431). -/
def Comp.dropGens (x : Comp) : Comp :=
  { x with keys := x.keys.map fun p => (p.1, p.2.dropGens), compKey := x.compKey.map KeyEntry.dropGens }

end Sys2Proof.Machine
end

