-- ==== Sys2Proof/Machine/StrokeCmds.lean ====
section
/-! DEFINITION. The commands of class 0x00: strokes, slices, lending and signal words (02_strokes.md R38-R42, R47, R52-R76). -/

namespace Sys2Proof.Machine

/-- The outcome of a meaning. -/
abbrev Out := Host.Outcome State Fault Refusal

/-- RESULT_ADDR is 64-byte aligned (02 R70). -/
def aligned64 (a : Nat) : Bool := a % 64 == 0

/-- CLOCK_POLICY and other one-bit fields as numbers. -/
def bitNum (b : Bool) : Nat := if b then 1 else 0

/-- ALIGN_STATE (02 Table 2.8). -/
def AlignSt.code : AlignSt → Nat
  | .standalone => 0
  | .aligned => 1
  | .unaligned => 2

/-- The bank of a kind that is active. -/
def Banks.activeBank (b : Banks) : Bank := Tab.get {} b.banks b.active

/-- The other bank. -/
def Banks.inactiveBank (b : Banks) : Bank := Tab.get {} b.banks (1 - b.active)

/-- DEVICE.QUERY (02 Table 2.7, Table 2.8; 00 R2). -/
def opDeviceQuery (c : Cmd) (s : State) : Chk Fin := do
  need (c.block.length == 8) .badParam
  need (aligned64 (u64 c.block 0)) .badParam
  let fw := s.dawn.fw.activeBank
  doneWith (s.record c.fn (u64 c.block 0)
    (layout 64 [(0, 2, 0x00B1), (2, 2, fw.verMajor), (4, 2, fw.verMinor), (6, 2, s.watch.table.format), (8, 1, s.dawn.lifecycle)]))

/-- STROKE.QUERY (02 Table 2.8). -/
def opStrokeQuery (c : Cmd) (s : State) : Chk Fin := do
  need (c.block.length == 8) .badParam
  need (aligned64 (u64 c.block 0)) .badParam
  let t := s.stroke
  let p := t.pending.getD { target := 0, period := 0, burst := false }
  doneWith (s.record c.fn (u64 c.block 0)
    (layout 64 [(0, 8, t.number), (8, 2, t.period), (10, 1, bitNum t.burst), (11, 1, t.align.code),
      (12, 4, twos 32 t.alignOffset), (16, 8, t.configEpoch), (24, 8, p.target), (32, 2, p.period), (34, 1, bitNum p.burst)]))

/-- STROKE.CONFIG (02 R38, R39, R41). -/
def opStrokeConfig (c : Cmd) (s : State) : Chk Fin := do
  let b := c.block
  need (b.length == 16) .badParam
  let target := u64 b 0
  let period := u16 b 8
  need (s.stroke.number + 4 ≤ target && target ≤ s.stroke.number + 65536) .badParam
  need (10 ≤ period && period ≤ 100) .badParam
  need (u8 b 10 ≤ 1) .badParam
  need (zeroAt b 11 5) .badParam
  doneWith (s.commit c (.strokeConfig { target, period, burst := u8 b 10 == 1 }))

/-- Every accepted SLICE.SET that has not taken effect, in order: those of this stroke that settle will take come last. -/
def State.slicesDue (s : State) : List PendingSlice :=
  s.stroke.slices ++ s.commits.filterMap fun c => match c.what with
    | .sliceSet p => some p
    | _ => none

/-- The slice of a compartment in the layout with every accepted SLICE.SET applied (02 R42). -/
def State.layoutSlice (s : State) (k : Nat) : Slice :=
  (s.slicesDue.filter (·.comp == k)).foldl (fun _ p => p.slice) (s.comp k).slice

/-- Two runs share a unit (02 R42). -/
def runsOverlap (a b : Slice) : Bool :=
  a.count > 0 && b.count > 0 && a.first < b.first + b.count && b.first < a.first + a.count

/-- Add one to CONFIG_EPOCH (02 R47). -/
def State.configChanged (s : State) : State :=
  { s with stroke := { s.stroke with configEpoch := s.stroke.configEpoch + 1 } }

/-- The slice notice, kind 1 (03 R106). -/
def sliceNotice (sl : Slice) (from_ : Nat) : Notice :=
  { kind := 1, stroke := from_, lo := leBytes sl.first 2 ++ leBytes sl.count 2, hi := padTo 6 (leBytes (bitNum sl.openFill) 1) }

/-- SLICE.SET (02 R42, R47). -/
def opSliceSet (c : Cmd) (s : State) : Chk Fin := do
  let b := c.block
  need (b.length == 8) .badParam
  let k := u8 b 0
  let sl : Slice := { first := u16 b 2, count := u16 b 4, openFill := u8 b 1 == 1 }
  need (k < 64) .badParam
  need (u8 b 1 ≤ 1) .badParam
  need (sl.first ≤ 255) .badParam
  need (sl.count == 0 || (4 ≤ sl.count && sl.count ≤ 256)) .badParam
  need (zeroAt b 6 2) .badParam
  need (sl.first + sl.count ≤ 256) .badParam
  need (s.exists_ k) .badParam
  need (((upFrom 0 64).filter fun j => j != k && s.exists_ j).all fun j => !runsOverlap sl (s.layoutSlice j)) .badParam
  doneWith ((s.commit c (.sliceSet { comp := k, slice := sl, effective := s.stroke.number + 2 })).commit c .epochUp)

/-- A SLICE.SET settles: its layout is pending, and the compartment is told (02 R47). -/
def State.commitSlice (s : State) (p : PendingSlice) : State :=
  ({ s with stroke := { s.stroke with slices := s.stroke.slices ++ [p] } } : State).notice (.vf p.comp) (sliceNotice p.slice p.effective)

/-- The lending group a compartment belongs to (02 R54). -/
def State.groupOf (s : State) (k : Nat) : Option (Nat × LendGroup) := s.stroke.groups.find? fun p => bitOf p.2.members k

/-- A virtual function may name only its own compartment (02 R70, 12 R470). -/
def mayName (f : Fn) (k : Nat) : Bool :=
  match f with
  | .pf => true
  | .vf j => j == k

/-- SLICE.QUERY (02 R58, R70, Table 2.8). -/
def opSliceQuery (c : Cmd) (s : State) : Chk Fin := do
  let b := c.block
  need (b.length == 16) .badParam
  let k := u8 b 0
  need (mayName c.fn k) .notPermitted
  need (k < 64) .badParam
  need (zeroAt b 1 7) .badParam
  need (aligned64 (u64 b 8)) .badParam
  let x := s.comp k
  let sl : Slice := if s.exists_ k then x.slice else {}
  let g := if s.exists_ k then s.groupOf k else none
  let gid := match g with
    | some p => p.1
    | none => 0xFF
  let act := match g with
    | some p => p.2.active
    | none => false
  let n (t : Ctr) := match c.fn with
    | .pf => 0
    | .vf _ => ctrGet x.ctrs t
  doneWith (s.record c.fn (u64 b 8)
    (layout 64 [(0, 2, sl.first), (2, 2, sl.count), (4, 1, bitNum sl.openFill), (5, 1, gid), (6, 1, bitNum act),
      (8, 8, s.stroke.configEpoch), (16, 8, n .runStrokes), (24, 8, n .idleNs), (32, 8, n .lentNs), (40, 8, n .borrowedNs),
      (48, 8, n .guardCuts), (56, 8, n .fences)]))

/-- Replace a lending group. -/
def State.setGroup (s : State) (g : Nat) (x : LendGroup) : State :=
  { s with stroke := { s.stroke with groups := Tab.set s.stroke.groups g x } }

/-- A group dissolves at the next stroke boundary (02 R72). -/
def State.dissolveGroup (s : State) (g : Nat) : State :=
  match Tab.find? s.stroke.groups g with
  | some x => s.setGroup g { x with dissolving := true }
  | none => s

/-- A member's consent is granted, in place of an earlier one, or withdrawn (02 R73). -/
def State.setConsent (s : State) (g k : Nat) (x : Option Consent) : State :=
  match Tab.find? s.stroke.groups g with
  | some y => s.setGroup g { y with consents := (y.consents.filter fun z => z.comp != k) ++ x.toList }
  | none => s

/-- The groups that a LEND.GROUP sees: those defined, and those that LEND.GROUPs admitted earlier in the stroke define (02 R72). -/
def State.groupsSeen (s : State) : Tab LendGroup :=
  s.commits.foldl (fun t p => match p.what with
    | .lendGroup g x => Tab.set t g x
    | _ => t) s.stroke.groups

/-- LEND.GROUP (02 R54, R72). -/
def opLendGroup (c : Cmd) (s : State) : Chk Fin := do
  let b := c.block
  need (b.length == 16) .badParam
  let g := u8 b 0
  let members := u64 b 8
  need (g ≤ 15) .badParam
  need (u8 b 1 ≤ 1) .badParam
  need (zeroAt b 2 6) .badParam
  if u8 b 1 == 0 then
    need (2 ≤ popCount members 64) .badParam
    need ((bitList members 64).all fun k => s.exists_ k) .badParam
    need ((bitList members 64).all fun k => !s.groupsSeen.any fun p => bitOf p.2.members k) .badParam
    need (Tab.find? s.groupsSeen g).isNone .badParam
    doneWith ((s.commit c (.lendGroup g { members, consents := [], active := false, dissolving := false })).commit c .epochUp)
  else
    match Tab.find? s.groupsSeen g with
    | none => .error ⟨.badParam, 0⟩
    | some _ => doneWith ((s.commit c (.lendDissolve g)).commit c .epochUp)

/-- An established session of a function, by identifier. -/
def State.session (s : State) (f : Fn) (id : Nat) : Option Session :=
  (s.fnOf f).sessions.find? fun x => x.id == id && x.established

/-- LEND.CONSENT (02 R55, R56, R73). -/
def opLendConsent (c : Cmd) (s : State) : Chk Fin := do
  let b := c.block
  need (b.length == 16) .badParam
  need (u8 b 0 ≤ 15) .badParam
  need (u8 b 1 ≤ 1) .badParam
  need (zeroAt b 2 2) .badParam
  match c.fn, Tab.find? s.stroke.groups (u8 b 0) with
  | .vf k, some x => do
    need (u64 b 8 == x.members) .badParam
    need (bitOf x.members k) .badParam
    match s.session c.fn (u32 b 4) with
    | none => .error ⟨.notPermitted, 0⟩
    | some ses => do
      need ses.tenantAuth .notPermitted
      let grant : Consent := { comp := k, members := x.members, hash := ses.th2 }
      doneWith ((s.commit c (.consent (u8 b 0) k (if u8 b 1 == 0 then some grant else none))).commit c .epochUp)
  | _, _ => .error ⟨.badParam, 0⟩

/-- STROKE.WAIT (02 R74): a target past at intake completes with OK_NOTE, one beyond 2^32 strokes with BAD_PARAM, any other
waits for the report phase of its stroke. -/
def opStrokeWait (c : Cmd) (s : State) : Chk Fin := do
  need (c.block.length == 8) .badParam
  let target := u64 c.block 0
  need (target ≤ s.stroke.number + 2 ^ 32) .badParam
  if target ≤ c.stroke then doneWith s .okNote
  else if target ≤ s.stroke.number then doneWith s
  else .ok (.wait s)

/-- The ring of a pending store is the fence's, and its compartment. -/
def storeOf (k ring : Nat) (w : WordStorePending) : Bool := w.comp == k && w.ring == ring

/-- A fence makes every pending store of its queue visible; what that queue stores from then on is ordered after every store that is
visible then (02 R67). -/
def State.fenceStores (s : State) (k ring : Nat) : State :=
  { s with wordStores := s.wordStores.map fun w =>
      let w := if storeOf k ring w then { w with visible := true } else w
      if w.comp == k && w.visible then { w with fencedBy := if w.fencedBy.contains ring then w.fencedBy else w.fencedBy ++ [ring] } else w }

/-- FENCE.SC (02 R67, R76). -/
def opFenceSc (c : Cmd) (s : State) : Chk Fin := do
  need (c.block.length == 8) .badParam
  need (zeroAt c.block 0 8) .badParam
  match c.fn with
  | .vf k => doneWith ((s.fenceStores k c.ring).bump k .fences 1)
  | .pf => .error ⟨.notPermitted, 0⟩

/-- WORD.STORE (02 R66, Table 2.7). -/
def opWordStore (c : Cmd) (s : State) : Chk Fin := do
  let b := c.block
  need (b.length == 16) .badParam
  need (u16 b 0 ≤ 4095) .badParam
  need (zeroAt b 2 6) .badParam
  match c.fn with
  | .vf k =>
    let before (w : WordStorePending) : Bool := w.comp == k && w.index == u16 b 0 && w.fencedBy.contains c.ring
    let old := s.wordStores.map fun w => if before w then { w with later := w.later ++ [c.order] } else w
    let w : WordStorePending := { order := c.order, comp := k, index := u16 b 0, value := u64 b 8, ring := c.ring }
    doneWith { s with wordStores := old ++ [w] }
  | .pf => .error ⟨.notPermitted, 0⟩

/-- This stroke's stores to one word. -/
def State.storesTo (s : State) (k i : Nat) : List WordStorePending := s.wordStores.filter fun w => w.comp == k && w.index == i

/-- The values a load may read: a store of this stroke that no visible store replaced, and the word's earlier value unless a fence
made a store visible (02 R66, R67). -/
def State.wordValues (s : State) (k i : Nat) : List Nat :=
  let ws := s.storesTo k i
  let base := if ws.any (·.visible) then [] else [Tab.get 0 (s.comp k).words i]
  base ++ (ws.filter fun w => !ws.any fun v => v.visible && w.later.contains v.order).map (·.value)

/-- WORD.LOAD (02 R66, R69): VALUE as read at execute. -/
def opWordLoad (c : Cmd) (s : State) : Chk Fin := do
  let b := c.block
  need (b.length == 16) .badParam
  need (u16 b 0 ≤ 4095) .badParam
  need (zeroAt b 2 6) .badParam
  need (aligned64 (u64 b 8)) .badParam
  match c.fn with
  | .vf k =>
    let (v, s) := s.pick (s.wordValues k (u16 b 0))
    doneWith (s.record c.fn (u64 b 8) (leBytes v 8))
  | .pf => .error ⟨.notPermitted, 0⟩

/-- Settle of one word: it holds exactly one of the stores that no later ordered store replaced (02 R66, R69). -/
def State.settleWord (s : State) (k i : Nat) : State :=
  let ws := s.storesTo k i
  let (v, s) := s.pick ((ws.filter fun w => !ws.any fun v => w.later.contains v.order).map (·.value))
  s.modComp k fun x => { x with words := Tab.set x.words i v }

/-- Settle of every word stored in this stroke (02 R69). -/
def State.settleWords (s : State) : State :=
  let keys := (s.wordStores.map fun w => (w.comp, w.index)).eraseDups
  { keys.foldl (fun s k => s.settleWord k.1 k.2) s with wordStores := [] }

/-! ### The meanings: each runs its checks and work in the frame of a packet command (02 Table 2.9). -/

def execDeviceQuery (c : Cmd) (s : State) : Out := .next (runCmd 0x0001 c s (opDeviceQuery c s))
def execStrokeQuery (c : Cmd) (s : State) : Out := .next (runCmd 0x0002 c s (opStrokeQuery c s))
def execStrokeConfig (c : Cmd) (s : State) : Out := .next (runCmd 0x0003 c s (opStrokeConfig c s))
def execSliceSet (c : Cmd) (s : State) : Out := .next (runCmd 0x0004 c s (opSliceSet c s))
def execSliceQuery (c : Cmd) (s : State) : Out := .next (runCmd 0x0005 c s (opSliceQuery c s))
def execLendGroup (c : Cmd) (s : State) : Out := .next (runCmd 0x0006 c s (opLendGroup c s))
def execLendConsent (c : Cmd) (s : State) : Out := .next (runCmd 0x0007 c s (opLendConsent c s))
def execStrokeWait (c : Cmd) (s : State) : Out := .next (runCmd 0x0008 c s (opStrokeWait c s))
def execFenceSc (c : Cmd) (s : State) : Out := .next (runCmd 0x0009 c s (opFenceSc c s))
def execWordStore (c : Cmd) (s : State) : Out := .next (runCmd 0x000A c s (opWordStore c s))
def execWordLoad (c : Cmd) (s : State) : Out := .next (runCmd 0x000B c s (opWordLoad c s))

end Sys2Proof.Machine
end

