-- ==== Sys2Proof/Machine/Quench.lean ====
section
/-! DEFINITION. Quench, tenant change, destruction and device quench (12 R447-R468), function resets (14 R530-R532), the
Night entry (15 R556) and the lease fence (17 R611): what each one clears and what it keeps. -/

namespace Sys2Proof.Machine

/-- A WORD.STORE that is ended while it may be executing leaves the word with its old or its new value (02 R76; log 108). -/
def State.endStore (s : State) (a : Adm) : State :=
  match a.cmd.fn with
  | .vf k =>
    if a.op = 0x000A ∧ a.planned then
      let i := u16 a.cmd.block 0
      let (v, s) := s.pick [Tab.get 0 (s.comp k).words i, u64 a.cmd.block 8]
      s.modComp k fun x => { x with words := Tab.set x.words i v }
    else s
  | .pf => s

/-- End every admitted command that `p` selects, with a status and its reply written (03 R111). -/
def State.endWhere (s : State) (p : Adm → Bool) (st : Status) : State :=
  (s.queue.filter p).foldl (fun s a => (if st = .aborted then s.endStore a else s).reply a.cmd a.op st 0) s

/-- End every admitted command that `p` selects with no reply written (03 R80, R113). -/
def State.loseWhere (s : State) (p : Adm → Bool) (st : Status) : State :=
  (s.queue.filter p).foldl (fun s a => (s.endStore a).replyLost a.cmd a.op st) s

/-- A command that a disable never aborts: COMP.DESTROY, COMP.QUENCH, TENANT.CHANGE, DEVICE.QUENCH (12 R472). -/
def neverAborted (op : Nat) : Bool := [0x0102, 0x0103, 0x0104, 0x0107].contains op

/-- An admitted command of a function. -/
def admOfFn (f : Fn) (a : Adm) : Bool := decide (a.cmd.fn = f)

/-- Commands that have completed while their reply is not written are still admitted (03 R103): those that `p` selects end with a
status, their results and result records discarded, but for a quench or a restart that has completed; `lost` where no reply is
written (03 R111; 12 R457, R472; 17 R624). -/
def State.abortReplies (s : State) (p : Reply → Bool) (st : Status) (lost : Bool) : State :=
  let hit (r : Reply) : Bool := r.admitted && p r && !neverAborted r.op && !(r.op == 0x0B02 && u8 r.cmd.block 1 == 1)
  let s := (s.replies.filter fun r => hit r && succeeded r.status).foldl (fun s r => (s.countStatus r.cmd.fn st).dropHeld r.cmd.order) s
  { s with
    replies := s.replies.map fun r =>
      if hit r then (if succeeded r.status then { r with status := st.code, detail := 0, lost := r.lost || lost } else { r with lost := r.lost || lost })
      else r }

/-- Discard what a function would commit at settle, and the result records it would write. -/
def State.dropCommits (s : State) (f : Fn) : State :=
  { s with
    commits := s.commits.filter fun c => decide (c.fn ≠ f) || c.what.lasting
    records := s.records.filter fun w => decide (w.fn ≠ f) }

/-- Every command of a function that is still admitted ends, completed ones included (03 R80, R111). -/
def State.abortFn (s : State) (f : Fn) (lost : Bool) : State :=
  let sel (a : Adm) : Bool := admOfFn f a && !neverAborted a.op
  let s := if lost then s.loseWhere sel .aborted else s.endWhere sel .aborted
  (s.abortReplies (fun r => decide (r.cmd.fn = f)) .aborted lost).dropCommits f

/-- Discard the signal-word stores of a compartment that are not settled. -/
def State.dropStores (s : State) (k : Nat) : State :=
  { s with wordStores := s.wordStores.filter fun w => w.comp != k }

/-- The consents of a compartment become invalid, and its group is active no more (02 R54, R56). -/
def State.dropConsent (s : State) (k : Nat) : State :=
  let groups := s.stroke.groups.map fun p =>
    (p.1, { p.2 with consents := p.2.consents.filter fun c => c.comp != k, active := p.2.active && !bitOf p.2.members k })
  { s with stroke := { s.stroke with groups } }

/-- What a compartment holds in engine-local SRAM and in the Tongs is cleared (12 Table 12.4). -/
def State.dropWorks (s : State) (k : Nat) : State :=
  let orders := (s.works.filter fun w => w.comp == k).map (·.order)
  let gone (x : Option (Nat × AccTile)) : Option (Nat × AccTile) := x.filter fun p => !orders.contains p.1
  { s with
    works := s.works.filter fun w => w.comp != k
    anvils := s.anvils.map fun p => (p.1, { receiving := gone p.2.receiving, draining := gone p.2.draining })
    tongs := s.tongs.filter fun p => p.2.comp != k
    sram := s.sram.filter fun t => t.comp != k }

/-- The lending group of a compartment dissolves (12 R467). -/
def State.dissolveGroupOf (s : State) (k : Nat) : State :=
  { s with stroke := { s.stroke with groups := s.stroke.groups.filter fun p => !bitOf p.2.members k } }

/-- Every index in use becomes free, the generations kept (12 Table 12.1). -/
def IdxRange.freeAll (r : IdxRange) : IdxRange := { r with used := [], freed := r.freed ++ r.used }

/-- A group's counters are cleared by a quench and a tenant change (13 R509). -/
def clearGroup (g : CollGroup) : CollGroup := { g with running := none, data := [], descs := [], ready := [], committed := 0, abandoned := 0, staleDropped := 0, timeouts := 0 }

/-- Releases owed to the devices that hold tiles of a compartment: (holder node, compartment, EPOCH ended) (12 R465). -/
def State.peerReleases (s : State) (k : Nat) : List (Nat × Nat × Nat) :=
  let x := s.comp k
  let nodes := match s.link.cell with
    | some (_, _, l) => l
    | none => []
  ((x.tensors.filter fun p => p.2.home == 3).map fun p => (nodes.getD p.2.peer 0xFFFF, k, x.epoch)).eraseDups

/-- What a quench leaves of a compartment (12 Table 12.1): configuration, claim, generations, serving policy and the counts
that outlive it; every object, key, counter and signal word is gone and the ended EPOCH awaits zeroing. -/
def quenchedComp (x : Comp) (now : Nat) : Comp :=
  { st := x.st
    epoch := (x.epoch + 1) % 256
    zeroing := x.zeroing ++ [x.epoch]
    clearing := true
    tabNext := x.tabNext
    bufNext := x.bufNext
    hearthUnits := x.hearthUnits
    hbmGib := x.hbmGib
    tagQuota := x.tagQuota
    streamQuota := x.streamQuota
    domainQuota := x.domainQuota
    residentQuota := x.residentQuota
    keyQuota := x.keyQuota
    tagBase := x.tagBase
    streamBase := x.streamBase
    domainBase := x.domainBase
    keyBase := x.keyBase
    farPending := x.farPending
    tenancy := x.tenancy
    quenches := sat64 x.quenches 1
    lastQuench := now
    slice := x.slice
    claim := x.claim
    policy := x.policy
    policyPending := x.policyPending
    idNext := x.idNext
    streamIdx := x.streamIdx.freeAll
    domIdx := x.domIdx.freeAll
    groupIdx := x.groupIdx
    groups := x.groups.map fun p => (p.1, clearGroup p.2)
    span := x.span }

/-- The host window in force is recorded as FAR_PENDING (12 R464). -/
def farRecord (x : Comp) : Option (Nat × Nat) :=
  match x.hostWin with
  | some w => some w
  | none => x.farPending

/-- The steps of a quench of one compartment (12 R457): its admitted commands abort (with replies, or without where the
rings go too), nothing of it commits, and its state is cleared. -/
def State.quenchComp (s : State) (k : Nat) (replies : Bool) : State :=
  let s := (((s.abortFn (.vf k) !replies).dropStores k).dropConsent k).dropWorks k
  let here (m : LinkMsg) : Bool := (s.comp k).span.any fun p => p.id == m.span
  let s : State :=
    { s with link := { s.link with releases := s.link.releases ++ s.peerReleases k, landed := s.link.landed.filter fun m => !here m } }
  let s : State := { s with resv := s.resv.filter fun r => r.comp != k }
  let x := s.comp k
  let y := quenchedComp { x with farPending := farRecord x } s.stroke.number
  let s := (s.setComp k { y with st := if x.st = .changing then .changing else .quenching }).drawKeys k
  s.modFn (.vf k) fun f => { f with counters := [] }

/-- The QUENCHED notice, kind 4 (12 R457). -/
def State.quenchNotice (s : State) (k cause : Nat) : State :=
  s.notice (.vf k)
    { kind := 4, stroke := s.stroke.number, lo := leBytes cause 1 ++ leBytes (s.comp k).epoch 1 ++ [0, 0], hi := padTo 6 [] }

/-- A function's rings and registers return to their reset values; tag state and ring counters are kept (14 R531, 19 R659). -/
def resetRings (x : FnState) : FnState := { tags := x.tags, counters := x.counters, d3 := x.d3 }

/-- A function reset (14 R531): rings, registers, mailbox and sessions return to reset values, the TDI to CONFIG_UNLOCKED. -/
def State.resetFn (s : State) (f : Fn) : State :=
  let s := (s.abortFn f true).modFn f resetRings
  match f with
  | .pf => { s with watch := { s.watch with eq := {} } }
  | .vf _ => s

/-- The rings of a function are disabled in ABORT mode with no replies; registers but the rings' stay (12 R466, 14 R530). -/
def State.disableRings (s : State) (f : Fn) : State :=
  (s.abortFn f true).modFn f fun x =>
    { x with
      sq := x.sq.map fun p => (p.1, { p.2 with st := .disabled, enable := false })
      rq := { x.rq with st := .disabled, enable := false }
      notices := [] }

/-- A TDI leaves RUN (14 R530): the function's status shows it, and a binding ends with the rings at the next boundary. -/
def State.tdiLeave (s : State) (k : Nat) (dst : TdiSt) : State :=
  let x := s.fnOf (.vf k)
  let ends := (s.comp k).claim.isSome && x.bindOk
  let s := s.modFn (.vf k) fun x => { x with tdi := dst, nonce := [], bindOk := false }
  if x.tdi = .run then
    (s.modFn (.vf k) fun x => { x with unbindDue := x.unbindDue || ends }).setInt (.vf k) 3
  else s

/-- What a tenant change adds to a quench (12 R466): the TDI goes to ERROR too, and the rings are disabled already (14 R530). -/
def State.changeTenant (s : State) (k : Nat) (st : CompSt) : State :=
  let s := (s.disableRings (.vf k)).tdiLeave k .error
  let s := s.quenchComp k false
  let (tags, s) := s.freshRange
  let (streamIdx, s) := s.freshRange
  let (domIdx, s) := s.freshRange
  let (idNext, s) := s.draw
  let s := s.modFn (.vf k) fun x => { x with sessions := [], tags, unbindDue := false }
  s.modComp k fun x =>
    { x with
      st := st
      tenancy := x.tenancy + 1
      claim := none
      policy := {}
      policyPending := none
      streamIdx := streamIdx
      domIdx := domIdx
      idNext := idNext % 2 ^ 64
      groups := x.groups.map fun p => (p.1, { p.2 with st := .broken })
      farPending := none }

/-- Destruction of one compartment (12 R467). -/
def State.destroyComp (s : State) (k : Nat) : State :=
  ((s.changeTenant k .destroying).dissolveGroupOf k).modComp k fun x =>
    { x with compKey := none, hearthKey := none, unkeyed := false }

/-- One due quench takes effect at a boundary (12 R463). -/
def State.performQuench (s : State) (q : QuenchDue) : State :=
  match q.kind with
  | .quench => (s.quenchComp q.comp true).quenchNotice q.comp q.cause
  | .change => s.changeTenant q.comp .changing
  | .destroy => s.destroyComp q.comp

/-- Rank of a kind: the widest is performed (12 R463). -/
def QuenchKind.rank : QuenchKind → Nat
  | .quench => 0
  | .change => 1
  | .destroy => 2

/-- Only the widest of the quenches of one compartment that fall due together is performed (12 R463). -/
def widest (l : List QuenchDue) : List QuenchDue :=
  l.filter fun q => l.all fun r => r.comp != q.comp || r.kind.rank < q.kind.rank
    || (r.kind.rank == q.kind.rank && (decide (r = q) || r.cause ≥ q.cause))

/-- A quench whose new EPOCH would equal one still awaiting zeroing is held (12 R462). -/
def State.quenchHeld (s : State) (q : QuenchDue) : Bool :=
  let x := s.comp q.comp
  decide (q.kind ≠ .destroy) && x.zeroing.contains ((x.epoch + 1) % 256)

/-- Every quench due at a boundary (12 R457, R462, R463). -/
def State.dueQuenches (s : State) : State :=
  let due := s.quench.due.filter fun q => s.exists_ q.comp && decide ((s.comp q.comp).st ≠ .destroying)
  let now := (widest due.eraseDups).filter fun q => !s.quenchHeld q
  let s : State := { s with quench := { s.quench with due := due.filter fun q => s.quenchHeld q } }
  now.foldl State.performQuench s

/-- A device quench (12 R468). -/
def State.deviceQuench (s : State) : State :=
  let s := s.abortFn .pf false
  let s := (upFrom 0 64).foldl (fun s k => if s.exists_ k && decide ((s.comp k).st ≠ .destroying) then s.destroyComp k else s) s
  let s := s.modFn .pf fun x => { x with sessions := [] }
  { s with
    bases := []
    baseKeys := []
    resv := []
    commits := s.commits.filter fun c => match c.what with
      | .fwPending _ restart => restart
      | _ => false
    quench :=
      { s.quench with
        deviceDue := false, deviceClearing := true, due := []
        hbmAwaiting := s.quench.hbmAwaiting ++ (s.bases.filter fun p => p.2.shardBytes != 0).map fun p => (65 + p.1, p.2.shardBytes) } }

/-- A compartment becomes ABSENT: its run, index ranges and shares are released, its HBM once zeroed (12 R467). -/
def State.removeComp (s : State) (k : Nat) : State :=
  let x := s.comp k
  { s with
    comps := Tab.del s.comps k
    stroke := { s.stroke with slices := s.stroke.slices.filter fun p => p.comp != k }
    quench := { s.quench with hbmAwaiting := s.quench.hbmAwaiting ++ [(k, x.hbmGib * 2 ^ 30)] } }

/-- NIGHT_ENTRY's ARG0 (16 Table 16.7); a restart and RESET_N raise none (17 R621; log 20). -/
def NightCause.code : NightCause → Option Nat
  | .supply => some 0
  | .thermal => some 1
  | .trip => some 2
  | .tamper => some 3
  | .rule => some 4
  | .cap => some 5
  | .restart => none
  | .reset => none
  | .powerOn => none

/-- Channels of dies without power are OFF in Night; Crucible's own go on (16 R568, 15 R557). -/
def chanPowered (ch : Nat) : Bool := ch == 80 || (81 ≤ ch && ch ≤ 85) || ch == 100 || ch == 101 || 252 ≤ ch

/-- A sensor channel. -/
def WatchSt.chan (w : WatchSt) (i : Nat) : Chan := Tab.get {} w.chans i

/-- A channel without power (16 R568). -/
def chanOff : Chan where
  st := .off

/-- What Nightwatch keeps across the loss of the main domain. -/
def nightWatch (w : WatchSt) : WatchSt :=
  { w with
    chans := (upFrom 0 256).filterMap fun i =>
      if chanPowered i then (Tab.find? w.chans i).map fun c => (i, c) else some (i, chanOff)
    eq := {} }

/-- The main domain loses power (15 R556 step 4): standby state is kept, everything else is gone. -/
def State.mainOff (s : State) (m : MainSt) (cause : NightCause) (cleared : Bool) : State :=
  { pending := s.pending
    free := s.free
    hostMem := s.hostMem
    watch := nightWatch s.watch
    dawn := { s.dawn with holder := none, fence := none, armed := none, transition := none, transiting := false }
    power :=
      { s.power with
        main := m
        nightCause := cause
        state := .night
        pwrGood := false
        inputSwitch := false
        holdover := false
        refclkBack := false
        restartDue := false
        setPending := none
        shedDue := false
        burst := none
        hearthCleared := cleared }
    host := { up := false, lit := false, vfEnable := false, numVfs := 0, ide := [], rate := s.host.rate, width := s.host.width } }

/-- Entry to Night (15 R556): NIGHT_ENTRY is raised, every key and object is destroyed and every admitted command ends with
no reply; Hearth is row-cleared while P48_IN stays at or above 30 V. -/
def State.enterNight (s : State) (cause : NightCause) : State :=
  if s.power.main = .service then
    let s := match cause.code with
      | some n => s.raise 0x0085 .alarm 0x40 n 0
      | none => s
    s.mainOff .night cause (decide ((s.watch.chan 84).raw ≥ 30000))
  else s

/-- Functions that a stream covers. -/
def IdeStream.covers (x : IdeStream) (f : Fn) : Bool := x.first ≤ fnKey f && fnKey f ≤ x.last

/-- One stream block becomes Insecure (14 R526, R530). -/
def State.insecureBlock (s : State) (cause : Nat) (p : Nat × IdeStream) : State :=
  let ide := Tab.set s.host.ide p.1 { p.2 with secure := false, active := none }
  let s : State := { s with host := { s.host with ide } }
  let s := s.raise 0x0131 .error 0x40 p.2.id cause
  (allFns.filter p.2.covers).foldl
    (fun s f =>
      let s := s.setInt f 2
      match f with
      | .pf => s
      | .vf k =>
        if (s.fnOf f).tdi = .locked ∨ (s.fnOf f).tdi = .run then s.tdiLeave k .error else s) s

/-- Secure streams that `p` selects become Insecure (14 R526). -/
def State.insecureWhere (s : State) (p : IdeStream → Bool) (cause : Nat) : State :=
  (s.host.ide.filter fun x => x.2.secure && p x.2).foldl (fun s x => s.insecureBlock cause x) s

/-- The HOST link goes down (14 R526, Table 14.6): every stream becomes Insecure; the cause argument is a free value
(log 6). -/
def State.linkDown (s : State) : State :=
  let (c, s) := s.draw
  ({ s with host := { s.host with up := false } } : State).insecureWhere (fun _ => true) c

/-- A lease fence (17 R611): command processors cut off, Dusk holding, every function reset, the HOST link down, every IDE
stream Insecure, LEASE_FENCE raised. -/
def State.fenceNow (s : State) (cause : Nat) : State :=
  let holderCode := match s.dawn.holder with
    | some .a => 0
    | some .b => 1
    | none => 0xFF
  let former := s.dawn.holder
  let s := s.raise 0x0084 .alarm 0x40 (cause + 256 * holderCode) s.dawn.leaseCounter
  let s := allFns.foldl State.resetFn s.linkDown
  { s with
    commits := s.commits.filter (·.what.lasting)
    works := []
    anvils := []
    sram := []
    wordStores := []
    dawn := { s.dawn with holder := none, fences := sat64 s.dawn.fences 1, fence := some { cause, former, rounds := 0 } }
    power := { s.power with state := .duskHolding, since := s.stroke.number, burst := none } }

end Sys2Proof.Machine
end

