-- ==== Sys2Proof/Machine/CompCmds.lean ====
section
/-! DEFINITION. The commands of class 0x01 and the events of quench and clearing (12_compartments_and_quench.md). -/

namespace Sys2Proof.Machine

/-- Compartments whose creation settles in this stroke (12 R450). -/
def State.creating (s : State) : List (Nat × Comp) :=
  s.commits.filterMap fun c => match c.what with
    | .compActive k x _ => some (k, x)
    | _ => none

/-- Every compartment that holds shares, those being created included. -/
def State.holders (s : State) : List (Nat × Comp) := s.comps.filter (fun p => decide (p.2.st ≠ .absent)) ++ s.creating

/-- Sum of a share over the compartments that hold one. -/
def State.total (s : State) (f : Comp → Nat) : Nat := (s.holders.map fun p => f p.2).foldl (· + ·) 0

/-- The range `[b, b+n)` meets none of the ranges in use. -/
def rangeFree (used : List (Nat × Nat)) (hi n b : Nat) : Bool :=
  b + n ≤ hi && used.all fun r => r.2 == 0 || r.1 + r.2 ≤ b || b + n ≤ r.1

/-- The lowest contiguous free range of `n` indices in `[lo, hi)` (12 R448). -/
def placeRange (used : List (Nat × Nat)) (lo hi n : Nat) : Option Nat :=
  if n = 0 then some lo
  else ((lo :: used.map fun r => r.1 + r.2).filter fun b => lo ≤ b && rangeFree used hi n b).min?

/-- Place one quota, else RANGE_FRAGMENTED with the quota's offset (12 R448). -/
def placeQuota (s : State) (base quota : Comp → Nat) (lo hi n off : Nat) : Chk Nat :=
  match placeRange (s.holders.map fun p => (base p.2, quota p.2)) lo hi n with
  | some b => .ok b
  | none => .error ⟨.rangeFragmented, off⟩

/-- Shard bytes of both base slots (07 R259). -/
def State.baseBytes (s : State) : Nat := (s.bases.map fun p => p.2.shardBytes).foldl (· + ·) 0

/-- Live keys in a compartment's key table. -/
def Comp.keysHeld (x : Comp) : Nat := x.keys.length

/-- Bytes of HBM that wait for background zeroing (07 R263; 12 R449). -/
def State.hbmAwaiting (s : State) : Nat := (s.quench.hbmAwaiting.map (·.2)).foldl (· + ·) 0

/-- FLAGS of the COMP.QUERY record. -/
def compFlags (x : Comp) (claimed : Bool) : Nat :=
  bitNum claimed + 2 * bitNum (!x.zeroing.isEmpty) + 4 * bitNum x.farPending.isSome + 8 * bitNum x.unkeyed

/-- STATE (12 Table 12.6). -/
def CompSt.code : CompSt → Nat
  | .absent => 0
  | .active => 1
  | .quenching => 2
  | .changing => 3
  | .destroying => 4

/-- The compartment is claimed (11 R417). -/
def Comp.claimed (x : Comp) : Bool := x.claim.isSome

/-- The COMP.QUERY record (12 Table 12.6); an ABSENT compartment shows its number and state only (12 R469). -/
def compRecord (k : Nat) (x : Comp) (keysHeld : Nat) : List Byte :=
  if x.st = .absent then layout 64 [(0, 1, k)]
  else
    layout 64 [(0, 1, k), (1, 1, x.st.code), (2, 1, compFlags x x.claimed), (3, 1, x.epoch), (4, 2, x.hearthUnits),
      (6, 2, x.hbmGib), (8, 2, x.tagQuota), (10, 2, x.streamQuota), (12, 4, x.domainQuota), (16, 2, x.residentQuota),
      (18, 2, x.keyQuota), (20, 2, x.tagBase), (22, 2, x.streamBase), (24, 4, x.domainBase), (28, 4, keysHeld),
      (32, 8, x.tenancy), (40, 8, x.quenches), (48, 8, x.lastQuench), (56, 8, x.lineTagFaults)]

/-- COMP.CREATE (12 R447-R450, R471, R472; 11 R409). -/
def opCompCreate (c : Cmd) (s : State) : Chk Fin := do
  let b := c.block
  blockLen c 32
  let num := u8 b 0
  let taken := fun k => s.exists_ k || s.creating.any fun p => p.1 == k
  field (num == 0xFF || (num < 64 && !taken num)) 0
  field (u8 b 1 == 0) 1
  let hearth := u16 b 2
  let hbm := u16 b 4
  let tags := u16 b 6
  let streams := u16 b 8
  let resident := u16 b 10
  let domains := u32 b 12
  let keys := u16 b 16
  field (1 ≤ hearth && hearth ≤ 320) 2
  field (1 ≤ hbm && hbm ≤ 382) 4
  field (1 ≤ tags && tags ≤ 16128) 6
  field (streams ≤ 32768) 8
  field (resident ≤ domains && resident ≤ 16384) 10
  field (domains ≤ 65536) 12
  field (1 ≤ keys && keys ≤ 8192) 16
  field (zeroAt b 18 6) 18
  field (aligned64 (u64 b 24)) 24
  need s.dawn.entropyOk .entropyFault
  match if num == 0xFF then (upFrom 0 64).find? fun k => !taken k else some num with
  | none => .error ⟨.noResource, 0⟩
  | some k => do
    need (s.total (·.hearthUnits) + hearth ≤ 320) .noResource
    need ((s.total (·.hbmGib) + hbm + 2) * 2 ^ 30 + s.baseBytes ≤ 384 * 2 ^ 30) .noResource
    need (s.total (·.tagQuota) + tags ≤ 16128) .noResource
    need (s.total (·.streamQuota) + streams ≤ 32768) .noResource
    need (s.total (·.residentQuota) + resident ≤ 16384) .noResource
    need (s.total (·.domainQuota) + domains ≤ 65536) .noResource
    need (s.total (·.keyQuota) + keys ≤ 32768) .noResource
    let tagBase ← placeQuota s (·.tagBase) (·.tagQuota) 256 16384 tags 6
    let streamBase ← placeQuota s (·.streamBase) (·.streamQuota) 0 32768 streams 8
    let domainBase ← placeQuota s (·.domainBase) (·.domainQuota) 0 65536 domains 12
    let keyBase ← placeQuota s (·.keyBase) (·.keyQuota) 0 32768 keys 16
    if (s.total (·.hbmGib) + hbm + 2) * 2 ^ 30 + s.hbmAwaiting + s.baseBytes > 384 * 2 ^ 30 then .ok (.wait s)
    else
      let (key, s) := s.drawCompKey
      let (hk, s) := s.drawBytes 64
      let (tagIdx, s) := s.freshRange
      let (streamIdx, s) := s.freshRange
      let (domIdx, s) := s.freshRange
      let (groupIdx, s) := s.freshRange
      let (idNext, s) := s.draw
      let x : Comp :=
        { st := .active, streamIdx, domIdx, groupIdx, idNext := idNext % 2 ^ 64, compKey := some key, hearthKey := some hk, hearthUnits := hearth, hbmGib := hbm, tagQuota := tags, streamQuota := streams
          domainQuota := domains, residentQuota := resident, keyQuota := keys
          tagBase, streamBase, domainBase, keyBase }
      let s := (s.commit c (.compActive k x tagIdx)).commit c .epochUp
      doneWith (s.record c.fn (u64 b 24) (compRecord k x 0))

/-- A compartment that a quench, change or destruction may name (12 Table 12.8). -/
def quenchable (x : Comp) : Bool := decide (x.st = .active ∨ x.st = .quenching ∨ x.st = .changing)

/-- The checks that COMP.DESTROY, COMP.QUENCH and TENANT.CHANGE share (12 R470, R471). -/
def quenchChecks (c : Cmd) (s : State) : Chk Nat := do
  blockLen c 8
  let k := u8 c.block 0
  need (mayName c.fn k) .notPermitted
  field (k < 64 && quenchable (s.comp k)) 0
  field (zeroAt c.block 1 7) 1
  .ok k

/-- A quench of some kind falls due at the next boundary (12 R457, R463). -/
def State.addQuench (s : State) (comp : Nat) (kind : QuenchKind) (cause : Nat) : State :=
  { s with quench := { s.quench with due := s.quench.due ++ [{ comp, kind, cause }] } }

/-- A commanded quench settles; a destruction changes the configuration (12 Table 12.9). -/
def State.commitQuench (s : State) (q : QuenchDue) : State :=
  let s := s.addQuench q.comp q.kind q.cause
  match q.kind with
  | .destroy => s.configChanged
  | _ => s

/-- A device quench settles (12 R468). -/
def State.commitDevice (s : State) : State := { s with quench := { s.quench with deviceDue := true } }

/-- A commanded quench, which stays admitted while its new EPOCH awaits zeroing (12 R457, R462). -/
def State.orderQuench (s : State) (c : Cmd) (q : QuenchDue) : Chk Fin :=
  if s.quenchHeld q then .ok (.wait s) else doneWith (s.commit c (.quenchDue q))

/-- CAUSE of a quench that a function commands (12 R457). -/
def quenchCause : Fn → Nat
  | .pf => 0
  | .vf _ => 1

/-- COMP.DESTROY (12 R467). -/
def opCompDestroy (c : Cmd) (s : State) : Chk Fin := do
  let k ← quenchChecks c s
  s.orderQuench c { comp := k, kind := .destroy, cause := 0 }

/-- COMP.QUENCH (12 R457). -/
def opCompQuench (c : Cmd) (s : State) : Chk Fin := do
  let k ← quenchChecks c s
  s.orderQuench c { comp := k, kind := .quench, cause := quenchCause c.fn }

/-- TENANT.CHANGE (12 R466). -/
def opTenantChange (c : Cmd) (s : State) : Chk Fin := do
  let k ← quenchChecks c s
  s.orderQuench c { comp := k, kind := .change, cause := 0 }

/-- COMP.QUERY (12 R469). -/
def opCompQuery (c : Cmd) (s : State) : Chk Fin := do
  let b := c.block
  blockLen c 16
  let k := u8 b 0
  need (mayName c.fn k) .notPermitted
  field (k < 64) 0
  field (zeroAt b 1 7) 1
  field (aligned64 (u64 b 8)) 8
  let x := s.comp k
  let held := match c.fn with
    | .pf => 0
    | .vf _ => x.keysHeld
  doneWith (s.record c.fn (u64 b 8) (compRecord k x held))

/-- Two byte ranges share a byte. -/
def rangesMeet (a b : Nat × Nat) : Bool := a.1 < b.1 + b.2 && b.1 < a.1 + a.2

/-- FAR.CLEAR (12 R464), a host write failing after `limit` bytes: what is zeroed stays so, and FAR_PENDING stays set. -/
def opFarClearTo (limit : Option Nat) (c : Cmd) (s : State) : Chk Fin := do
  blockLen c 8
  field (zeroAt c.block 0 8) 0
  match c.fn with
  | .pf => .error ⟨.notPermitted, 0⟩
  | .vf k =>
    match (s.comp k).farPending with
    | none => doneWith s .okNote
    | some far => do
      need (s.executesPlan || !((s.comp k).hostWin.any fun w => rangesMeet w far)) .badParam noField
      let clear (n : Nat) : State := { s with hostMem := Tab.modify [] s.hostMem (fnKey c.fn) fun m => Mem.clear m far.1 n }
      match limit with
      | some n => doneWith (clear (min n far.2)) .hostWindowFault
      | none => doneWith ((clear far.2).modComp k fun x => { x with farPending := none })

/-- FAR.CLEAR whose host writes all succeed. -/
def opFarClear (c : Cmd) (s : State) : Chk Fin := opFarClearTo none c s

/-- DEVICE.QUENCH (12 R468). -/
def opDeviceQuench (c : Cmd) (s : State) : Chk Fin := do
  blockLen c 8
  field (u32 c.block 0 == 0x51554E43) 0
  field (zeroAt c.block 4 4) 4
  doneWith (s.commit c .deviceDue)

/-! ### The meanings of the commands of class 0x01 (12 Table 12.9). -/

def execCompCreate (c : Cmd) (s : State) : Out := .next (runCmd 0x0101 c s (opCompCreate c s))
def execCompDestroy (c : Cmd) (s : State) : Out := .next (runCmd 0x0102 c s (opCompDestroy c s))
def execCompQuench (c : Cmd) (s : State) : Out := .next (runCmd 0x0103 c s (opCompQuench c s))
def execTenantChange (c : Cmd) (s : State) : Out := .next (runCmd 0x0104 c s (opTenantChange c s))
def execCompQuery (c : Cmd) (s : State) : Out := .next (runCmd 0x0105 c s (opCompQuery c s))
def execFarClear (c : Cmd) (s : State) : Out := .next (runCmd 0x0106 c s (opFarClear c s))
def execDeviceQuench (c : Cmd) (s : State) : Out := .next (runCmd 0x0107 c s (opDeviceQuench c s))

/-! ### The events of clearing. -/

/-- Time of a compartment's run is under way, or of unassigned units where it has no run; in a fence, whose runs are idle, the
execute phase (12 R460, R466; 17 R612). -/
def State.clearsNow (s : State) (k : Nat) : Bool :=
  decide (s.stroke.phase = .plan ∨ s.stroke.phase = .execute)
    && if s.dawn.fence.isSome then true
    else if (s.comp k).slice.count = 0 then s.stroke.current.isNone && decide (s.unassigned ≠ 0) else s.stroke.current == some k

/-- HEARTH_ROW_CLEAR_DONE (12 R460, R466, R467): a quenched compartment is ACTIVE again, a changed one goes on changing, a
destroyed one becomes ABSENT and its HBM awaits zeroing. -/
def execHearthRowClearDone (k : Nat) (s : State) : Out :=
  let x := s.comp k
  .next <|
    if !x.clearing || s.quench.deviceClearing || !s.clearsNow k then s
    else match x.st with
      | .quenching => s.setComp k { x with clearing := false, st := .active }
      | .destroying => s.removeComp k
      | _ => s.setComp k { x with clearing := false }

/-- TENANT_CHANGE_DONE (12 R466): CHANGING ends once the row-clear has ended. -/
def execTenantChangeDone (k : Nat) (s : State) : Out :=
  let x := s.comp k
  .next (if x.st = .changing ∧ !x.clearing ∧ s.clearsNow k then s.setComp k { x with st := .active } else s)

/-- Carry out every COMP.CREATE that waited for zeroing, in admission order (12 R449); what completes after settle is planned again. -/
def State.resumeCreates (s : State) : State :=
  if s.stroke.phase = .settle ∨ s.stroke.phase = .report then s
  else (s.queue.filter fun a => a.waiting && a.op == 0x0101).foldl
    (fun s a => finishCmd 0x0101 a.cmd s (opCompCreate a.cmd s)) s

/-- A quench that a waiting COMP.QUENCH or TENANT.CHANGE orders for compartment `k`. -/
def heldQuench (k : Nat) (a : Adm) : Option QuenchDue :=
  if !a.waiting || u8 a.cmd.block 0 != k then none
  else if a.op = 0x0103 then some { comp := k, kind := .quench, cause := quenchCause a.cmd.fn }
  else if a.op = 0x0104 then some { comp := k, kind := .change, cause := 0 }
  else none

/-- A held quench takes effect at the first boundary after its zeroing completes (12 R462). -/
def State.resumeQuenches (s : State) (k : Nat) : State :=
  s.queue.foldl (fun s a => match heldQuench k a with
    | some q => (s.commitQuench q).reply a.cmd a.op .ok 0
    | none => s) s

/-- HBM_ZEROING_DONE (12 R461, R449): the lines of ended EPOCHs of a compartment, or of an ended share, are free; 64 names
the whole device (15 R558), 65 and 66 the regions of base slots 0 and 1 (07 R263). -/
def execHbmZeroingDone (k : Nat) (s : State) : Out :=
  let s : State := { s with quench := { s.quench with hbmAwaiting := s.quench.hbmAwaiting.filter fun p => p.1 != k } }
  let s := if s.exists_ k then s.modComp k fun x => { x with zeroing := [] } else s
  .next (s.resumeQuenches k).resumeCreates

/-- DEVICE_HEARTH_CLEAR_DONE (12 R468, Table 12.4): in an execute phase; every compartment becomes ABSENT at the next boundary. -/
def execDeviceHearthClearDone (s : State) : Out :=
  .next (if s.quench.deviceClearing ∧ (s.stroke.phase = .plan ∨ s.stroke.phase = .execute) then { s with quench := { s.quench with deviceClearing := false, deviceCleared := true } } else s)

end Sys2Proof.Machine
end

