-- ==== Sys2Proof/Machine/Fp.lean ====
section
/-! DEFINITION. Exact real values, binary floating formats, FP32 arithmetic with one rounding, and the correctly rounded
functions of 05 R183, R189 and R190. FP32 values are 32-bit patterns as numbers. -/

namespace Sys2Proof.Machine

/-- An exact value: a NaN, an infinity, or (-1)^neg × m × 2^e, a zero keeping its sign. -/
inductive Num where
  | nan
  | inf (neg : Bool)
  | fin (neg : Bool) (m : Nat) (e : Int)
  deriving DecidableEq, Repr

/-- +0. -/
def Num.zero : Num := .fin false 0 0

/-- The sign of a value that is not a NaN. -/
def Num.neg? : Num → Bool
  | .nan => false
  | .inf n => n
  | .fin n _ _ => n

/-- -x. -/
def Num.neg : Num → Num
  | .nan => .nan
  | .inf n => .inf (!n)
  | .fin n m e => .fin (!n) m e

/-- |x|. -/
def Num.abs : Num → Num
  | .nan => .nan
  | .inf _ => .inf false
  | .fin _ m e => .fin false m e

/-- The value is zero. -/
def Num.isZero : Num → Bool
  | .fin _ m _ => m == 0
  | _ => false

/-- The value is finite. -/
def Num.isFin : Num → Bool
  | .fin _ _ _ => true
  | _ => false

/-- m × 2^e as an integer multiple of 2^f, for f ≤ e. -/
def scaleTo (m : Nat) (e f : Int) : Nat := m * 2 ^ (e - f).toNat

/-- The exact product. -/
def Num.mul : Num → Num → Num
  | .nan, _ => .nan
  | _, .nan => .nan
  | .inf a, .inf b => .inf (a != b)
  | .inf a, .fin b m _ => if m = 0 then .nan else .inf (a != b)
  | .fin a m _, .inf b => if m = 0 then .nan else .inf (a != b)
  | .fin a m e, .fin b n f => .fin (a != b) (m * n) (e + f)

/-- The exact sum; a sum of zero is +0 unless both terms are -0 (IEEE 754, round to nearest). -/
def Num.add : Num → Num → Num
  | .nan, _ => .nan
  | _, .nan => .nan
  | .inf a, .inf b => if a = b then .inf a else .nan
  | .inf a, .fin _ _ _ => .inf a
  | .fin _ _ _, .inf b => .inf b
  | .fin a m e, .fin b n f =>
    let g := min e f
    let x := scaleTo m e g
    let y := scaleTo n f g
    if a = b then .fin a (x + y) g
    else if x = y then .fin false 0 g
    else if y < x then .fin a (x - y) g
    else .fin b (y - x) g

/-- The exact difference. -/
def Num.sub (a b : Num) : Num := a.add b.neg

/-- Comparison of values that are not NaNs: a < b. -/
def Num.lt : Num → Num → Bool
  | .nan, _ => false
  | _, .nan => false
  | .inf a, .inf b => a && !b
  | .inf a, .fin _ _ _ => a
  | .fin _ _ _, .inf b => !b
  | .fin a m e, .fin b n f =>
    let g := min e f
    let x := scaleTo m e g
    let y := scaleTo n f g
    if a && m != 0 then (if b && n != 0 then y < x else true)
    else if b && n != 0 then false
    else x < y

/-- a ≤ b for values that are not NaNs. -/
def Num.le (a b : Num) : Bool := !(b.lt a) && decide (a ≠ .nan) && decide (b ≠ .nan)

/-- A whole number. -/
def Num.ofNat (n : Nat) : Num := .fin false n 0

/-- An integer. -/
def Num.ofInt (n : Int) : Num := .fin (n < 0) n.natAbs 0

/-- 2^k. -/
def Num.pow2 (k : Int) : Num := .fin false 1 k

/-! ### Rounding into a binary format -/

/-- A binary floating format (04 Table 4.5, Table 4.6): mantissa bits, bias, total bits without the sign, largest finite code,
codes of infinity and of the canonical NaN. -/
structure FFmt where
  man : Nat
  bias : Nat
  bits : Nat
  maxCode : Nat
  infCode : Option Nat
  nanCode : Option Nat
  deriving DecidableEq, Repr

/-- The magnitude of a code without its sign. -/
def FFmt.mag (f : FFmt) (c : Nat) : Num :=
  let ex := c / 2 ^ f.man
  let m := c % 2 ^ f.man
  if ex = 0 then .fin false m (1 - f.bias - f.man) else .fin false (2 ^ f.man + m) (ex - f.bias - f.man)

/-- floor(log2(m × 2^e)) for m > 0. -/
def floorLog2 (m : Nat) (e : Int) : Int := (Nat.log2 m : Int) + e

/-- The largest code whose magnitude does not exceed m × 2^e, and the remainder as a fraction (num, den) of the distance to
the next code. -/
def FFmt.floorCode (f : FFmt) (m : Nat) (e : Int) : Nat × Nat × Nat :=
  if m = 0 then (0, 0, 1)
  else
    let ex := max (floorLog2 m e) (1 - (f.bias : Int))
    let q := ex - f.man
    let n := if q ≤ e then scaleTo m e q else m / 2 ^ (q - e).toNat
    let r := if q ≤ e then (0, 1) else (m % 2 ^ (q - e).toNat, 2 ^ (q - e).toNat)
    let c := if n < 2 ^ f.man then n else ((ex + f.bias).toNat) * 2 ^ f.man + (n - 2 ^ f.man)
    (c, r.1, r.2)

/-- Round a magnitude to the nearest code, ties to the even code (04 R135); no upper limit. -/
def FFmt.nearest (f : FFmt) (m : Nat) (e : Int) : Nat :=
  let (c, r, d) := f.floorCode m e
  if 2 * r > d || (2 * r == d && c % 2 == 1) then c + 1 else c

/-- FP32 (04 Table 4.5). -/
def fp32 : FFmt where
  man := 23
  bias := 127
  bits := 31
  maxCode := 0x7F7FFFFF
  infCode := some 0x7F800000
  nanCode := some 0x7FC00000

/-- The FP32 canonical NaN (04 Table 4.6). -/
def nan32 : Nat := 0x7FC00000
/-- FP32 +∞. -/
def inf32 : Nat := 0x7F800000
/-- FP32 -∞. -/
def ninf32 : Nat := 0xFF800000
/-- FP32 1.0. -/
def one32 : Nat := 0x3F800000

/-- The value of an FP32 pattern. -/
def val32 (b : Nat) : Num :=
  let neg := bitOf b 31
  let c := b % 2 ^ 31
  if c > 0x7F800000 then .nan
  else if c = 0x7F800000 then .inf neg
  else match fp32.mag c with
    | .fin _ m e => .fin neg m e
    | x => x

/-- Sign bit of an FP32 pattern. -/
def sign32 (neg : Bool) : Nat := if neg then 2 ^ 31 else 0

/-- fp32_rne: round to FP32, nearest, ties to even; overflow gives infinity (04 R135, R151). -/
def rnd32 : Num → Nat
  | .nan => nan32
  | .inf n => sign32 n + inf32
  | .fin n m e => sign32 n + min (fp32.nearest m e) inf32

/-- fp32_up of a non-negative value: toward positive infinity, at most the largest finite value (04 R145). -/
def up32 : Num → Nat
  | .nan => nan32
  | .inf _ => fp32.maxCode
  | .fin _ m e =>
    let (c, r, _) := fp32.floorCode m e
    min (if r = 0 then c else c + 1) fp32.maxCode

/-- An exact quotient carried with enough bits and a sticky bit that one rounding to FP32 is the rounding of the quotient. -/
def Num.div : Num → Num → Num
  | .nan, _ => .nan
  | _, .nan => .nan
  | .inf _, .inf _ => .nan
  | .inf a, .fin b _ _ => .inf (a != b)
  | .fin a _ _, .inf b => .fin (a != b) 0 0
  | .fin a m e, .fin b n f =>
    if n = 0 then (if m = 0 then .nan else .inf (a != b))
    else
      let k := 80 + Nat.log2 n - Nat.log2 m
      let q := m * 2 ^ k / n
      let r := m * 2 ^ k % n
      .fin (a != b) (2 * q + (if r = 0 then 0 else 1)) (e - f - k - 1)

/-- One bit of an integer square root. -/
def sqrtStep (n : Nat) : Nat → Nat → Nat
  | 0, r => r
  | i + 1, r => let t := r + 2 ^ i; sqrtStep n i (if t * t ≤ n then t else r)

/-- floor of the square root. -/
def isqrt (n : Nat) : Nat := sqrtStep n (Nat.log2 n / 2 + 1) 0

/-- An exact square root carried with a sticky bit. -/
def Num.sqrt : Num → Num
  | .nan => .nan
  | .inf n => if n then .nan else .inf false
  | .fin n m e =>
    if m = 0 then .fin n 0 0
    else if n then .nan
    else
      let k : Int := if (e - 160) % 2 = 0 then 160 else 161
      let x := m * 2 ^ k.toNat
      let q := isqrt x
      .fin false (2 * q + (if q * q = x then 0 else 1)) ((e - k) / 2 - 1)

/-- fp32 sum. -/
def fadd (a b : Nat) : Nat := rnd32 ((val32 a).add (val32 b))
/-- fp32 difference. -/
def fsub (a b : Nat) : Nat := rnd32 ((val32 a).sub (val32 b))
/-- fp32 product. -/
def fmul (a b : Nat) : Nat := rnd32 ((val32 a).mul (val32 b))
/-- fp32 quotient. -/
def fdiv (a b : Nat) : Nat := rnd32 ((val32 a).div (val32 b))
/-- fp32_fma: one rounding (05 R180, R188). -/
def ffma (a b c : Nat) : Nat := rnd32 (((val32 a).mul (val32 b)).add (val32 c))
/-- fp32_sqrt. -/
def fsqrt (a : Nat) : Nat := rnd32 (val32 a).sqrt
/-- acc = fp32_rne(acc + exact(x × w)) (05 R168). -/
def facc (acc : Nat) (x w : Num) : Nat := rnd32 ((val32 acc).add (x.mul w))
/-- The negation of an FP32 pattern; a NaN stays canonical. -/
def fneg (a : Nat) : Nat := rnd32 (val32 a).neg

/-- An FP32 pattern is a NaN. -/
def isNan (b : Nat) : Bool := decide (val32 b = .nan)
/-- An FP32 pattern is finite. -/
def isFin (b : Nat) : Bool := (val32 b).isFin
/-- a < b. -/
def flt (a b : Nat) : Bool := (val32 a).lt (val32 b)
/-- a ≤ b. -/
def fle (a b : Nat) : Bool := (val32 a).le (val32 b)
/-- |x| of an FP32 pattern. -/
def fabs (a : Nat) : Nat := a % 2 ^ 31
/-- Largest finite magnitude of FP32 values (04 R137); patterns of magnitudes order as their values. -/
def amaxOf (l : List Nat) : Nat := (l.filter isFin).foldl (fun m x => max m (fabs x)) 0

/-- bf16_rne as an FP32 pattern: BF16 is FP32 with the low 16 bits removed (04 Table 4.2). -/
def bf16 : FFmt where
  man := 7
  bias := 127
  bits := 15
  maxCode := 0x7F7F
  infCode := some 0x7F80
  nanCode := some 0x7FC0

/-- BF16 rounding of an FP32 value to nearest, overflow to infinity, as a 16-bit pattern. -/
def bf16Of (a : Nat) : Nat :=
  match val32 a with
  | .nan => 0x7FC0
  | .inf n => (if n then 0x8000 else 0) + 0x7F80
  | .fin n m e => (if n then 0x8000 else 0) + min (bf16.nearest m e) 0x7F80

/-- bf16_rne widened exactly to FP32. -/
def bf16rne (a : Nat) : Nat := bf16Of a * 65536

/-- bf16_up of a positive FP32 value (07 R289). -/
def bf16up (a : Nat) : Nat := (a + 65535) / 65536

/-- An integer as FP32. -/
def intTo32 (n : Int) : Nat := rnd32 (Num.ofInt n)

/-! ### Correctly rounded functions: fixed point with P fraction bits, the precision doubled until both ends of the error
interval round alike -/

/-- ln 2 × 2^P = Σ 2 / ((2n+1) 3^(2n+1)) × 2^P. -/
def ln2Loop (n : Nat) : Nat → Nat → Nat → Nat
  | 0, _, acc => acc
  | k + 1, t, acc => ln2Loop (n + 1) k (t / 9) (acc + t / (2 * n + 1))

/-- ln 2 with P fraction bits. -/
def ln2Fix (p : Nat) : Nat := ln2Loop 0 (p + 8) (2 * 2 ^ p / 3) 0

/-- atan(1/x) with P fraction bits, by its alternating series. -/
def atanLoop (x n : Nat) : Nat → Nat → Int → Int
  | 0, _, acc => acc
  | k + 1, t, acc => atanLoop x (n + 1) k (t / (x * x)) (if n % 2 = 0 then acc + (t / (2 * n + 1) : Nat) else acc - (t / (2 * n + 1) : Nat))

/-- π with P fraction bits (Machin). -/
def piFix (p : Nat) : Nat :=
  (16 * atanLoop 5 0 (p + 8) (2 ^ p / 5) 0 - 4 * atanLoop 239 0 (p + 8) (2 ^ p / 239) 0).toNat

/-- Σ r^n / n!, for 0 ≤ r < 1, with P fraction bits. -/
def expLoop (p r n : Nat) : Nat → Nat → Nat → Nat
  | 0, _, acc => acc
  | k + 1, t, acc => expLoop p r (n + 1) k (t * r / 2 ^ p / (n + 1)) (acc + t)

/-- e^x = 2^k × y / 2^P with 1 ≤ y / 2^P < 2, for a fixed-point x. -/
def expFix (p : Nat) (x : Int) : Int × Nat :=
  let l : Int := ln2Fix p
  let k := x / l
  (k, expLoop p (x - k * l).toNat 0 (p + 8) (2 ^ p) 0)

/-- Both ends of [v - err, v + err] × 2^e round to one FP32 value. -/
def agree32 (v err : Nat) (e : Int) : Option Nat :=
  let lo := rnd32 (.fin false (v - err) e)
  let hi := rnd32 (.fin false (v + err) e)
  if lo = hi then some lo else none

/-- Error bound of every evaluation below, in units of the last place: 2^(P/4). -/
def ulps (p : Nat) : Nat := 2 ^ (p / 4)

/-- Double the precision until the result is decided. -/
def ziv (f : Nat → Option Nat) : Nat → Nat → Nat
  | 0, _ => 0
  | n + 1, p => match f p with
    | some r => r
    | none => ziv f n (2 * p)

/-- A real number that FP32 rounds: evaluate from 512 bits upward. -/
def correctly (f : Nat → Option Nat) : Nat := ziv f 40 512

/-- x with P fraction bits. -/
def toFix (p : Nat) (neg : Bool) (m : Nat) (e : Int) : Int :=
  let a : Nat := if 0 ≤ e + p then m * 2 ^ (e + p).toNat else m / 2 ^ (-(e + p)).toNat
  if neg then -(a : Int) else a

/-- cr_exp (05 R183). -/
def crExp (a : Nat) : Nat :=
  match val32 a with
  | .nan => nan32
  | .inf n => if n then 0 else inf32
  | .fin n m e =>
    if m = 0 then one32
    else if floorLog2 m e ≥ 8 then (if n then 0 else inf32)
    else correctly fun p =>
      let (k, y) := expFix p (toFix p n m e)
      agree32 y (ulps p) (k - p)

/-- 1 / (1 + e^-w) of a fixed-point w, decided or not. -/
def sigmoidFix (p : Nat) (w : Int) : Option Nat :=
  if w ≥ 0 then
    let (k, y) := expFix p (-w)
    let d := 2 ^ p + y / 2 ^ (-k).toNat
    agree32 (2 ^ (2 * p) / d) (ulps p) (-(p : Int))
  else
    let (k, y) := expFix p w
    let d := 2 ^ p + y / 2 ^ (-k).toNat
    agree32 (y * 2 ^ p / d) (ulps p) (k - p)

/-- cr(1 / (1 + e^-v)) (05 Table 5.7). -/
def crSigmoid (a : Nat) : Nat :=
  match val32 a with
  | .nan => nan32
  | .inf n => if n then 0 else one32
  | .fin n m e =>
    if m = 0 then 0x3F000000
    else if floorLog2 m e ≥ 8 then (if n then 0 else one32)
    else correctly fun p => sigmoidFix p (toFix p n m e)

/-- cr(tanh(v)) (05 Table 5.7); odd, so computed on the magnitude. -/
def crTanh (a : Nat) : Nat :=
  match val32 a with
  | .nan => nan32
  | .inf n => sign32 n + one32
  | .fin n m e =>
    if m = 0 then sign32 n
    else sign32 n + (if floorLog2 m e ≥ 5 then one32 else correctly fun p =>
      let (k, y) := expFix p (2 * toFix p false m e)
      let x := y * 2 ^ k.toNat
      agree32 ((x - 2 ^ p) * 2 ^ p / (x + 2 ^ p)) (ulps p) (-(p : Int)))

/-- √(2/π) with P fraction bits. -/
def sqrt2OverPi (p : Nat) : Nat := isqrt (2 * 2 ^ (3 * p) / piFix p)

/-- cr(0.5 × (1 + tanh(√(2/π) × (v + 0.044715 × v³)))) (05 Table 5.7) = 1 / (1 + e^(-2w)). -/
def crGeluTanh (a : Nat) : Nat :=
  match val32 a with
  | .nan => nan32
  | .inf n => if n then 0 else one32
  | .fin n m e =>
    if m = 0 then 0x3F000000
    else if floorLog2 m e ≥ 5 then (if n then 0 else one32)
    else correctly fun p =>
      let v := toFix p false m e
      let inner := v + 44715 * v * v * v / (1000000 * 2 ^ (2 * p))
      let w := 2 * (sqrt2OverPi p : Int) * inner / 2 ^ p
      sigmoidFix p (if n then -w else w)

/-- Σ v^(2n) / (2n+1)!! with P fraction bits, v² given. -/
def erfLoop (p v2 n : Nat) : Nat → Nat → Nat → Nat
  | 0, _, acc => acc
  | k + 1, t, acc => erfLoop p v2 (n + 1) k (t * v2 / 2 ^ p / (2 * n + 3)) (acc + t)

/-- cr(0.5 × (1 + erf(v / √2))) (05 Table 5.7); erf(v/√2) = √(2/π) v e^(-v²/2) Σ v^(2n) / (2n+1)!!. -/
def crGeluErf (a : Nat) : Nat :=
  match val32 a with
  | .nan => nan32
  | .inf n => if n then 0 else one32
  | .fin n m e =>
    if m = 0 then 0x3F000000
    else if floorLog2 m e ≥ 4 then (if n then 0 else one32)
    else correctly fun p =>
      let v := (toFix p false m e).toNat
      let v2 := v * v / 2 ^ p
      let s := erfLoop p v2 0 (4 * p) (2 ^ p) 0
      let (k, y) := expFix p (-((v2 / 2 : Nat) : Int))
      let x := sqrt2OverPi p * v / 2 ^ p * s / 2 ^ p * y / 2 ^ p / 2 ^ (-k).toNat
      agree32 ((if n then 2 ^ p - x else 2 ^ p + x) / 2) (ulps p) (-(p : Int))

/-- Σ (-1)^n r^(2n) / (2n)! (cosine, from i = 0) or r^(2n+1) / (2n+1)! (sine, from i = 1). -/
def trigLoop (p r i : Nat) : Nat → Nat → Bool → Int → Int
  | 0, _, _, acc => acc
  | k + 1, t, neg, acc =>
    trigLoop p r (i + 2) k (t * r / 2 ^ p * r / 2 ^ p / ((i + 1) * (i + 2))) (!neg) (if neg then acc - t else acc + t)

/-- The fraction bits of the reduction: a multiple of π/2 of an FP32 magnitude needs 128 more. -/
def trigBits (p : Nat) : Nat := p + 160

/-- Quadrant and remainder in [0, π/2) of a magnitude, with P fraction bits. -/
def trigReduce (p m : Nat) (e : Int) : Nat × Nat :=
  let q := trigBits p
  let h := piFix q / 2
  let x := (toFix q false m e).toNat
  (x / h, x % h / 2 ^ 160)

/-- Decide sine or cosine of a magnitude: which of the two series, and its sign, follow the quadrant. -/
def trigFix (p m : Nat) (e : Int) (sine : Bool) : Option Nat :=
  let (quad, r) := trigReduce p m e
  let k := if sine then quad else quad + 1
  let v := if k % 2 = 1 then trigLoop p r 0 p (2 ^ p) false 0 else trigLoop p r 1 p r false 0
  (agree32 v.natAbs (ulps p) (-(p : Int))).map fun b => sign32 (2 ≤ k % 4) + b

/-- cr_sin (05 R190). -/
def crSin (a : Nat) : Nat :=
  match val32 a with
  | .fin n m e =>
    if m = 0 then sign32 n
    else
      let r := correctly fun p => trigFix p m e true
      if n then (r + 2 ^ 31) % 2 ^ 32 else r
  | _ => nan32

/-- cr_cos (05 R190). -/
def crCos (a : Nat) : Nat :=
  match val32 a with
  | .fin _ m e => if m = 0 then one32 else correctly fun p => trigFix p m e false
  | _ => nan32

end Sys2Proof.Machine
end

