-- ==== Sys2Proof/Machine/Formats.lean ====
section
/-! DEFINITION. Number formats: format bytes, decoding, encoding, scales, the scale guard's tests (04 R114-R149), tile images
(06 R212-R215) and exponent-plane coding (06 R235-R238). -/

namespace Sys2Proof.Machine

/-- FORMAT of a format byte (04 Table 4.1). -/
def fmtElem (b : Nat) : Nat := b % 16
/-- SCALE_KIND of a format byte. -/
def fmtKind (b : Nat) : Nat := b / 16

/-- A format byte is valid (04 R115, Table 4.3). -/
def fmtValid (b : Nat) : Bool :=
  let f := fmtElem b
  match fmtKind b with
  | 0 => f ≤ 7
  | 1 => 1 ≤ f && f ≤ 9
  | 2 => 3 ≤ f && f ≤ 8
  | 3 => f == 10
  | 4 => f == 11
  | 5 => f == 11
  | 6 => f == 8 || f == 9
  | _ => false

/-- Bits per element (04 Table 4.2). -/
def fmtBits (b : Nat) : Nat :=
  match fmtElem b with
  | 0 => 32
  | 1 => 16
  | 2 => 16
  | 5 => 6
  | 6 => 6
  | 7 => 4
  | 9 => 4
  | 10 => 4
  | _ => 8

/-- Payload bytes of a tile (06 Table 6.3). -/
def payloadBytes (b : Nat) : Nat := 2048 * fmtBits b

/-- Metadata bytes of a tile (06 Table 6.4). -/
def metaBytes (b : Nat) : Nat :=
  match fmtKind b with
  | 1 => 64
  | 2 => 512
  | 3 => 320
  | 4 => 512
  | 5 => 512
  | 6 => 704
  | _ => 0

/-- n / d rounded up. -/
def ceilDiv (n d : Nat) : Nat := (n + d - 1) / d

/-- Slot size S of a stored form (06 R219). -/
def slotBytes (b : Nat) : Nat := 64 * ceilDiv (64 + payloadBytes b + metaBytes b + 16) 64

/-- Hearth bytes of a tile (06 R219). -/
def hearthBytes (b : Nat) : Nat := 64 * ceilDiv (payloadBytes b + metaBytes b) 64

/-- The floating formats (04 Table 4.5, Table 4.6); others have none. -/
def fmtFloat (b : Nat) : Option FFmt :=
  match fmtElem b with
  | 0 => some fp32
  | 1 => some { man := 10, bias := 15, bits := 15, maxCode := 0x7BFF, infCode := some 0x7C00, nanCode := some 0x7E00 }
  | 2 => some bf16
  | 3 => some { man := 3, bias := 7, bits := 7, maxCode := 0x7E, infCode := none, nanCode := some 0x7F }
  | 4 => some { man := 2, bias := 15, bits := 7, maxCode := 0x7B, infCode := some 0x7C, nanCode := some 0x7E }
  | 5 => some { man := 2, bias := 3, bits := 5, maxCode := 0x1F, infCode := none, nanCode := none }
  | 6 => some { man := 3, bias := 1, bits := 5, maxCode := 0x1F, infCode := none, nanCode := none }
  | 7 => some { man := 1, bias := 1, bits := 3, maxCode := 0x7, infCode := none, nanCode := none }
  | _ => none

/-- FP8-E4M3. -/
def e4m3 : FFmt where
  man := 3
  bias := 7
  bits := 7
  maxCode := 0x7E
  infCode := none
  nanCode := some 0x7F

/-- The value of a code of a floating format, sign included. -/
def floatVal (f : FFmt) (code : Nat) : Num :=
  let neg := bitOf code f.bits
  let c := code % 2 ^ f.bits
  if c ≤ f.maxCode then match f.mag c with
    | .fin _ m e => .fin neg m e
    | x => x
  else if f.infCode = some c then .inf neg else .nan

/-- A code as a two's complement number of `w` bits. -/
def signedCode (w c : Nat) : Int := if c < 2 ^ (w - 1) then (c : Int) else (c : Int) - 2 ^ w

/-- Elements per block of a block scale kind (06 R213). -/
def blockSize (b : Nat) : Nat := if fmtKind b = 3 then 64 else 32

/-- The kind has block scales. -/
def hasBlocks (b : Nat) : Bool := [2, 3, 4, 5].contains (fmtKind b)

/-- The shape of a tile's valid part: AXIS, valid rows, valid columns (06 R213, R215). -/
structure TShape where
  axis : Nat
  vr : Nat
  vc : Nat
  deriving DecidableEq, Repr

/-- Blocks along one line of the valid part. -/
def TShape.perLine (g : TShape) (b : Nat) : Nat := if g.axis = 0 then ceilDiv g.vc (blockSize b) else ceilDiv g.vr (blockSize b)

/-- Lines of the valid part: its non-reduction indices. -/
def TShape.lines (g : TShape) : Nat := if g.axis = 0 then g.vr else g.vc

/-- Position, in the list of valid blocks, of the block that holds (r, c). -/
def TShape.block (g : TShape) (b r c : Nat) : Nat :=
  if g.axis = 0 then r * g.perLine b + c / blockSize b else c * g.perLine b + r / blockSize b

/-- The non-reduction index of (r, c). -/
def TShape.line (g : TShape) (r c : Nat) : Nat := if g.axis = 0 then r else c

/-- Every valid position in row-major order. -/
def TShape.cells (g : TShape) : List (Nat × Nat) := (upFrom 0 g.vr).flatMap fun r => (upFrom 0 g.vc).map fun c => (r, c)

/-- NQ4 code values as BF16 patterns (04 Table 4.7). -/
def nq4Codes : List Nat :=
  [0xBF80, 0xBF35, 0xBF0B, 0xBED5, 0xBE9F, 0xBE5D, 0xBE02, 0xBD2C, 0x3D2C, 0x3E02, 0x3E5D, 0x3E9F, 0x3ED5, 0x3F0B, 0x3F35, 0x3F80]

/-- NQ4 thresholds to the next index as FP32 patterns (04 Table 4.7). -/
def nq4Thr : List Nat :=
  [0xBF5A8000, 0xBF200000, 0xBEF58000, 0xBEBA0000, 0xBE86C000, 0xBE2F8000, 0xBDAD0000, 0, 0x3DAD0000, 0x3E2F8000, 0x3E86C000,
   0x3EBA0000, 0x3EF58000, 0x3F200000, 0x3F5A8000]

/-- The value of an NQ4 index. -/
def nq4Val (i : Nat) : Num := val32 (nq4Codes.getD i 0 * 65536)

/-- A block scale that makes its block NaN (04 R128, R131, R142). -/
def scaleIsNan (b s : Nat) : Bool := if fmtKind b = 3 then s == 0x7F || s > 0x80 else s == 0xFF

/-- The element format has a NaN encoding. -/
def elemHasNan (b : Nat) : Bool := [0, 1, 2, 3, 4].contains (fmtElem b)

/-- BQ8U's decoding table: the FP32 value nearest to (c / 255)^2 (04 R130). -/
def bq8uTable (c : Nat) : Nat := rnd32 ((Num.ofNat (c * c)).div (Num.ofNat 65025))

/-- The signed integer of an INT8, INT4 or BQ8 code. -/
def intCode (b c : Nat) : Int := signedCode (fmtBits b) c

/-- The exact value of one element: its code, its block's scale, its line's zero point (04 Table 4.3, R121-R131, R142). A
NaN-scaled block of a format without NaN decodes to +0; under TRAP the reading command ends before (04 R142). -/
def decodeCode (b : Nat) (t : TileData) (scale : Nat) (z : Int) (code : Nat) : Num :=
  let elem := match fmtFloat b with
    | some f => floatVal f code
    | none => Num.ofInt (intCode b code)
  match fmtKind b with
  | 0 => elem
  | 1 => elem.mul (val32 t.d)
  | 2 =>
    if scale = 0xFF then (if elemHasNan b then .nan else .zero)
    else
      let v := elem.mul (Num.pow2 ((scale : Int) - 127))
      if fmtElem b = 8 then v.mul (Num.pow2 (-6)) else v
  | 3 =>
    if scaleIsNan b scale then .zero
    else ((nq4Val code).mul (floatVal e4m3 (scale % 128))).mul (val32 (t.t * 65536))
  | 4 => if scale = 0xFF then .zero else elem.mul (Num.pow2 ((scale : Int) - 133))
  | 5 => if scale = 0xFF then .zero else (val32 (bq8uTable code)).mul (Num.pow2 ((scale : Int) - 127))
  | _ => (Num.ofInt (intCode b code - z)).mul (val32 t.d)

/-- The code of a valid element. -/
def TileData.code (t : TileData) (g : TShape) (r c : Nat) : Nat := t.elems.getD (r * g.vc + c) 0

/-- The block scale of an element. -/
def TileData.scale (t : TileData) (g : TShape) (b r c : Nat) : Nat := t.scales.getD (g.block b r c) 0

/-- The exact value of a valid element. -/
def TileData.val (t : TileData) (g : TShape) (b r c : Nat) : Num :=
  decodeCode b t (t.scale g b r c) (t.zs.getD (g.line r c) 0) (t.code g r c)

/-- Blocks of a tile that count in NAN_CONVERTED or trap when it is read (04 R142), in elements: 32 each, or 64 for NQ4. -/
def TileData.nanBlockElems (t : TileData) (b : Nat) : Nat :=
  if hasBlocks b && !elemHasNan b then (t.scales.filter (scaleIsNan b)).length * blockSize b else 0

/-! ### Encoding -/

/-- The conversion choices of a command (04 Table 4.4), resolved. -/
structure EncCtl where
  sr : Bool := false
  ovfInf : Bool := false
  intSym : Bool := false
  noclip : Bool := false
  trap : Bool := false
  deriving DecidableEq, Repr

/-- What encoding one element gave: its code, clipped, decided by a draw. -/
structure EncElem where
  code : Nat
  clipped : Bool := false
  drawn : Bool := false
  deriving DecidableEq, Repr

/-- A draw r decides for the upper code: r < floor(f × 65,536), f = num / den (04 R143). -/
def srUp (r num den : Nat) : Bool := r < num * 65536 / den

/-- Encode a magnitude with its sign into a floating format (04 R135-R138, R143). -/
def encFloat (f : FFmt) (ctl : EncCtl) (srcInf : Bool) (y : Num) (r : Nat) : EncElem :=
  let withSign (n : Bool) (c : Nat) := (if n then 2 ^ f.bits else 0) + c
  match y with
  | .nan => { code := f.nanCode.getD 0 }
  | .inf n =>
    match f.infCode with
    | some i =>
      if srcInf then { code := withSign n i } else { code := withSign n (if ctl.ovfInf then i else f.maxCode), clipped := true }
    | none => { code := withSign n f.maxCode, clipped := true }
  | .fin n m e =>
    if (f.mag f.maxCode).lt (.fin false m e) then
      let c := match f.infCode with
        | some i => if ctl.ovfInf && f.nearest m e > f.maxCode then i else f.maxCode
        | none => f.maxCode
      { code := withSign n c, clipped := true }
    else
      let (c, a, d) := f.floorCode m e
      if ctl.sr then
        if a = 0 then { code := withSign n c }
        else if n then { code := withSign n (if srUp r (d - a) d then c else c + 1), drawn := true }
        else { code := withSign n (if srUp r a d then c + 1 else c), drawn := true }
      else { code := withSign n (f.nearest m e) }

/-- floor of a finite value and the remainder as num / den. -/
def floorNum : Num → Int × Nat × Nat
  | .fin n m e =>
    let den : Nat := 2 ^ (-e).toNat
    let x : Int := if n then -((m * 2 ^ e.toNat : Nat) : Int) else ((m * 2 ^ e.toNat : Nat) : Int)
    (x / den, (x % den).toNat, den)
  | _ => (0, 0, 1)

/-- Round a value to an integer: nearest with ties to even, or stochastic (04 R135, R143); the second says a draw decided. -/
def roundInt (sr : Bool) (y : Num) (r : Nat) : Int × Bool :=
  let (k, a, d) := floorNum y
  if a = 0 then (k, false)
  else if sr then (if srUp r a d then k + 1 else k, true)
  else if 2 * a > d || (2 * a == d && k % 2 != 0) then (k + 1, false)
  else (k, false)

/-- Encode a value into integers lo … hi; a value outside them is clipped (04 R123, R136). -/
def encInt (ctl : EncCtl) (w : Nat) (lo hi : Int) (y : Num) (r : Nat) : EncElem :=
  if (Num.ofInt hi).lt y then { code := twos w hi, clipped := true }
  else if y.lt (Num.ofInt lo) then { code := twos w lo, clipped := true }
  else
    let (k, dr) := roundInt ctl.sr y r
    { code := twos w k, drawn := dr }

/-- Encode a value with zero point z (04 R125): the value clips when k + z falls outside the range. -/
def encZero (ctl : EncCtl) (w : Nat) (lo hi z : Int) (y : Num) (r : Nat) : EncElem :=
  match y with
  | .inf n => { code := twos w (if n then lo else hi), clipped := true }
  | _ =>
    let (k, dr) := roundInt ctl.sr y r
    if k + z > hi then { code := twos w hi, clipped := true }
    else if k + z < lo then { code := twos w lo, clipped := true }
    else { code := twos w (k + z), drawn := dr }

/-- Lowest encodable integer (04 R123). -/
def intLo (b : Nat) (sym : Bool) : Int := -(2 ^ (fmtBits b - 1) : Nat) + (if sym then 1 else 0)
/-- Highest encodable integer. -/
def intHi (b : Nat) : Int := (2 ^ (fmtBits b - 1) : Nat) - 1

/-- Largest finite magnitude of the element format: 127 for INT8, 7 for INT4 (04 R145), 1.984375 for MXINT8 (R133). -/
def maxFinite (b : Nat) : Num :=
  match fmtFloat b with
  | some f => f.mag f.maxCode
  | none => if fmtKind b = 2 then .fin false 127 (-6) else Num.ofInt (intHi b)

/-- emax of an MX element format (04 R133). -/
def mxEmax (b : Nat) : Int :=
  match fmtElem b with
  | 3 => 8
  | 4 => 15
  | 5 => 4
  | 6 => 2
  | 7 => 2
  | _ => 0

/-- Clamp an integer. -/
def clampI (lo hi x : Int) : Int := max lo (min hi x)

/-- floor(log2 a) of a positive FP32 magnitude. -/
def log2Of (a : Nat) : Int :=
  match val32 a with
  | .fin _ m e => floorLog2 m e
  | _ => 0

/-- The block scale byte of a block whose largest finite magnitude is a (04 R128, R129, R130, R133); T is NQ4's tensor scale. -/
def blockScale (b : Nat) (ctl : EncCtl) (t a : Nat) : Nat :=
  if a = 0 then 0
  else match fmtKind b with
    | 2 =>
      let s := log2Of a - mxEmax b
      let s := if ctl.noclip && ((maxFinite b).mul (Num.pow2 s)).lt (val32 a) then s + 1 else s
      (clampI (-127) 127 s + 127).toNat
    | 3 =>
      match val32 (fdiv a (t * 65536)) with
      | .fin _ m e =>
        let (c, r, _) := e4m3.floorCode m e
        min (if r = 0 then c else c + 1) e4m3.maxCode
      | _ => e4m3.maxCode
    | 4 => (clampI 0 254 (log2Of a + 127)).toNat
    | _ =>
      let k := log2Of a
      let k := if (Num.pow2 k).lt (val32 a) then k + 1 else k
      (clampI 0 254 (k + 127)).toNat

/-- NQ4: nearest code, ties to the even index (04 R128). -/
def nq4Nearest (y : Num) : Nat :=
  (upFrom 0 15).foldl (fun n i =>
    let t := val32 (nq4Thr.getD i 0)
    if t.lt y || (t.le y && i % 2 == 1) then n + 1 else n) 0

/-- NQ4 with stochastic rounding: f = fp32_rne((y - a) / (b - a)) (04 R143). -/
def nq4Stochastic (y : Num) (r : Nat) : EncElem :=
  let i := (upFrom 1 15).foldl (fun n j => if (nq4Val j).le y then n + 1 else n) 0
  if y.le (nq4Val i) then { code := i }
  else
    let f := rnd32 ((y.sub (nq4Val i)).div ((nq4Val (i + 1)).sub (nq4Val i)))
    let (f16, _, _) := floorNum ((val32 f).mul (Num.pow2 16))
    { code := if (r : Int) < f16 then i + 1 else i, drawn := true }

/-- Encode one FP32 source value (04 R134-R140): the block scale and the zero point of its position are given. -/
def encElem (b : Nat) (ctl : EncCtl) (d t scale : Nat) (z : Int) (x r : Nat) : EncElem :=
  let x := if isNan x && !elemHasNan b then 0 else x
  let v := val32 x
  let srcInf := match v with
    | .inf _ => true
    | _ => false
  match fmtKind b, fmtFloat b with
  | 0, some f => encFloat f ctl srcInf v r
  | 1, some f => encFloat f ctl srcInf (val32 (rnd32 (v.div (val32 d)))) r
  | 1, none => encInt ctl (fmtBits b) (intLo b ctl.intSym) (intHi b) (val32 (rnd32 (v.div (val32 d)))) r
  | 2, some f => encFloat f ctl srcInf (val32 (rnd32 (v.mul (Num.pow2 (127 - (scale : Int)))))) r
  | 2, none =>
    encInt ctl 8 (intLo b ctl.intSym) 127 ((val32 (rnd32 (v.mul (Num.pow2 (127 - (scale : Int)))))).mul (Num.pow2 6)) r
  | 3, _ =>
    match v with
    | .inf n => { code := if n then 0 else 15, clipped := true }
    | _ =>
      let p := (floatVal e4m3 scale).mul (val32 (t * 65536))
      let y := if scale % 128 = 0 then Num.zero else val32 (rnd32 (v.div p))
      if (Num.ofNat 1).lt y.abs then { code := if y.neg? then 0 else 15, clipped := true }
      else if ctl.sr then (if y.isZero then { code := 8 } else nq4Stochastic y r)
      else { code := nq4Nearest y }
  | 4, _ => encInt ctl 8 (-127) 127 (val32 (rnd32 (v.mul (Num.pow2 (133 - (scale : Int)))))) r
  | 5, _ =>
    match v with
    | .inf n => { code := if n then 0 else 255, clipped := true }
    | _ =>
      if v.neg? && !v.isZero then { code := 0, clipped := true }
      else
        let u := rnd32 (val32 (rnd32 (v.mul (Num.pow2 (127 - (scale : Int)))))).sqrt
        let tt := rnd32 ((val32 u).mul (Num.ofNat 255))
        if (Num.ofNat 255).lt (val32 tt) then { code := 255, clipped := true }
        else
          let (k, dr) := roundInt ctl.sr (val32 tt) r
          { code := k.toNat, drawn := dr }
  | _, _ => encZero ctl (fmtBits b) (intLo b ctl.intSym) (intHi b) z (val32 (rnd32 (v.div (val32 d)))) r

/-- A tile as encoded, with what its statistics need (04 R144, R148, R150). -/
structure Enc where
  data : TileData
  /-- elements converted -/
  count : Nat
  clipped : Nat
  drawn : Nat
  /-- NaN elements that a format without NaN took as +0 -/
  nans : Nat
  nanSeen : Bool
  /-- largest finite magnitude before scaling, FP32 -/
  amax : Nat
  guardClip : Bool := false
  guardRange : Bool := false
  deriving DecidableEq, Repr

/-- The largest value in each block for a block scale: finite magnitudes, or for BQ8U finite values with negatives as 0. -/
def blockMax (b : Nat) (l : List Nat) : Nat :=
  if fmtKind b = 5 then amaxOf (l.filter fun x => !bitOf x 31) else amaxOf l

/-- Group the valid cells by block, giving each block's largest value. -/
def blockMaxes (b : Nat) (g : TShape) (xs : Array Nat) : List Nat :=
  (upFrom 0 g.lines).flatMap fun line =>
    (upFrom 0 (g.perLine b)).map fun k =>
      let n := min (blockSize b) ((if g.axis = 0 then g.vc else g.vr) - k * blockSize b)
      blockMax b ((upFrom (k * blockSize b) n).map fun j =>
        let x := xs.getD (if g.axis = 0 then line * g.vc + j else j * g.vc + line) 0
        if isNan x then 0 else x)

/-- ZERO_POINT sums over the reduction positions of each line (04 R125). -/
def zeroSums (b : Nat) (g : TShape) (codes : List Nat) : List Int :=
  (upFrom 0 g.lines).map fun line =>
    ((upFrom 0 (if g.axis = 0 then g.vc else g.vr)).map fun j =>
      intCode b (codes.getD (if g.axis = 0 then line * g.vc + j else j * g.vc + line) 0)).foldl (· + ·) 0

/-- Encode the valid elements of a tile from FP32 values in row-major order, with decode scale d, tensor scale t and the
draw of each position (04 R114-R144). -/
def encodeTile (b : Nat) (ctl : EncCtl) (g : TShape) (d t : Nat) (xs : List Nat) (draws : Nat → Nat → Nat) : Enc :=
  let arr := xs.toArray
  let scales := if hasBlocks b then (blockMaxes b g arr).map (blockScale b ctl t) else []
  let sc := scales.toArray
  let es := (g.cells.zip xs).map fun p =>
    encElem b ctl d t (sc.getD (g.block b p.1.1 p.1.2) 0) 0 p.2 (if ctl.sr then draws p.1.1 p.1.2 else 0)
  let codes := es.map (·.code)
  let kind := fmtKind b
  { data :=
      { elems := codes
        d := if kind = 1 ∨ kind = 6 then d else 0
        t := if kind = 3 then t else 0
        scales
        zs := if kind = 6 then List.replicate g.lines 0 else []
        sums := if kind = 6 then zeroSums b g codes else [] }
    count := xs.length
    clipped := (es.filter (·.clipped)).length
    drawn := (es.filter (·.drawn)).length
    nans := if elemHasNan b then 0 else (xs.filter isNan).length
    nanSeen := xs.any isNan
    amax := amaxOf xs }

/-- fp32_up(a / maxfinite), 1.0 when a is 0 (04 R147, R148). -/
def scaleFor (b a : Nat) : Nat := if a = 0 then one32 else up32 ((val32 a).div (maxFinite b))

/-- The scale guard's clip test (04 R148). -/
def guardClip (cfg : NumCfg) (e : Enc) : Bool := e.amax != 0 && e.clipped * 65536 > cfg.clipShare * e.count

/-- The scale guard's range test (04 R148). -/
def guardRange (cfg : NumCfg) (b d : Nat) (e : Enc) : Bool :=
  cfg.rangeShift != 0 && e.amax != 0
    && ((val32 e.amax).mul (Num.pow2 cfg.rangeShift)).lt ((maxFinite b).mul (val32 d))

/-- Where the decode scale comes from (04 Table 4.4 SCALE_SRC). -/
inductive ScaleSrc where
  | given (d : Nat)
  | hist (d : Nat) (guard : Bool)
  | tile
  deriving DecidableEq, Repr

/-- A tile of which a command writes only some elements: the others keep their codes, and the blocks and lines that it does not
touch keep their scale and zero point (05 R187; 08 R321; log 34). -/
def mergeTile (b : Nat) (g : TShape) (written : List Bool) (old new : TileData) : TileData :=
  let w := written.toArray
  let ix (r c : Nat) : Nat := r * g.vc + c
  let touched (f : Nat × Nat → Nat) : List Nat := ((g.cells.filter fun p => w.getD (ix p.1 p.2) false).map f).eraseDups
  let blocks := touched fun p => g.block b p.1 p.2
  let lines := touched fun p => g.line p.1 p.2
  let codes := (upFrom 0 (g.vr * g.vc)).map fun i => if w.getD i false then new.elems.getD i 0 else old.elems.getD i 0
  { elems := codes
    d := new.d
    t := new.t
    scales := (upFrom 0 new.scales.length).map fun i => if blocks.contains i then new.scales.getD i 0 else old.scales.getD i 0
    zs := (upFrom 0 new.zs.length).map fun i => if lines.contains i then new.zs.getD i 0 else old.zs.getD i 0
    sums := if fmtKind b = 6 then zeroSums b g codes else [] }

/-- Encode the elements of a tile that a command gives a value; the tile's other elements stay as they are. -/
def encodeOver (b : Nat) (ctl : EncCtl) (g : TShape) (d t : Nat) (xs : List (Option Nat)) (old : TileData) (draws : Nat → Nat → Nat) : Enc :=
  let e := encodeTile b ctl g d t (xs.map (·.getD 0)) draws
  if xs.all (·.isSome) then e
  else { e with data := mergeTile b g (xs.map (·.isSome)) old e.data, count := (xs.filter (·.isSome)).length }

/-- Encode a tile under a command's scale source, the scale guard applied (04 R145-R148). -/
def encodeOut (b : Nat) (ctl : EncCtl) (cfg : NumCfg) (src : ScaleSrc) (g : TShape) (t : Nat) (xs : List (Option Nat)) (old : TileData) (draws : Nat → Nat → Nat) : Enc :=
  match src with
  | .given d => encodeOver b ctl g d t xs old draws
  | .tile => encodeOver b ctl g (scaleFor b (amaxOf (xs.filterMap id))) t xs old draws
  | .hist d guard =>
    let e := encodeOver b ctl g d t xs old draws
    let c := guard && guardClip cfg e
    let r := guard && guardRange cfg b d e
    if c || r then { encodeOver b ctl g (scaleFor b e.amax) t xs old draws with guardClip := c, guardRange := r } else e

/-- The statistics record of a tile (04 Table 4.12). -/
def statsRecord (e : Enc) : List Byte :=
  leBytes (e.clipped + (if e.guardClip then 2 ^ 21 else 0) + (if e.guardRange then 2 ^ 22 else 0)
    + (if e.nanSeen then 2 ^ 23 else 0) + e.amax * 2 ^ 32) 8

/-- The counters of Table 4.15 that a committed tile moves. -/
def encCounts (e : Enc) : List (Ctr × Nat) :=
  [(.elemsEncoded, e.count), (.elemsClipped, e.clipped), (.guardClipFires, if e.guardClip then 1 else 0),
   (.guardRangeFires, if e.guardRange then 1 else 0), (.nanConverted, e.nans), (.srElems, e.drawn)]

/-- The tile that a read of an unwritten one delivers (06 R239). -/
def unwrittenTile (b : Nat) (g : TShape) : TileData :=
  { elems := List.replicate (g.vr * g.vc) (if fmtElem b = 10 then 8 else 0)
    d := if fmtKind b = 1 ∨ fmtKind b = 6 then one32 else 0
    t := if fmtKind b = 3 then 0x3F80 else 0
    scales := if hasBlocks b then List.replicate (g.lines * g.perLine b) 0 else []
    zs := if fmtKind b = 6 then List.replicate g.lines 0 else []
    sums := if fmtKind b = 6 then List.replicate g.lines 0 else [] }

/-! ### Tile images (06 R212, R214, R215, R249) -/

/-- The 16,384 element codes of a tile in payload order, padding zero. -/
def allCodes (g : TShape) (t : TileData) : List Nat :=
  (upFrom 0 128).flatMap fun r => (upFrom 0 128).map fun c => if r < g.vr && c < g.vc then t.code g r c else 0

/-- Pack codes of `w` bits, the first in the lowest bits (04 R117; 06 R212). -/
def packBits (w : Nat) (l : List Nat) : List Byte :=
  (chunks8 l).flatMap fun o => leBytes (o.foldr (fun c acc => c + 2 ^ w * acc) 0) w
where
  /-- Groups of eight. -/
  chunks8 : List Nat → List (List Nat)
    | a :: b :: c :: d :: e :: f :: g :: h :: r => [a, b, c, d, e, f, g, h] :: chunks8 r
    | [] => []
    | r => [r]

/-- Payload of a tile. -/
def tilePayload (b : Nat) (g : TShape) (t : TileData) : List Byte := packBits (fmtBits b) (allCodes g t)

/-- Metadata of a tile (06 Table 6.4). -/
def tileMeta (b : Nat) (g : TShape) (t : TileData) : List Byte :=
  let per := 128 / blockSize b
  let blocks (n : Nat) := (upFrom 0 n).map fun i =>
    if i / per < g.lines && i % per < g.perLine b then BitVec.ofNat 8 (t.scales.getD (i / per * g.perLine b + i % per) 0) else 0
  match fmtKind b with
  | 1 => padTo 64 (leBytes t.d 4)
  | 2 => blocks 512
  | 3 => padTo 320 (blocks 256 ++ leBytes t.t 2)
  | 4 => blocks 512
  | 5 => blocks 512
  | 6 =>
    padTo 64 (leBytes t.d 4) ++ padTo 128 (t.zs.map fun z => BitVec.ofNat 8 (twos 8 z))
      ++ padTo 512 (t.sums.flatMap fun x => leBytes (twos 32 x) 4)
  | _ => []

/-- A tile image: payload and metadata, padded to a multiple of 64 (06 R249). -/
def tileImage (b : Nat) (g : TShape) (t : TileData) : List Byte :=
  padTo (64 * ceilDiv (payloadBytes b + metaBytes b) 64) (tilePayload b g t ++ tileMeta b g t)

/-- Length of a tile image. -/
def imageBytes (b : Nat) : Nat := 64 * ceilDiv (payloadBytes b + metaBytes b) 64

/-- Code of element i of a packed payload. -/
def payloadCode (b : Nat) (p : Array Byte) (i : Nat) : Nat :=
  let w := fmtBits b
  let o := i * w / 8
  let n := (p.getD o 0).toNat + 256 * (p.getD (o + 1) 0).toNat + 65536 * (p.getD (o + 2) 0).toNat + 16777216 * (p.getD (o + 3) 0).toNat
  n / 2 ^ (i * w % 8) % 2 ^ w

/-- A tile from its raw payload and metadata: padding is dropped and ZERO_POINT sums are recomputed (06 R249). -/
def tileOfBytes (b : Nat) (g : TShape) (img : List Byte) : TileData :=
  let a := img.toArray
  let m := img.drop (payloadBytes b)
  let codes := g.cells.map fun p => payloadCode b a (p.1 * 128 + p.2)
  let per := 128 / blockSize b
  { elems := codes
    d := if fmtKind b = 1 ∨ fmtKind b = 6 then u32 m 0 else 0
    t := if fmtKind b = 3 then u16 m 256 else 0
    scales :=
      if hasBlocks b then (upFrom 0 g.lines).flatMap fun line => (upFrom 0 (g.perLine b)).map fun k => byteAt m (line * per + k) else []
    zs := if fmtKind b = 6 then (upFrom 0 g.lines).map fun j => signedCode 8 (byteAt m (64 + j)) else []
    sums := if fmtKind b = 6 then zeroSums b g codes else [] }

/-- Scale fields pass the check of 06 R249. -/
def scaleFieldsOk (b : Nat) (t : TileData) : Bool :=
  match fmtKind b with
  | 1 => isFin t.d && !bitOf t.d 31 && t.d != 0
  | 3 => isFin (t.t * 65536) && !bitOf t.t 15 && t.t != 0
  | 6 => isFin t.d && !bitOf t.d 31 && t.d != 0 && t.zs.all fun z => intLo b false ≤ z && z ≤ intHi b
  | _ => true

/-! ### Exponent-plane coding (06 R235-R238) -/

/-- E, the symbol width, of the formats of Table 6.9; 0 for others. -/
def epcE (b : Nat) : Nat :=
  match fmtElem b with
  | 0 => 8
  | 1 => 5
  | 2 => 8
  | 3 => 4
  | 4 => 5
  | 10 => 3
  | _ => 0

/-- Symbol and remainder of an element code (06 Table 6.9). -/
def epcSplit (b c : Nat) : Nat × Nat :=
  if fmtElem b = 10 then (if c ≥ 8 then c - 8 else 7 - c, c / 8)
  else
    let e := epcE b
    let m := fmtBits b - 1 - e
    (c / 2 ^ m % 2 ^ e, c / 2 ^ (m + e) * 2 ^ m + c % 2 ^ m)

/-- The code with a symbol and remainder. -/
def epcJoin (b s r : Nat) : Nat :=
  if fmtElem b = 10 then (if r % 2 = 1 then 8 + s else 7 - s)
  else
    let e := epcE b
    let m := fmtBits b - 1 - e
    r / 2 ^ m * 2 ^ (m + e) + s * 2 ^ m + r % 2 ^ m

/-- Counts of the symbols below s among the 2^E + 1 limits. -/
def cumulative (e : Nat) (syms : List Nat) : Array Nat :=
  let h := syms.foldl (fun (a : Array Nat) s => a.setIfInBounds s (a.getD s 0 + 1)) (Array.replicate (2 ^ e) 0)
  (h.foldl (fun (p : Array Nat × Nat) n => (p.1.push (p.2 + n), p.2 + n)) (#[0], 0)).1

/-- Width, base and cost of least cost for a group, ties to the smaller width and then the smaller base (06 R237). -/
def epcChoose (e : Nat) (syms : List Nat) : Nat × Nat × Nat :=
  match syms with
  | [] => (0, 0, 0)
  | s0 :: _ =>
    if syms.all (· == s0) then (0, s0, 0)
    else
      let cum := cumulative e syms
      let cost (w base : Nat) := 256 * w + e * (256 - (cum.getD (min (base + 2 ^ w - 1) (2 ^ e)) 0 - cum.getD base 0))
      (upFrom 1 e).foldl (fun best w =>
        (upFrom 0 (2 ^ e)).foldl (fun best base => if cost w base < best.2.2 then (w, base, cost w base) else best) best)
        (0, 0, 2 ^ 40)

/-- Fields (value, width) of one group's symbol part (06 R236). -/
def epcGroup (e : Nat) (syms : List Nat) : List (Nat × Nat) :=
  let (w, base, _) := epcChoose e syms
  [(w, 4), (base, e)] ++
    (if w = 0 then [] else syms.flatMap fun s =>
      if base ≤ s && s - base + 2 ≤ 2 ^ w then [(s - base, w)] else [(2 ^ w - 1, w), (s, e)])

/-- Bits of fields, each least significant bit first. -/
def fieldBits (l : List (Nat × Nat)) : List Bool := l.flatMap fun f => (upFrom 0 f.2).map (bitOf f.1)

/-- Eight bits as a byte, the first lowest. -/
def bitsByte (o : List Bool) : Byte := BitVec.ofNat 8 (o.foldr (fun b acc => (if b then 1 else 0) + 2 * acc) 0)

/-- A bit string as bytes, filled from bit 0 of the first byte upward. -/
def bitsToBytes : List Bool → List Byte
  | a :: b :: c :: d :: e :: f :: g :: h :: r => bitsByte [a, b, c, d, e, f, g, h] :: bitsToBytes r
  | [] => []
  | r => [bitsByte r]

/-- Groups of n elements. -/
def groupsOf (n : Nat) (l : List Nat) : List (List Nat) := (upFrom 0 (ceilDiv l.length n)).map fun i => (l.drop (i * n)).take n

/-- The coded payload of a tile's 16,384 codes. -/
def epcCode (b : Nat) (codes : List Nat) : List Byte :=
  let e := epcE b
  let sp := codes.map (epcSplit b)
  bitsToBytes (fieldBits ((groupsOf 256 (sp.map (·.1))).flatMap (epcGroup e)))
    ++ bitsToBytes (fieldBits (sp.map fun p => (p.2, fmtBits b - e)))

/-- Bytes of the coded payload, without building it. -/
def epcLen (b : Nat) (codes : List Nat) : Nat :=
  let e := epcE b
  let gs := groupsOf 256 (codes.map fun c => (epcSplit b c).1)
  ceilDiv ((gs.map fun g => 4 + e + (epcChoose e g).2.2).foldl (· + ·) 0) 8 + ceilDiv (16384 * (fmtBits b - e)) 8

/-- A tile is stored coded only where coding is shorter (06 R238). -/
def storedCoded (b : Nat) (g : TShape) (t : TileData) : Bool × Nat :=
  if epcE b = 0 then (false, payloadBytes b)
  else
    let n := epcLen b (allCodes g t)
    if n < payloadBytes b then (true, n) else (false, payloadBytes b)

/-- Bit j of a byte string. -/
def bitAt (p : Array Byte) (j : Nat) : Bool := bitOf (p.getD (j / 8) 0).toNat (j % 8)

/-- A field of n bits at bit j. -/
def fieldAt (p : Array Byte) (j : Nat) : Nat → Nat
  | 0 => 0
  | n + 1 => (if bitAt p j then 1 else 0) + 2 * fieldAt p (j + 1) n

/-- Decode n symbols of a group from bit j: the symbols in reverse, and the next bit. -/
def epcSyms (p : Array Byte) (e w base : Nat) : Nat → Nat → List Nat → List Nat × Nat
  | 0, j, acc => (acc, j)
  | n + 1, j, acc =>
    if w = 0 then epcSyms p e w base n j (base :: acc)
    else
      let c := fieldAt p j w
      if c = 2 ^ w - 1 then epcSyms p e w base n (j + w + e) (fieldAt p (j + w) e :: acc)
      else epcSyms p e w base n (j + w) ((base + c) :: acc)

/-- Decode n groups: none where a width exceeds E (06 R226). -/
def epcGroups (p : Array Byte) (e : Nat) : Nat → Nat → List Nat → Option (List Nat × Nat)
  | 0, j, acc => some (acc, j)
  | n + 1, j, acc =>
    let w := fieldAt p j 4
    if w > e then none
    else
      let (acc, j) := epcSyms p e w (fieldAt p (j + 4) e) 256 (j + 4 + e) acc
      epcGroups p e n j acc

/-- The codes and the length in bytes of a coded payload; none for a malformed one (06 R226). -/
def epcDecode (b : Nat) (bytes : List Byte) : Option (List Nat × Nat) :=
  let p := bytes.toArray
  let e := epcE b
  if e = 0 then none
  else match epcGroups p e 64 0 [] with
    | none => none
    | some (syms, j) =>
      let o := ceilDiv j 8
      let w := fmtBits b - e
      let rem := (upFrom 0 16384).map fun i => fieldAt p (o * 8 + i * w) w
      let n := o + ceilDiv (16384 * w) 8
      if n ≤ bytes.length then some ((syms.reverse.zip rem).map fun q => epcJoin b q.1 q.2, n) else none

/-! ### NUMCTL (04 Table 4.4) -/

/-- NUMCTL's fields. -/
structure NumCtl where
  slot : Nat
  src : Nat
  advance : Bool
  noclip : Bool
  guard : Nat
  nan : Nat
  intSym : Bool
  ovfInf : Bool
  sr : Bool
  deriving DecidableEq, Repr

/-- The fields of the word. -/
def numctlOf (w : Nat) : NumCtl where
  slot := bitsOf w 23 12
  src := bitsOf w 11 10
  advance := bitOf w 9
  noclip := bitOf w 8
  guard := bitsOf w 7 6
  nan := bitsOf w 5 4
  intSym := bitOf w 3
  ovfInf := bitOf w 2
  sr := bitOf w 0

/-- No reserved encoding and no nonzero reserved bit (04 R118). -/
def numctlValid (w : Nat) : Bool :=
  bitsOf w 31 24 == 0 && !bitOf w 1 && bitsOf w 11 10 != 3 && bitsOf w 7 6 != 3 && bitsOf w 5 4 != 3

/-- The conversion choices of a control word under a compartment's configuration (04 R118, R120). -/
def NumCtl.ctl (n : NumCtl) (cfg : NumCfg) : EncCtl where
  sr := n.sr
  ovfInf := n.ovfInf
  intSym := n.intSym
  noclip := n.noclip
  trap := if n.nan = 0 then cfg.trap else n.nan == 2

/-- A given decode scale is a positive normal finite value (04 R119). -/
def givenScaleOk (d : Nat) : Bool := isFin d && !bitOf d 31 && d ≥ 0x00800000

/-- An NQ4 tensor scale given in FP32: exactly a finite positive BF16 value (04 R127). -/
def nq4ScaleOk (d : Nat) : Bool := d % 65536 == 0 && isFin d && !bitOf d 31 && d != 0

end Sys2Proof.Machine
end

