-- ==== Sys2Proof/Machine/Messages.lean ====
section
/-! DEFINITION. Messages between devices: headers, routes and the ports that carry them (13 R480-R484). -/

namespace Sys2Proof.Machine

/-- A port. -/
def State.port (s : State) (p : Nat) : Port := Tab.get {} s.link.ports p

/-- Replace a port. -/
def State.setPort (s : State) (p : Nat) (x : Port) : State := { s with link := { s.link with ports := Tab.set s.link.ports p x } }

/-- Change a port. -/
def State.modPort (s : State) (p : Nat) (f : Port → Port) : State := s.setPort p (f (s.port p))

/-- The value listed at a key of an association list, or 0. -/
def assocGet (l : List ((Nat × Nat × Nat) × Nat)) (k : Nat × Nat × Nat) : Nat := ((l.find? fun p => decide (p.1 = k)).map (·.2)).getD 0

/-- Write a key of an association list. -/
def assocSet (l : List ((Nat × Nat × Nat) × Nat)) (k : Nat × Nat × Nat) (v : Nat) : List ((Nat × Nat × Nat) × Nat) :=
  (l.filter fun p => decide (p.1 ≠ k)) ++ [(k, v)]

/-- The message header (13 Table 13.3). -/
def LinkMsg.header (m : LinkMsg) : List Byte :=
  layout 32 [(0, 2, m.dest), (2, 2, m.src), (4, 2, m.span), (6, 1, m.type), (7, 1, m.hops), (8, 2, m.groupIndex), (10, 2, m.gen),
    (12, 4, m.payload.length), (16, 8, m.msgId), (24, 8, m.seqKey)]

/-- A message from its bytes; none where LENGTH disagrees (13 R483). -/
def msgOf (vc : Nat) (b : List Byte) : Option LinkMsg :=
  let n := u32 b 12
  if 32 + n ≤ b.length ∧ n ≤ 2 ^ 20 then
    some { vc, dest := u16 b 0, src := u16 b 2, span := u16 b 4, type := u8 b 6, hops := u8 b 7, groupIndex := u16 b 8, gen := u16 b 10
           msgId := u64 b 16, seqKey := u64 b 24, payload := (b.drop 32).take n }
  else none

/-- Pieces of at most n bytes, one at least. -/
def pieces (n : Nat) (b : List Byte) : List (List Byte) := if b.isEmpty then [[]] else (chunks n (b.length / n + 1) b).filter fun x => !x.isEmpty

/-- Ports of a mask that take new messages (13 R484, R490). -/
def State.openPorts (s : State) (mask : Nat) : List Nat :=
  (bitList mask 16).filter fun i => decide ((s.port i).st = .up) && (s.port i).disable.all fun d => s.stroke.number < d.1

/-- The next port of a rotation. -/
def nextPort (from_ : Nat) (l : List Nat) : Option Nat := (l.find? (from_ ≤ ·)).or l.head?

/-- The DATA flits of a message wait on a port (13 R483). -/
def State.queueFlits (s : State) (p : Nat) (m : LinkMsg) : State :=
  let ps := pieces 240 (m.header ++ m.payload)
  s.modPort p fun x => { x with outbox := x.outbox ++ (upFrom 0 ps.length).map fun i => (m.vc, i + 1 == ps.length, padTo 240 (ps.getD i []), m) }

/-- TYPE codes of the messages this model forms (log 36). -/
def relType : Nat := 12
def typeMember : Nat := 16

/-- A MEMBERSHIP message: sent hop by hop, without a MSG_ID (13 R481). -/
def LinkMsg.isMembers (m : LinkMsg) : Bool := m.vc == 3 && m.type == typeMember

/-- A member list as a MEMBERSHIP message carries it: each NODE_ID with its incarnation (13 R481; log 36). -/
def memberBytes (l : List Member) : List Byte := l.flatMap fun m => leBytes m.node 2 ++ leBytes m.incarnation 8 ++ leBytes m.priority 1

/-- Tell the neighbours on UP ports, one left out, the member list and the reference (13 R491). -/
def State.tellMembers (s : State) (but : Option Nat) : State :=
  (s.link.ports.filter fun p => decide (p.2.st = .up) && decide (some p.1 ≠ but)).foldl (fun s p =>
    s.queueFlits p.1
      { vc := 3, dest := p.2.peer.getD 0xFFFF, src := s.link.node.getD 0xFFFF, span := 0, type := typeMember, hops := 1, groupIndex := 0xFFFF, gen := 0
        msgId := 0, seqKey := s.link.ref.getD 0xFFFF, payload := memberBytes s.link.members }) s

/-- A message takes an UP port of its route in rotation; one with no UP port is dropped, a release is kept; one to a node
that the member list does not hold yet waits (13 R481, R484, R499). -/
def State.routeMsg (s : State) (m : LinkMsg) : State :=
  let keep (s : State) : State := { s with link := { s.link with waiting := s.link.waiting ++ [m] } }
  if !s.link.members.any fun x => x.node == m.dest then keep s
  else match nextPort (Tab.get 0 s.link.rotation m.dest) (s.openPorts (Tab.get 0 s.link.routes m.dest)) with
    | some p =>
      let s : State := { s with link := { s.link with rotation := Tab.set s.link.rotation m.dest (p + 1) } }
      s.queueFlits p m
    | none => if m.type = relType then keep s else { s with link := { s.link with routeDrops := sat64 s.link.routeDrops 1 } }

/-- The run under way is that of a compartment (13 R480, R484). -/
def State.inRunOf (s : State) (k : Nat) : Bool := decide (s.stroke.phase = .execute) && s.stroke.current == some k

/-- SPAN_ID of a compartment's span. -/
def State.spanId (s : State) (k : Nat) : Nat := ((s.comp k).span.map (·.id)).getD 0

/-- Send a message of a compartment: at once in a run, otherwise in its next run; more than 1 MiB goes as several messages
(13 R481, R483; log 36). -/
def State.sendMsg (s : State) (k vc type dest group gen key : Nat) (payload : List Byte) : State :=
  (pieces (2 ^ 20) payload).foldl (fun s b =>
    let src := s.link.node.getD 0xFFFF
    let at_ := (src, s.spanId k, vc)
    let id := assocGet s.link.sentIds at_ + 1
    let m : LinkMsg := { vc, dest, src, span := s.spanId k, type, hops := 8, groupIndex := group, gen, msgId := id, seqKey := key, payload := b }
    let s : State := { s with link := { s.link with sentIds := assocSet s.link.sentIds at_ id } }
    if s.inRunOf k then s.routeMsg m else { s with link := { s.link with waiting := s.link.waiting ++ [m] } }) s

/-- At the start of a run its waiting messages go out, and every port may start a segment (13 R480, R490). -/
def State.flushSpan (s : State) (k : Nat) : State :=
  match (s.comp k).span with
  | none => s
  | some sp =>
    let go := s.link.waiting.filter fun m => m.span == sp.id
    let s : State := { s with link := { s.link with waiting := s.link.waiting.filter fun m => m.span != sp.id } }
    go.foldl State.routeMsg s

end Sys2Proof.Machine
end

