-- ==== Sys2Proof/Machine/Random.lean ====
section
/-! DEFINITION. The counter-based generator and its draws (10 R393-R397). -/

namespace Sys2Proof.Machine

/-- The four words of a generator state. -/
structure Words4 where
  x0 : Nat
  x1 : Nat
  x2 : Nat
  x3 : Nat
  deriving DecidableEq, Repr

/-- One round (10 R393). -/
def philoxRound (c : Words4) (k0 k1 : Nat) : Words4 :=
  let p0 := 0xD2511F53 * c.x0
  let p1 := 0xCD9E8D57 * c.x2
  { x0 := (p1 / 2 ^ 32) ^^^ c.x1 ^^^ k0
    x1 := p1 % 2 ^ 32
    x2 := (p0 / 2 ^ 32) ^^^ c.x3 ^^^ k1
    x3 := p0 % 2 ^ 32 }

/-- `n` rounds, the key bumped between rounds (10 R393). -/
def philoxRounds : Nat → Words4 → Nat → Nat → Words4
  | 0, c, _, _ => c
  | n + 1, c, k0, k1 => philoxRounds n (philoxRound c k0 k1) ((k0 + 0x9E3779B9) % 2 ^ 32) ((k1 + 0xBB67AE85) % 2 ^ 32)

/-- Philox4x32-10 (10 R393). -/
def philox (c : Words4) (k0 k1 : Nat) : Words4 := philoxRounds 10 c k0 k1

/-- The 128-bit output of block BLOCK under a seed and stream (10 R394, R395). -/
def randBlock (seed stream block : Nat) : Nat :=
  let c := stream * 2 ^ 32 + block
  let x := philox ⟨c % 2 ^ 32, c / 2 ^ 32 % 2 ^ 32, c / 2 ^ 64 % 2 ^ 32, c / 2 ^ 96 % 2 ^ 32⟩ (seed % 2 ^ 32) (seed / 2 ^ 32 % 2 ^ 32)
  x.x0 + x.x1 * 2 ^ 32 + x.x2 * 2 ^ 64 + x.x3 * 2 ^ 96

/-- The draw of width `w` for element index `i` (10 R395). -/
def randDraw (seed stream w i : Nat) : Nat := randBlock seed stream (i * w / 128) / 2 ^ (i % (128 / w) * w) % 2 ^ w

/-- Element index of (p, r, c) (10 R396). -/
def elemIndex (lrows lcols rowBase colBase p r c : Nat) : Nat := ((p * lrows) + r + rowBase) * lcols + (c + colBase)

end Sys2Proof.Machine
end

