-- ==== Sys2Proof/Machine/Work.lean ====
section
/-! DEFINITION. Work on tensors and buffers: space, addresses, reads, seals and staged writes (06 R207-R242), shared by every
command that computes. -/

namespace Sys2Proof.Machine

/-- Why work stops before its end. -/
inductive Stop where
  | fail (e : Err)
  | wait
  | space
  /-- a tile on a peer has not arrived: the work is done again when it has (13 R498) -/
  | peer
  /-- the checks of a first quantum have passed and what they reserve is reserved (03 R87; 06 R228) -/
  | planned
  /-- the quantum ends with work left (02 R48) -/
  | part

/-- Work of one command: it changes the state and may stop. -/
abbrev Run (α : Type) := ExceptT Stop (StateM State) α

/-- Complete the command with a status and DETAIL. -/
def failWith {α : Type} (st : Status) (detail : Nat := 0) : Run α := throw (.fail ⟨st, detail⟩)

/-- Require a condition. -/
def req (b : Bool) (st : Status) (detail : Nat := 0) : Run Unit := if b then pure () else failWith st detail

/-- Require a field at an offset to be in range (05 R205). -/
def fld (b : Bool) (off : Nat) : Run Unit := req b .badParam off

/-- A check. -/
def chk {α : Type} (x : Chk α) : Run α :=
  match x with
  | .ok a => pure a
  | .error e => throw (.fail e)

/-- A value that must be present. -/
def some! {α : Type} (x : Option α) (st : Status) (detail : Nat := 0) : Run α :=
  match x with
  | some a => pure a
  | none => failWith st detail

/-- Run work to its end: what a failed or waiting command staged is discarded, counts taken stay taken (06 R228, R229); work that
waits for a peer leaves its compartment as it was, so that nothing counts twice; what an ended quantum staged is kept (02 R50). -/
def runWork (s : State) (m : Run (Status × Nat)) : Chk Fin :=
  match (ExceptT.run m).run s with
  | (.ok (st, d), s') => .ok (.done s' st d)
  | (.error (.fail e), s') => .ok (.done { s' with commits := s.commits, records := s.records, resv := s.resv } e.st e.detail)
  | (.error .planned, s') => .ok (.done s' .ok 0)
  | (.error .part, s') => .ok (.part s')
  | (.error .wait, s') => .ok (.wait { s' with commits := s.commits, records := s.records })
  | (.error .peer, s') => .ok (.wait { s' with commits := s.commits, records := s.records, comps := s.comps, works := s.works })
  | (.error .space, s') => .ok (.space { s' with commits := s.commits, records := s.records, resv := s.resv })

/-! ### Planning and quanta (02 R48-R53; 03 R87; 04 R120) -/

/-- A check that is made when the first quantum is planned, and not again (04 R119; 06 R675). -/
def reqPlan (b : Bool) (st : Status) (detail : Nat := 0) : Run Unit := do
  if (← get).executesPlan then pure () else req b st detail

/-- A field that is checked when the first quantum is planned, and not again. -/
def fldPlan (b : Bool) (off : Nat) : Run Unit := reqPlan b .badParam off

/-- What the quantum has not asked for yet. -/
def State.setSnap (s : State) (x : Snap) : State := { s with act := { s.act with snap := some x } }

/-- The plan of a first quantum ends here; everything below is its work. -/
def endPlan : Run Unit := do
  if (← get).act.trial then
    modify fun s => match s.act.snap with
      | some x => s.setSnap { x with ready := true }
      | none => s
    throw .planned

/-- A value that the planning of the first quantum takes, and that every quantum finds again (06 R246). -/
def taken (m : Run Nat) : Run Nat := do
  match (← get).act.snap with
  | none => m
  | some _ =>
    if (← get).act.trial then
      let v ← m
      modify fun s => match s.act.snap with
        | some x => s.setSnap { x with taken := x.taken ++ [v] }
        | none => s
      pure v
    else
      match (← get).act.snap.map fun x => (x, x.taken) with
      | some (x, v :: r) =>
        modify (·.setSnap { x with taken := r })
        pure v
      | _ => m

/-- A free value (log 6). -/
def freshDraw : Run Nat := do
  let (n, s) := (← get).draw
  set s
  pure n

/-- The same of several values. -/
def takenAll (m : Run (List Nat)) : Run (List Nat) := do
  if (← get).executesPlan then
    let n ← taken (pure 0)
    (upFrom 0 n).mapM fun _ => taken (pure 0)
  else
    let l ← m
    let _ ← taken (pure l.length)
    l.mapM fun v => taken (pure v)

/-- The judgement of the integer path: made from the decode scales as they stand when the first quantum is planned, and held for
every quantum (05 R169). -/
def judged (f : State → List (List (Option Nat))) : Run (List (List (Option Nat))) := do
  let s ← get
  match s.act.snap with
  | none => pure (f s)
  | some x =>
    if s.act.trial then
      let v := f s
      set (s.setSnap { x with judged := v })
      pure v
    else pure x.judged

/-- The numeric configuration that a command uses: the one in force when its first quantum was planned (04 R120). -/
def State.numOf (s : State) (k : Nat) : NumCfg := (s.act.snap.map (·.num)).getD (s.comp k).num

/-- The scale-history slots as they stood when its first quantum was planned (04 R120). -/
def State.histOf (s : State) (k : Nat) : Tab HistSlot := (s.act.snap.map (·.hist)).getD (s.comp k).hist

/-- The work of a command as its earlier quanta left it. -/
def State.workOf (s : State) (c : Cmd) (k : Nat) : Work := (s.works.find? fun w => w.order == c.order).getD { order := c.order, comp := k }

/-- Keep the work of a command. -/
def State.setWork (s : State) (w : Work) : State := { s with works := (s.works.filter fun x => x.order != w.order) ++ [w] }

/-- The work of a command ends. -/
def State.endWork (s : State) (order : Nat) : State := { s with works := s.works.filter fun w => w.order != order }

/-- How the work of a command is cut: its units (accumulator tiles, or whole outputs), the steps of each, the step at which a cut
asked for at a step falls, its output tiles, and the units that each output tile is formed from (02 R48; 05 R163). -/
structure Job where
  units : Nat
  steps : Nat → Nat
  cut : Nat → Nat → Nat
  outs : List Nat
  deps : Nat → List Nat
  /-- units that go on from a unit: a later chunk, or the accumulator tiles that use a U -/
  next : Nat → List Nat := fun _ => []

/-- What a quantum does of one unit: from a step to a step, with the values carried so far. -/
structure Piece where
  tile : AccTile
  till : Nat
  anvil : Option Nat
  deriving DecidableEq, Repr

/-- A unit of the work is whole. -/
def Job.whole (j : Job) (w : Work) (u : Nat) : Bool :=
  w.tiles.any fun t => t.unit == u && t.steps == j.steps u

/-- The carried tile of a unit; one not begun is empty. -/
def Work.tileOf (w : Work) (u : Nat) : Option AccTile := w.tiles.find? fun t => t.unit == u

/-- Bytes of one accumulator tile (02 R48). -/
def accBytes : Nat := 65536

/-- Engine-local SRAM of the four compute dies, bytes (06 Table 6.1). -/
def engineLocal : Nat := 4 * 176 * 2 ^ 20

/-- Bytes of a compartment's engine-local partition: no more than there are (02 R49; 06 R207). -/
def partitionBytes (units : Nat) : Nat := min (Config.sramPartition units) engineLocal

/-- The partition holds one carried tile for each Anvil in use (02 R49). -/
def carries (units : Nat) (l : List Reach) : Bool := accBytes * (l.map (·.anvil)).eraseDups.length ≤ partitionBytes units

/-- One unit as a quantum takes it up to a step. -/
def Job.piece (j : Job) (w : Work) (carry : Bool) (r : Reach) : Option Piece :=
  let n := j.steps r.unit
  let t := (w.tileOf r.unit).getD { unit := r.unit, steps := 0, vals := [] }
  if r.unit < j.units && !j.whole w r.unit then
    if n ≤ r.steps then some { tile := t, till := n, anvil := some r.anvil }
    else if carry && t.steps < j.cut r.unit r.steps then some { tile := t, till := j.cut r.unit r.steps, anvil := some r.anvil }
    else none
  else none

/-- What this quantum does: all that is left, or the units its cut names (02 R48, R49). -/
def Job.pieces (j : Job) (c : Cmd) (k : Nat) : Run (List Piece) := do
  let s ← get
  let w := s.workOf c k
  if s.act.reach.isEmpty then
    pure (((upFrom 0 j.units).filter fun u => !j.whole w u).map fun u =>
      { tile := (w.tileOf u).getD { unit := u, steps := 0, vals := [] }, till := j.steps u, anvil := none })
  else
    let l := s.act.reach.filterMap (j.piece w (carries (s.comp k).slice.count s.act.reach))
    pure (l.filter fun p => (l.find? fun q => q.tile.unit == p.tile.unit) == some p)

/-- The Anvil that worked on a unit: a whole tile goes to the epilogue unit, a partial one goes on receiving steps (05 R162). -/
def State.placeTile (s : State) (order n : Nat) (t : AccTile) (full : Bool) : State :=
  { s with anvils := Tab.modify {} s.anvils n fun a =>
      if full then { receiving := none, draining := some (order, t) } else { a with receiving := some (order, t) } }

/-- Keep the tiles that this quantum's pieces became. -/
def Job.bank (j : Job) (c : Cmd) (k : Nat) (l : List (Piece × AccTile)) : Run Unit := modify fun s =>
  let w := s.workOf c k
  let here (t : AccTile) : Bool := l.any fun p => p.2.unit == t.unit
  let s := s.setWork { w with tiles := w.tiles.filter (fun t => !here t) ++ l.map (·.2) }
  l.foldl (fun s p => match p.1.anvil with
    | some n => s.placeTile c.order n p.2 (p.2.steps == j.steps p.2.unit)
    | none => s) s

/-- The output tiles that can be produced now: every accumulator they are formed from is whole. -/
def Job.ready (j : Job) (c : Cmd) (k : Nat) : Run (List Nat) := do
  let w := (← get).workOf c k
  pure (j.outs.filter fun v => !w.done.contains v && (j.deps v).all (j.whole w))

/-- Output tiles are produced: they are held uncommitted, and the values of accumulators that nothing waits for any more are given
up. The work ends with the last quantum (02 R50). -/
def Job.close (j : Job) (c : Cmd) (k : Nat) (outs : List Nat) : Run Unit := do
  modify fun s =>
    let w := s.workOf c k
    let done := w.done ++ outs
    let needed (t : AccTile) : Bool := t.steps != j.steps t.unit || (j.next t.unit).any (fun u => !j.whole w u)
      || j.outs.any fun v => !done.contains v && (j.deps v).contains t.unit
    s.setWork { w with done, tiles := w.tiles.map fun t => if needed t then t else { t with vals := [], held := [] } }
  if (← get).act.reach.isEmpty then modify (·.endWork c.order) else throw .part

/-- A job of whole outputs: nothing is accumulated across a cut. -/
def Job.outputs (l : List Nat) : Job :=
  { units := l.foldl (fun m n => max m (n + 1)) 0, steps := fun _ => 1, cut := fun _ _ => 0, outs := l, deps := fun v => [v] }

/-- The value at a place of a unit's tile. -/
def Work.acc (w : Work) (u i : Nat) : Nat := ((w.tileOf u).map fun t => t.vals.getD i 0).getD 0

/-- The issuing compartment. -/
def vfOf (c : Cmd) : Run Nat :=
  match c.fn with
  | .vf k => pure k
  | .pf => failWith .notPermitted

/-- Leave a result for the settle phase. -/
def stage (c : Cmd) (w : Commit) : Run Unit := modify fun s => s.commit c w

/-- Counters that increase when the work commits. -/
def stageCounts (c : Cmd) (k : Nat) (l : List (Ctr × Nat)) : Run Unit := stage c (.count k (l.filter fun p => p.2 != 0))

/-- Counters that increase at once. -/
def bumpNow (k : Nat) (x : Ctr) (n : Nat) : Run Unit := if n = 0 then pure () else modify fun s => s.bump k x n

/-! ### Shapes -/

/-- Row tiles and column tiles (06 R217). -/
def Tensor.rt (t : Tensor) : Nat := ceilDiv t.rows 128
def Tensor.ct (t : Tensor) : Nat := ceilDiv t.cols 128

/-- TILE_COUNT. -/
def Tensor.count (t : Tensor) : Nat := t.batch * t.rt * t.ct

/-- Descriptor index of product p, row tile i, column tile u. -/
def Tensor.index (t : Tensor) (p i u : Nat) : Nat := (p * t.rt + i) * t.ct + u

/-- Product, row tile and column tile of a descriptor index. -/
def Tensor.place (t : Tensor) (n : Nat) : Nat × Nat × Nat := (n / t.ct / t.rt, n / t.ct % t.rt, n % t.ct)

/-- The valid part of tile n (06 R215). -/
def Tensor.shape (t : Tensor) (n : Nat) : TShape :=
  let (_, i, u) := t.place n
  { axis := t.axis, vr := min 128 (t.rows - 128 * i), vc := min 128 (t.cols - 128 * u) }

/-- Bytes of a table, rounded up (06 R216). -/
def Tensor.tableBytes (t : Tensor) : Nat := 4096 * ceilDiv (64 + 32 * t.count) 4096

/-- Bytes of every slot in the home tier (06 R219). -/
def Tensor.homeBytes (t : Tensor) : Nat := t.count * (if t.home = 0 then hearthBytes t.fmt else slotBytes t.fmt)

/-- Space a tensor takes: Hearth, HBM and host-window bytes; an alias table takes 4,096 (07 R267). -/
def Tensor.space (t : Tensor) : Nat × Nat × Nat :=
  if t.base.isSome then (0, 4096, 0)
  else match t.home with
    | 0 => (t.homeBytes, t.tableBytes, 0)
    | 1 => (0, t.tableBytes + t.homeBytes, 0)
    | 2 => (0, t.tableBytes, t.homeBytes)
    | _ => (0, t.tableBytes, 0)

/-- Pages of a buffer. -/
def Buffer.count (b : Buffer) : Nat := ceilDiv b.len 16384

/-- Space a buffer takes (06 R220). -/
def Buffer.space (b : Buffer) : Nat × Nat × Nat := if b.home = 0 then (16384 * b.count, 0, 0) else (0, 16512 * b.count, 0)

/-- Sum of two space triples. -/
def addSpace (a b : Nat × Nat × Nat) : Nat × Nat × Nat := (a.1 + b.1, a.2.1 + b.2.1, a.2.2 + b.2.2)

/-- Sum of a list of space triples. -/
def sumSpace (l : List (Nat × Nat × Nat)) : Nat × Nat × Nat := l.foldl addSpace (0, 0, 0)

/-! ### Shards of a training state (09 R349) -/

/-- Row tiles and column tiles of a trainable tensor. -/
def Trainable.rt (x : Trainable) : Nat := ceilDiv x.rows 128
def Trainable.ct (x : Trainable) : Nat := ceilDiv x.cols 128

/-- Shards in order: trainable tensor, first row tile and end. -/
def Train.shards (t : Train) : List (Nat × Nat × Nat) :=
  (upFrom 0 t.tensors.length).flatMap fun i => match t.tensors[i]? with
    | none => []
    | some x => (upFrom 0 (ceilDiv x.rt t.shardRowTiles)).map fun j => (i, j * t.shardRowTiles, min x.rt ((j + 1) * t.shardRowTiles))

/-- Holders of shard k. -/
def Train.holders (t : Train) (k : Nat) : List Nat := (upFrom 0 t.copies).map fun i => (k + i) % t.replicas

/-- This replica holds shard k. -/
def Train.holds (t : Train) (k : Nat) : Bool := (t.holders k).contains t.index

/-- Descriptor indices of a shard's tiles, ascending. -/
def Train.shardTiles (t : Train) (k : Nat) : List Nat :=
  match (t.shards)[k]? with
  | none => []
  | some (i, a, b) => match t.tensors[i]? with
    | none => []
    | some x => upFrom (a * x.ct) ((b - a) * x.ct)

/-- Tiles of all trainable tensors, and of the shards this replica holds. -/
def Train.tilesAll (t : Train) : Nat := (t.tensors.map fun x => x.rt * x.ct).foldl (· + ·) 0
def Train.tilesHeld (t : Train) : Nat :=
  ((upFrom 0 t.shards.length).map fun k => if t.holds k then (t.shardTiles k).length else 0).foldl (· + ·) 0

/-- Bytes of a tile in a home tier (06 R219). -/
def tileBytes (home fmt : Nat) : Nat := if home = 0 then hearthBytes fmt else slotBytes fmt

/-- Bytes reserved in NEAR_HOME, STATE_HOME and CKPT_HOME (09 Table 9.1). -/
def Train.nearBytes (t : Train) : Nat := t.tilesAll * (2 * tileBytes t.nearHome 2 + tileBytes t.nearHome 0)
def Train.stateBytes (t : Train) : Nat :=
  t.tilesHeld * (tileBytes t.stateHome 0 + (1 + t.delay) * tileBytes t.stateHome 0x4B + tileBytes t.stateHome 0x5B)
def Train.ckptBytes (t : Train) : Nat :=
  2 * (t.tilesAll * tileBytes t.ckptHome 2 + t.tilesHeld * (tileBytes t.ckptHome 0 + tileBytes t.ckptHome 0x4B + tileBytes t.ckptHome 0x5B))

/-- Bytes in a home tier as a space triple. -/
def homeSpace (home n : Nat) : Nat × Nat × Nat :=
  match home with
  | 0 => (n, 0, 0)
  | 1 => (0, n, 0)
  | 2 => (0, 0, n)
  | _ => (0, 0, 0)

/-- Space of a training state but for the tables and slots of its working copies and local gradients. -/
def Train.space (t : Train) : Nat × Nat × Nat :=
  sumSpace [homeSpace t.nearHome (t.tilesAll * tileBytes t.nearHome 2), homeSpace t.stateHome t.stateBytes, homeSpace t.ckptHome t.ckptBytes]

/-- Bytes of a queued feedback record, padded (09 R351). -/
def FbRecord.bytes (r : FbRecord) : Nat := 64 * ceilDiv (64 + r.cipher.length + 16) 64

/-- Bytes of a layer's page table: one entry for a page index, or for a ring position (08 R309, R318). -/
def KvLayer.tableBytes (ring : Nat) (l : KvLayer) : Nat :=
  let top := (l.pages.map fun p => p.1 + 1).foldl max 0
  4096 * ceilDiv (if ring = 0 then top else min top ring) 512

/-- Space a compartment's objects take: Hearth, HBM and host bytes (06 R228, 08 R309, 09 R350). -/
def Comp.space (x : Comp) : Nat × Nat × Nat :=
  let pages (st : StreamCtx) : Nat := (st.layers.map (KvLayer.tableBytes st.ringPages)).foldl (· + ·) 0
  let vars (v : Variant) : Nat × Nat × Nat :=
    sumSpace [(0, (v.queue.map FbRecord.bytes).foldl (· + ·) 0 + (v.forging.map (·.bytes)).getD 0, 0), (v.train0.map Train.space).getD (0, 0, 0), (v.train2.map Train.space).getD (0, 0, 0)]
  sumSpace ((x.tensors.map fun p => p.2.space) ++ (x.buffers.map fun p => p.2.space)
    ++ (x.streams.map fun p => (0, pages p.2, 0)) ++ (x.variants.map fun p => vars p.2)
    ++ [(0, (x.peerHeld.map fun p => p.2.length).foldl (· + ·) 0, 0)])

/-- Space in use, reservations included, those of one command left out. -/
def State.spaceUsed (s : State) (k order : Nat) : Nat × Nat × Nat :=
  sumSpace ((s.comp k).space :: (s.resv.filter fun r => r.comp == k && r.order != order).map fun r => (r.hearth, r.hbm, r.host))

/-- The home part of the Hearth share (06 R232; 12 R447: 64 MiB in a unit). -/
def Comp.hearthHome (x : Comp) : Nat := x.hearthUnits * 2 ^ 26 * (16 - x.mem.sixteenths) / 16

/-- The cache part of the Hearth share. -/
def Comp.hearthCache (x : Comp) : Nat := x.hearthUnits * 2 ^ 26 * x.mem.sixteenths / 16

/-- Space is free for a need (06 R228). -/
def State.spaceFree (s : State) (k order : Nat) (n : Nat × Nat × Nat) : Bool :=
  let u := s.spaceUsed k order
  let x := s.comp k
  (n.1 == 0 || u.1 + n.1 ≤ x.hearthHome) && (n.2.1 == 0 || u.2.1 + n.2.1 ≤ x.hbmGib * 2 ^ 30)
    && (n.2.2 == 0 || u.2.2 + n.2.2 ≤ (x.hostWin.map (·.2)).getD 0)

/-- Reserve space, or stay unplanned with SLOT_WAITS increased (06 R228). -/
def reserve (c : Cmd) (k : Nat) (n : Nat × Nat × Nat) : Run Unit := do
  let s ← get
  if s.executesPlan && s.resv.any (fun r => r.order == c.order) then pure ()
  else if s.spaceFree k c.order n then
    let r : Resv := { order := c.order, comp := k, hearth := n.1, hbm := n.2.1, host := n.2.2 }
    set ({ s with resv := (s.resv.filter fun x => x.order != c.order) ++ [r] } : State)
  else
    set (s.bump k .slotWaits 1)
    throw .space

/-- Reserve space that only the work itself shows to be needed, in its first quantum. -/
def reserveNow (c : Cmd) (k : Nat) (n : Nat × Nat × Nat) : Run Unit := do
  let s ← get
  if s.resv.any fun r => r.order == c.order then pure ()
  else if s.spaceFree k c.order n then
    set ({ s with resv := s.resv ++ [{ order := c.order, comp := k, hearth := n.1, hbm := n.2.1, host := n.2.2 }] } : State)
  else
    set (s.bump k .slotWaits 1)
    throw .space

/-! ### Addresses (06 R211) -/

/-- Ends of the two ranges of Table 6.2. -/
def tabEnd : Nat := 0x10000000000
def bufEnd : Nat := 0x1000000000000

/-- Tables in use or about to commit: (address, bytes). -/
def State.tablesUsed (s : State) (k : Nat) : List (Nat × Nat) :=
  ((s.comp k).tensors.map fun p => (p.1, p.2.tableBytes)) ++ (s.commits.flatMap fun c => match c.what with
    | .tensorNew j a t => if j = k then [(a, t.tableBytes)] else []
    | .attach j _ l => if j = k then l.map fun p => (p.1, 4096) else []
    | .varSet j _ _ _ l => if j = k then l.map fun p => (p.1, p.2.tableBytes) else []
    | _ => []) ++ (s.comp k).variants.flatMap fun v => [v.2.train0, v.2.train2].flatMap fun t => match t.bind (·.opening) with
      | some o => o.tables.map fun p => (p.1, p.2.tableBytes)
      | none => []

/-- Buffers in use or about to commit. -/
def State.buffersUsed (s : State) (k : Nat) : List (Nat × Nat) :=
  ((s.comp k).buffers.map fun p => (p.1, 2097152 * ceilDiv p.2.len 2097152)) ++ s.commits.flatMap fun c => match c.what with
    | .bufferNew j a b => if j = k then [(a, 2097152 * ceilDiv b.len 2097152)] else []
    | _ => []

/-- Take a table address. -/
def newTable (k bytes : Nat) : Run Nat := taken do
  let s ← get
  let x := s.comp k
  if x.tabNext + bytes ≤ tabEnd then
    set (s.modComp k fun x => { x with tabNext := x.tabNext + bytes })
    pure x.tabNext
  else
    set (s.modComp k fun x => { x with tabNext := tabEnd })
    some! (placeRange (s.tablesUsed k) 0x1000 tabEnd bytes) .noResource

/-- Take a buffer address. -/
def newBuffer (k len : Nat) : Run Nat := taken do
  let bytes := 2097152 * ceilDiv len 2097152
  let s ← get
  let x := s.comp k
  if x.bufNext + bytes ≤ bufEnd then
    set (s.modComp k fun x => { x with bufNext := x.bufNext + bytes })
    pure x.bufNext
  else
    set (s.modComp k fun x => { x with bufNext := bufEnd })
    some! (placeRange (s.buffersUsed k) tabEnd bufEnd bytes) .noResource

/-- Take the next TENSOR_ID (06 R218). -/
def newId (k : Nat) : Run Nat := taken do
  let s ← get
  set (s.modComp k fun x => { x with idNext := (x.idNext + 1) % 2 ^ 64 })
  pure (s.comp k).idNext

/-! ### References -/

/-- The tensor that a reference names: out of range BAD_PARAM, not live STALE_GENERATION (05 R195, 06 R210). -/
def tensorAt (c : Cmd) (k addr off : Nat) : Run Tensor := do
  fld (addr < 2 ^ 48) off
  let s ← get
  match Tab.find? (s.comp k).tensors addr with
  | some t => if liveFor t.closing c then pure t else failWith .staleGeneration
  | none => failWith .staleGeneration

/-- The buffer that wholly holds a range, and the offset in it (06 R210). -/
def bufferAt (c : Cmd) (k addr n off : Nat) : Run (Nat × Buffer × Nat) := do
  let s ← get
  match (s.comp k).buffers.find? fun p => p.1 ≤ addr && addr + n ≤ p.1 + p.2.len with
  | some p => if liveFor p.2.closing c then pure (p.1, p.2, addr - p.1) else failWith .badParam off
  | none => failWith .badParam off

/-- Tensors of two variant domains are not named by one command (07 R274). -/
def oneDomain (l : List Tensor) : Run Unit :=
  req ((l.filterMap (·.domain)).eraseDups.length ≤ 1) .notPermitted

/-! ### Reading -/

/-- What a tile holds, if it is written. -/
def State.tileData (s : State) (t : Tensor) (n : Nat) : Option TileData :=
  match t.base with
  | none => (Tab.find? t.tiles n).bind (·.data)
  | some (slot, no) => ((Tab.get {} s.bases slot).tensors[no]?).bind fun b => b.tiles[n]?

/-- Hearth copies of a compartment: (stroke of last use, TENSOR_ID, tile index, table address, pinned, bytes). -/
def Comp.copies (x : Comp) : List (Nat × Nat × Nat × Nat × Bool × Nat) :=
  x.tensors.flatMap fun p => p.2.tiles.filterMap fun q => q.2.copy.map fun st => (st, p.2.id, q.1, p.1, q.2.pinned, hearthBytes p.2.fmt)

/-- Bytes of a list of copies. -/
def copyBytes (l : List (Nat × Nat × Nat × Nat × Bool × Nat)) : Nat := (l.map fun c => c.2.2.2.2.2).foldl (· + ·) 0

/-- Change one descriptor. -/
def Comp.modTile (x : Comp) (addr n : Nat) (f : Tile → Tile) : Comp :=
  { x with tensors := x.tensors.map fun p => if p.1 = addr then (p.1, { p.2 with tiles := Tab.modify {} p.2.tiles n f }) else p }

/-- The earlier of two copies in eviction order: stroke of last use, then TENSOR_ID, then TILE_INDEX (06 R232). -/
def evictFirst (a b : Nat × Nat × Nat × Nat × Bool × Nat) : Bool :=
  a.1 < b.1 || (a.1 == b.1 && (a.2.1 < b.2.1 || (a.2.1 == b.2.1 && a.2.2.1 < b.2.2.1)))

/-- Evict unpinned copies (or, with `pins`, pinned ones) until at most `limit` bytes are held; `fuel` bounds the count. -/
def Comp.evict (pins : Bool) (limit : Nat) : Nat → Comp → Comp
  | 0, x => x
  | n + 1, x =>
    let l := x.copies
    if copyBytes l ≤ limit then x
    else match l.filter fun c => c.2.2.2.2.1 == pins with
      | [] => x
      | c :: r =>
        let v := r.foldl (fun best d => if evictFirst d best then d else best) c
        Comp.evict pins limit n (x.modTile v.2.2.2.1 v.2.2.1 fun t => { t with copy := none, pinned := false })

/-- What making a copy may do for room: evict, as the plan phase does (06 R232); use free room only; or take it, in a rehearsal. -/
inductive Room where
  | evict
  | free
  | any
  deriving DecidableEq, Repr

/-- Pin a copy under CACHE PIN, within the cache part; the refusal of a tile's pin counts once (06 R231, R233): the compartment, and
whether it counts now. -/
def Comp.pin (x : Comp) (addr n : Nat) (t : Tensor) : Comp × Bool :=
  let d := Tab.get {} t.tiles n
  if t.cache != 1 || d.pinned then (x, false)
  else if copyBytes (x.copies.filter fun c => c.2.2.2.2.1) + hearthBytes t.fmt ≤ x.hearthCache then
    (x.modTile addr n fun d => { d with pinned := true, refused := false }, false)
  else (x.modTile addr n fun d => { d with refused := true }, !d.refused)

/-- Use or make the Hearth copy of a tile that is read (06 R231-R233): the compartment, whether the read is a hit, and whether a
refused pin counts. -/
def Comp.touch (x : Comp) (room : Room) (addr n now : Nat) : Comp × Bool × Bool :=
  match Tab.find? x.tensors addr with
  | none => (x, false, false)
  | some t =>
    if t.home = 0 ∨ t.cache = 2 then (x, false, false)
    else if (Tab.get {} t.tiles n).copy.isSome then
      let p := (x.modTile addr n fun d => { d with copy := some now }).pin addr n t
      (p.1, true, p.2)
    else
      let b := hearthBytes t.fmt
      let y := if room = .evict then Comp.evict false (x.hearthCache - b) x.copies.length x else x
      if room = .any ∨ copyBytes y.copies + b ≤ x.hearthCache then
        let p := (y.modTile addr n fun d => { d with copy := some now, pinned := false }).pin addr n t
        (p.1, false, p.2)
      else (x, false, t.cache == 1 && !(Tab.get {} t.tiles n).refused)

/-- Touch several tiles: hits, and refused pins that count. -/
def Comp.touchAll (x : Comp) (room : Room) (addr now : Nat) (ns : List Nat) : Comp × Nat × Nat :=
  ns.foldl (fun p n =>
    let q := p.1.touch room addr n now
    (q.1, p.2.1 + bitNum q.2.1, p.2.2 + bitNum q.2.2)) (x, 0, 0)

/-- Room for the copies of work that executes now: planned work found its room at the plan phase (06 R232). -/
def State.copyRoom (s : State) : Room := if s.act.dry then .any else if s.act.snap.isSome then .free else .evict

/-- A span is ESTABLISHED: every other member reported the same list, and F and C equal to this device's (13 R495). -/
def State.spanEstablished (s : State) (k : Nat) : Bool :=
  match (s.comp k).span with
  | none => false
  | some sp => sp.members.all fun m => s.link.node == some m.1 || sp.reports.any fun r =>
      r.1 == m.1 && r.2.1 && r.2.2.1 == (s.comp k).slice.first && r.2.2.2.1 == (s.comp k).slice.count

/-- NODE_ID at a cell position. -/
def State.cellNode (s : State) (peer : Nat) : Option Nat := s.link.cell.bind fun c => c.2.2[peer]?

/-- A tile on a peer can be moved: the cell has a member at PEER, the span is ESTABLISHED and has a member there, and the
route has an UP port (13 R498). -/
def State.peerReachable (s : State) (k peer : Nat) : Bool :=
  match s.cellNode peer, (s.comp k).span with
  | some node, some sp => sp.members.any (fun m => m.1 == node) && s.spanEstablished k && !(s.openPorts (Tab.get 0 s.link.routes node)).isEmpty
  | _, _ => false

/-- Send a peer memory request for a tile and note the move (13 R498): a read with no payload, or a stored form to hold. -/
def State.peerRequest (s : State) (order k addr n : Nat) (t : Tensor) (payload : List Byte) : State :=
  let node := (s.cellNode t.peer).getD 0xFFFF
  let mv : PeerMove := { order, comp := k, tensor := addr, id := t.id, tile := n, since := s.stroke.number }
  let s : State := { s with link := { s.link with moves := s.link.moves ++ [mv] } }
  s.sendMsg k 1 (if payload.isEmpty then 0 else 1) node 0xFFFF 0 n (leBytes t.id 8 ++ leBytes n 4 ++ leBytes (s.comp k).epoch 1 ++ [0, 0, 0] ++ payload)

/-- The move that has brought a tile to a command. -/
def State.movedTile (s : State) (c : Cmd) (addr n : Nat) : Option PeerMove :=
  s.link.moves.find? fun m => m.order == c.order && m.tensor == addr && m.tile == n && m.got

/-- The tiles that a command reads from a peer: all arrived, else the missing ones are requested and the command waits
(13 R498). -/
def awaitPeer (c : Cmd) (k addr : Nat) (t : Tensor) (ns : List Nat) : Run Unit := do
  let s ← get
  let far := ns.filter fun n => (Tab.get {} t.tiles n).tier == 3
  if far.isEmpty then pure ()
  else
    let peer (n : Nat) : Nat := (Tab.get {} t.tiles n).peer
    req (far.all fun n => s.peerReachable k (peer n)) .peerUnreachable
    let missing := far.filter fun n => (s.movedTile c addr n).isNone
    if missing.isEmpty then pure ()
    else
      let ask := missing.filter fun n => !s.link.moves.any fun m => m.order == c.order && m.tensor == addr && m.tile == n
      set (ask.foldl (fun (s : State) n => s.peerRequest c.order k addr n { t with peer := peer n } []) s)
      throw .peer

/-- The 64-byte stored header of a tile (06 Table 6.7). -/
def tileHeader (k : Nat) (t : Tensor) (n : Nat) (x : Tile) : List Byte :=
  layout 64 [(0, 8, t.id), (8, 4, n), (12, 1, t.fmt), (13, 1, bitNum x.coded), (14, 1, k),
    (15, 1, bitNum t.domain.isSome), (16, 2, t.domain.getD 0), (18, 2, t.keyRef), (20, 4, x.sealer), (24, 8, x.sealCount)]

/-- The initial value of a seal: SEALER_ID and SEAL_COUNT, big-endian (06 R221). -/
def sealIv (sealer count : Nat) : List Byte := beBytes sealer 4 ++ beBytes count 8

/-- The key of a tile's last seal. -/
def State.tileKey (s : State) (k : Nat) (t : Tensor) (x : Tile) : Option KeyGen := (s.keyEntry (.vf k) t.keyRef).bind fun e => e.genOf x.sealer

/-- The stored form of a tile (06 R219, R221): header, ciphertext, tag, zero fill. -/
def State.storedForm (s : State) (k : Nat) (t : Tensor) (n : Nat) (x : Tile) : List Byte :=
  match x.data, s.tileKey k t x with
  | some d, some g =>
    let hdr := tileHeader k t n x
    let sh := t.shape n
    let body := if x.coded then epcCode t.fmt (allCodes sh d) else tilePayload t.fmt sh d
    let (ct, tag) := gcmSeal g.key (sealIv x.sealer x.sealCount) (hdr ++ leBytes x.codedLen 4) (body ++ tileMeta t.fmt sh d)
    padTo (slotBytes t.fmt) (hdr ++ ct ++ tag)
  | _, _ => []

/-- A Tong brings a stored form up: header, tag, decoding, length (06 R224-R226). -/
def State.openForm (s : State) (k : Nat) (t : Tensor) (n : Nat) (x : Tile) (form : List Byte) : Except Status TileData :=
  let hdr := form.take 64
  let want := tileHeader k t n x
  if hdr.take 15 ≠ want.take 15 ∨ (hdr.drop 16).take 16 ≠ (want.drop 16).take 16 then .error .authFail
  else match (s.tileKey k t x).bind fun g =>
      gcmOpen g.key (sealIv x.sealer x.sealCount) (hdr ++ leBytes x.codedLen 4) ((form.drop 64).take x.codedLen) ((form.drop (64 + x.codedLen)).take 16) with
    | none => .error .authFail
    | some body =>
      if x.coded then
        let p := x.codedLen - metaBytes t.fmt
        match epcDecode t.fmt (body.take p) with
        | some (codes, m) => if m = p then .ok (tileOfBytes t.fmt (t.shape n) (packBits (fmtBits t.fmt) codes ++ body.drop p)) else .error .tileCodingFault
        | none => .error .tileCodingFault
      else .ok (tileOfBytes t.fmt (t.shape n) body)

/-- A written tile as its tier delivers it: Hearth lines and copies as they are, HBM as sealed there unless the form is spoilt, host and
peer forms as the window or the completion holds them (06 R219, R224, R225). -/
def State.fetchTile (s : State) (c : Cmd) (k addr : Nat) (t : Tensor) (n : Nat) (d : TileData) : Except Status TileData :=
  let x := Tab.get {} t.tiles n
  if t.base.isSome ∨ x.tier = 0 ∨ (x.copy.isSome ∧ t.cache ≠ 2) then .ok d
  else match x.tier with
    | 1 => if x.spoilt then .error .authFail else .ok d
    | 2 => s.openForm k t n x (s.hostRead (.vf k) x.slot (slotBytes t.fmt))
    | _ => s.openForm k t n x (((s.movedTile c addr n).map (·.form)).getD [])

/-- A stored form passes through a buffer of the tile's Tong, which serves the compartment whose run is in progress (06 R223). -/
def State.tongLoad (s : State) (k : Nat) (t : Tensor) (n : Nat) (form : List Byte) : State :=
  { s with tongs := Tab.modify { comp := k } s.tongs (Config.tongOf t.id n % 128) fun g => { comp := k, first := form, second := g.first } }

/-- A tag or header that did not verify, or a coding fault: the event with withheld arguments, and AUTH_FAILS (06 R225, R226). -/
def State.tileFault (s : State) (f : Fn) (coding : Bool) : State :=
  let (x, s) := s.draw
  let (y, s) := s.draw
  let s := s.raise (if coding then 0x0141 else 0x0140) .error (fnScope f) (x % 2 ^ 64) (y % 2 ^ 64)
  match f with
  | .vf k => if coding then s else s.bump k .authFails 1
  | .pf => s

/-- The status that a list of fetches ends with, if one of them fails. -/
def firstError (l : List (Except Status TileData)) : Option Status := l.findSome? fun r => match r with
  | .error e => some e
  | .ok _ => none

/-- Bring written tiles up from their tiers (06 R224-R226): those on a peer are awaited, those in a sealed tier pass a Tong. -/
def bringUp (c : Cmd) (k addr : Nat) (t : Tensor) (ns : List Nat) : Run (List TileData) := do
  let held := ns.filter fun n => (Tab.get {} t.tiles n).copy.isNone || t.cache == 2
  awaitPeer c k addr t held
  let s ← get
  let l := ns.map fun n => (n, s.fetchTile c k addr t n ((s.tileData t n).getD { elems := [] }))
  modify fun s => held.foldl (fun s n =>
    let x := Tab.get {} t.tiles n
    if t.base.isSome || x.tier == 0 then s
    else s.tongLoad k t n (if x.tier = 2 then s.hostRead (.vf k) x.slot (slotBytes t.fmt) else s.storedForm k t n x)) s
  match firstError (l.map (·.2)) with
  | some e => do
    modify fun s => s.tileFault (.vf k) (decide (e = .tileCodingFault))
    failWith e
  | none => pure (l.filterMap fun p => p.2.toOption)

/-- Read tiles of a tensor: unwritten tiles deliver zero or end the command in strict mode, copies are used and made (a read of a
CACHE STREAM tile is a miss, 06 R250), and NaN-scaled blocks follow the policy (06 R224, R231, R239, R241; 04 R142). `counts`: the
command commits tiles, so that NAN_CONVERTED moves with them (04 R158). Each tile is read once by a quantum (log 26). -/
def readCounted (counts : Bool) (c : Cmd) (k addr : Nat) (t : Tensor) (trap : Bool) (ns : List Nat) : Run (List TileData) := do
  let s ← get
  let wr := ns.filter fun n => (s.tileData t n).isSome
  let data ← bringUp c k addr t wr
  let un := ns.length - wr.length
  bumpNow k .unwrittenReads un
  req (un == 0 || !(s.comp k).mem.strict) .memUnwritten
  if t.home != 0 then
    let s ← get
    let (x, hits, refused) := (s.comp k).touchAll s.copyRoom addr s.stroke.number wr
    set (s.setComp k x)
    stageCounts c k [(.hearthHits, hits), (.hearthMisses, wr.length - hits), (.pinRefused, refused)]
  let got := wr.zip data
  let l := ns.map fun n => ((got.find? fun p => p.1 == n).map (·.2)).getD (unwrittenTile t.fmt (t.shape n))
  let bad := (l.map fun d => d.nanBlockElems t.fmt).foldl (· + ·) 0
  req (!(bad != 0 && trap)) .nanTrapped
  if counts then stageCounts c k [(.nanConverted, bad)]
  pure l

/-- Read tiles for a command that commits tiles. -/
def readTiles (c : Cmd) (k addr : Nat) (t : Tensor) (trap : Bool) (ns : List Nat) : Run (List TileData) := readCounted true c k addr t trap ns

/-- A tensor with all its tiles at hand. -/
structure Mat where
  t : Tensor
  tiles : Array TileData

/-- Exact value of element (p, r, c). -/
def Mat.val (m : Mat) (p r c : Nat) : Num :=
  let n := m.t.index p (r / 128) (c / 128)
  (m.tiles.getD n { elems := [] }).val (m.t.shape n) m.t.fmt (r % 128) (c % 128)

/-- Element (p, r, c) as FP32; exact for FP32 and BF16 of kind NONE. -/
def Mat.f32 (m : Mat) (p r c : Nat) : Nat := rnd32 (m.val p r c)

/-- Code of element (p, r, c). -/
def Mat.code (m : Mat) (p r c : Nat) : Nat :=
  let n := m.t.index p (r / 128) (c / 128)
  (m.tiles.getD n { elems := [] }).code (m.t.shape n) (r % 128) (c % 128)

/-- Some tiles of a tensor at hand, the others as unwritten ones. -/
def readSome (c : Cmd) (k addr : Nat) (t : Tensor) (trap : Bool) (ns : List Nat) : Run Mat := do
  let l ← readTiles c k addr t trap ns
  let blank := (upFrom 0 t.count).map fun n => unwrittenTile t.fmt (t.shape n)
  pure { t, tiles := (ns.zip l).foldl (fun a p => a.setIfInBounds p.1 p.2) blank.toArray }

/-- A tensor's contents as the stroke finds them, without a read: what planning judges by (05 R169). -/
def State.peekMat (s : State) (t : Tensor) : Mat :=
  { t, tiles := ((upFrom 0 t.count).map fun n => (s.tileData t n).getD (unwrittenTile t.fmt (t.shape n))).toArray }

/-- Read a whole tensor. -/
def readMat (c : Cmd) (k addr : Nat) (t : Tensor) (trap : Bool) : Run Mat := do
  let l ← readTiles c k addr t trap (upFrom 0 t.count)
  pure { t, tiles := l.toArray }

/-- The tensor of a field and its contents. -/
def readRef (c : Cmd) (k addr off : Nat) (trap : Bool) : Run Mat := do
  let t ← tensorAt c k addr off
  readMat c k addr t trap

/-- A line of a buffer is written. -/
def Buffer.lineWritten (b : Buffer) (i : Nat) : Bool := (Tab.find? b.lines i).isSome

/-- Read bytes of a buffer: lines never written read zero and count once per read, or end the command in strict mode
(06 R240, R241). -/
def readBuffer (k : Nat) (b : Buffer) (off n : Nat) : Run (List Byte) := do
  let lines := upFrom (off / 64) (ceilDiv (off + n) 64 - off / 64)
  let un := lines.any fun i => !b.lineWritten i
  if un then bumpNow k .unwrittenReads 1
  let s ← get
  req (!un || !(s.comp k).mem.strict) .memUnwritten
  pure (Mem.readBytes b.mem off n)

/-! ### Writing -/

/-- Take one seal under a tensor's key, or end with KEY_EXHAUSTED (06 R229). -/
def takeSeal (k keyRef : Nat) : Run Seal := do
  let s ← get
  let (s', r) := s.seal k keyRef
  set s'
  match r with
  | .ok x => pure x
  | .error d => failWith .keyExhausted d

/-- Slots of a compartment's tiles in a tier: address and bytes. -/
def Comp.slotsIn (x : Comp) (tier : Nat) : List (Nat × Nat) :=
  let of (fmt : Nat) (l : Tab Tile) : List (Nat × Nat) :=
    (l.filter fun p => p.2.data.isSome && p.2.tier == tier).map fun p => (p.2.slot, if tier = 0 then hearthBytes fmt else slotBytes fmt)
  let tensor (t : Tensor) : List (Nat × Nat) := of t.fmt t.tiles
  let ckpt (c : Ckpt) : List (Nat × Nat) := c.parts.flatMap fun p => of 2 p.work ++ of 0 p.master ++ of 0x4B p.m1 ++ of 0x5B p.m2
  let train (t : Train) : List (Nat × Nat) :=
    (t.tensors.flatMap fun y => (y.err :: y.master :: y.m1 :: y.m2 :: y.pend).flatMap tensor) ++ ([t.ckpt, t.ckptPending].filterMap id).flatMap ckpt
  (x.tensors.flatMap fun p => tensor p.2) ++ (x.variants.flatMap fun v => ([v.2.train0, v.2.train2].filterMap id).flatMap train)
    ++ (if tier = 1 then x.buffers.flatMap fun b => b.2.pages.map fun p => (p.2.slot, 16512) else [])

/-- The first place at or above an address that no slot overlaps; `fuel` bounds the slots passed. -/
def gapAt (used : List (Nat × Nat)) (bytes top : Nat) : Nat → Nat → Option Nat
  | 0, _ => none
  | n + 1, p =>
    if top < p + bytes then none
    else match used.find? fun u => u.1 < p + bytes && p < u.1 + u.2 with
      | none => some p
      | some u => gapAt used bytes top n (64 * ceilDiv (u.1 + u.2) 64)

/-- A fresh slot address of the device's choice (06 Table 6.6, R227): 64-byte aligned, in the compartment's host window for the host
tier and anywhere in 48 bits for the others, clear of the slots in use (log 6; log 113). -/
def newSlot (k tier bytes : Nat) : Run Nat := do
  let s ← get
  let (a, s) := s.draw
  let used := (s.comp k).slotsIn tier ++ (s.fresh.filter fun f => f.1 == k && f.2.1 == tier).map fun f => f.2.2
  let (lo, n) := if tier = 2 then ((s.comp k).hostWin.getD (0, 0)) else (0, 2 ^ 48)
  let start := lo + 64 * (a % (n / 64))
  let fuel := used.length + 1
  let slot := ((gapAt used bytes (lo + n) fuel start).orElse fun _ => gapAt used bytes (lo + n) fuel lo).getD start
  set { s with fresh := s.fresh ++ [(k, tier, slot, bytes)] }
  pure slot

/-- The descriptor of a tile taken down into a tensor's home tier (06 R227): coded, sealed, in a fresh slot, its stored form written
to the host window where that is the home; and what it counts. -/
def takeDown (k : Nat) (t : Tensor) (n : Nat) (d : TileData) : Run (Tile × List (Ctr × Nat)) := do
  if t.home = 0 then
    let slot ← newSlot k 0 (hearthBytes t.fmt)
    pure ({ data := some d, slot, tier := 0, codedLen := payloadBytes t.fmt + metaBytes t.fmt }, [])
  else
    let slot ← newSlot k t.home (slotBytes t.fmt)
    let stored := storedCoded t.fmt (t.shape n) d
    let x ← takeSeal k t.keyRef
    let y : Tile := { data := some d, slot, tier := t.home, peer := t.peer, coded := stored.1, codedLen := stored.2 + metaBytes t.fmt, sealCount := x.count, sealer := x.sealer }
    let s ← get
    let form := s.storedForm k t n y
    let s := s.tongLoad k t n form
    set { s with act := { s.act with writes := if t.home = 2 then s.act.writes ++ [(k, slot, form)] else s.act.writes } }
    pure (y, [(.tilesSealed, 1), (.tilesCoded, if stored.1 then 1 else 0), (.codedBytesSaved, if stored.1 then payloadBytes t.fmt - stored.2 else 0)])

/-- A command may write these tiles: alias tables and written tiles of READ_ONLY tensors refuse when its first quantum is planned
(06 R675, 07 R269). -/
def mayWrite (t : Tensor) (ns : List Nat) : Run Unit :=
  reqPlan (t.base.isNone && !(t.readOnly && ns.any fun n => ((Tab.find? t.tiles n).bind (·.data)).isSome)) .notPermitted

/-- Take tiles of a tensor down (06 R227): each is counted, and for HOME 3 sent to its holder. `addr` names the tensor in the
move. -/
def sealTiles (c : Cmd) (k addr : Nat) (t : Tensor) (l : List (Nat × TileData)) : Run (List (Nat × Tile)) := do
  let mut out : List (Nat × Tile) := []
  for p in l do
    let (x, cs) ← takeDown k t p.1 p.2
    stageCounts c k cs
    if t.home = 3 then
      let s ← get
      req (s.peerReachable k t.peer) .peerUnreachable
      set (s.peerRequest c.order k addr p.1 t (s.storedForm k t p.1 x))
    out := out ++ [(p.1, x)]
  pure out

/-- Stage the tiles of an output tensor (06 R227). -/
def writeTiles (c : Cmd) (k addr : Nat) (t : Tensor) (l : List (Nat × TileData)) : Run Unit := do
  stage c (.tileWrite k addr (← sealTiles c k addr t l))

/-- Space of the fresh slots of tiles in a home tier. -/
def slotSpace (t : Tensor) (n : Nat) : Nat × Nat × Nat :=
  match t.home with
  | 0 => (n * hearthBytes t.fmt, 0, 0)
  | 1 => (0, n * slotBytes t.fmt, 0)
  | 2 => (0, 0, n * slotBytes t.fmt)
  | _ => (0, 0, 0)

/-- Pages that a range of a buffer touches. -/
def pagesOf (off n : Nat) : List Nat := upFrom (off / 16384) (ceilDiv (off + n) 16384 - off / 16384)

/-- Space of the fresh pages of a buffer write (06 R228). -/
def pageSpace (b : Buffer) (off n : Nat) : Nat × Nat × Nat :=
  let m := (pagesOf off n).length
  if b.home = 0 then (16384 * m, 0, 0) else (0, 16512 * m, 0)

/-- Stage bytes of a buffer at several offsets; each page of HOME 1 that they touch takes one seal (06 R220). -/
def writeParts (c : Cmd) (k addr : Nat) (b : Buffer) (l : List (Nat × List Byte)) : Run Unit := do
  let mut pages : List (Nat × Page) := []
  if b.home = 1 then
    for p in (l.flatMap fun q => pagesOf q.1 q.2.length).eraseDups do
      let x ← takeSeal k 0
      let slot ← newSlot k 1 16512
      pages := pages ++ [(p, { slot, sealCount := x.count, sealer := x.sealer })]
    stageCounts c k [(.tilesSealed, pages.length)]
  for q in l do
    stage c (.bufWrite k addr q.1 q.2 (pages.filter fun p => (pagesOf q.1 q.2.length).contains p.1))

/-- Stage bytes of a buffer. -/
def writeBuffer (c : Cmd) (k addr : Nat) (b : Buffer) (off : Nat) (bytes : List Byte) : Run Unit := writeParts c k addr b [(off, bytes)]

/-- What a quantum does of work that goes in ascending order: all that is left, or as far as its cut names it. -/
def ascending (rest : List Nat) : Run (List Nat) := do
  let l := (← get).act.reach
  pure (if l.isEmpty then rest else rest.takeWhile fun n => l.any fun r => r.unit == n)

/-! ### Converted outputs -/

/-- How a command converts its output (04 R118-R120). -/
structure OutPlan where
  fmt : Nat
  ctl : EncCtl
  cfg : NumCfg
  src : ScaleSrc
  /-- NQ4 tensor scale, BF16 -/
  t : Nat
  /-- history slot, its generation, HIST_ADVANCE -/
  slot : Option (Nat × Nat × Bool)
  seed : Nat
  stream : Nat

/-- NUMCTL is valid for an output format, and the history slot it names is set for it (04 R118, R119). -/
def State.ctlOk (s : State) (k fmt w : Nat) : Bool :=
  let n := numctlOf w
  numctlValid w && (n.src == 0 || fmtKind fmt == 1) && (!n.advance || n.src == 1)
    && (n.src != 1 || match Tab.find? (s.histOf k) n.slot with
      | some h => h.fmt == fmt
      | none => false)

/-- The output scale is what its format and scale source require (04 R119, R127; 05 Table 5.9). -/
def outScaleOk (fmt w scale : Nat) : Bool :=
  let kind := fmtKind fmt
  if (kind = 1 ∧ (numctlOf w).src = 0) ∨ kind = 6 then givenScaleOk scale
  else if kind = 3 then nq4ScaleOk scale
  else scale == 0

/-- How an output is converted, once its fields are checked (04 R118-R120). -/
def outPlan (k fmt w scale seed stream : Nat) : Run OutPlan := do
  let s ← get
  let num := s.numOf k
  let n := numctlOf w
  let kind := fmtKind fmt
  let plan (src : ScaleSrc) (t : Nat) (slot : Option (Nat × Nat × Bool)) : OutPlan :=
    { fmt, ctl := n.ctl num, cfg := num, src, t, slot, seed, stream }
  if kind = 1 ∧ n.src = 1 then
    match Tab.find? (s.histOf k) n.slot with
    | none => failWith .badParam noField
    | some h => pure (plan (.hist h.d (if n.guard = 0 then num.guard else n.guard == 1)) 0 (some (n.slot, h.gen, n.advance)))
  else if kind = 1 ∧ n.src = 2 then pure (plan .tile 0 none)
  else if kind = 3 then pure (plan (.given 0) (scale / 65536) none)
  else pure (plan (.given scale) 0 none)

/-- Global rows and columns of the valid cells of tile n. -/
def Tensor.cells (t : Tensor) (n : Nat) : List (Nat × Nat × Nat) :=
  let (p, i, u) := t.place n
  ((t.shape n).cells).map fun q => (p, 128 * i + q.1, 128 * u + q.2)

/-- The draw of an element of a destination tensor (10 R396; 04 R144). -/
def OutPlan.draw (o : OutPlan) (t : Tensor) (n r c : Nat) : Nat :=
  let (p, i, u) := t.place n
  randDraw o.seed o.stream 16 (elemIndex t.rows t.cols 0 0 p (128 * i + r) (128 * u + c))

/-- Encode tiles of an output from the FP32 values that the command gives by (p, r, c), the tile's other elements kept; a NaN
under TRAP ends the command (04 R140, R141). -/
def encodeTiles (o : OutPlan) (t : Tensor) (ns : List Nat) (val : Nat → Nat → Nat → Option Nat) : Run (List (Nat × Enc)) := do
  let s ← get
  let l := ns.map fun n => (n, encodeOut o.fmt o.ctl o.cfg o.src (t.shape n) o.t ((t.cells n).map fun q => val q.1 q.2.1 q.2.2)
    ((s.tileData t n).getD (unwrittenTile t.fmt (t.shape n))) (o.draw t n))
  req (!(o.ctl.trap && l.any fun p => p.2.nans != 0)) .nanTrapped
  pure l

/-- Convert and stage tiles of an output tensor: tiles, counters and history contribution; their statistics records by tile
(04 R134-R150; 05 Table 5.6 steps 6 and 7). -/
def emit (c : Cmd) (k addr : Nat) (t : Tensor) (o : OutPlan) (ns : List Nat) (val : Nat → Nat → Nat → Option Nat) : Run (List (Nat × List Byte)) := do
  let l ← encodeTiles o t ns val
  writeTiles c k addr t (l.map fun p => (p.1, p.2.data))
  for p in l do
    stageCounts c k (encCounts p.2)
    match o.slot with
    | some (slot, gen, adv) => stage c (.hist k slot gen p.2.amax adv)
    | none => pure ()
  pure (l.map fun p => (p.1, statsRecord p.2))

/-- Convert and stage tiles of an output of FP32 or BF16 whose command has no conversion options but rounding: of Table 4.15 only
SR_ELEMS moves (04 R144; log 112). -/
def emitPlain (c : Cmd) (k addr : Nat) (t : Tensor) (o : OutPlan) (ns : List Nat) (val : Nat → Nat → Nat → Option Nat) : Run Unit := do
  let l ← encodeTiles o t ns val
  writeTiles c k addr t (l.map fun p => (p.1, p.2.data))
  stageCounts c k [(.srElems, (l.map fun p => p.2.drawn).foldl (· + ·) 0)]

/-- Write the statistics records of the tiles of an output tensor: tile n's at byte 8 n of the address; `off` is the field's offset
(04 R150). -/
def putStats (c : Cmd) (k : Nat) (t : Tensor) (stats : Option (Nat × Nat)) (l : List (Nat × List Byte)) : Run Unit := do
  match stats, l with
  | some (a, off), _ :: _ =>
    let (ba, b, o) ← bufferAt c k a (8 * t.count) off
    writeParts c k ba b (l.map fun p => (o + 8 * p.1, p.2))
  | _, _ => pure ()

/-- Keep the statistics records of a quantum's tiles until the last. -/
def keepStats (c : Cmd) (k : Nat) (l : List (Nat × List Byte)) : Run Unit := modify fun s =>
  let w := s.workOf c k
  s.setWork { w with stats := w.stats ++ l }

/-- Produce the output tiles that are ready, keep their statistics, and end the quantum; with the last one the statistics are
written (02 R50; 04 R150). -/
def Job.produce (j : Job) (c : Cmd) (k addr : Nat) (t : Tensor) (o : OutPlan) (stats : Option (Nat × Nat)) (outs : List Nat) (val : Nat → Nat → Nat → Option Nat) : Run Unit := do
  keepStats c k (← emit c k addr t o outs val)
  let s ← get
  if s.act.reach.isEmpty then putStats c k t stats (s.workOf c k).stats
  j.close c k outs

/-- A result record at a 64-byte aligned address (02 R71). -/
def putRecord (c : Cmd) (a : Nat) (b : List Byte) : Run Unit := modify fun s => s.record c.fn a b

end Sys2Proof.Machine
end

