-- ==== Sys2Proof/Machine/Accumulate.lean ====
section
/-! DEFINITION. The arithmetic of the Anvils: accumulation on the two paths, the side path, the activations and the rotary
embedding (05 R161-R170, R188-R191), shared by every command that multiplies. -/

namespace Sys2Proof.Machine

/-! ### The two paths -/

/-- The floating path: acc starts at +0, one rounding for each step, ascending k (05 R163, R168). -/
def floatAcc (k : Nat) (x w : Nat → Num) : Nat := (upFrom 0 k).foldl (fun a i => facc a (x i) (w i)) 0

/-- One element as the integer path reads it: code, zero point, factor (a decode scale, or 2^(e - 133) of MXINT8), and whether
it exists (05 R169, R176; 04 R153). -/
structure IPos where
  q : Int
  z : Int
  d : Num
  present : Bool := true
  deriving DecidableEq, Repr

/-- A position outside a convolution's input: it contributes nothing (05 R176; log 27). -/
def IPos.absent : IPos := { q := 0, z := 0, d := .zero, present := false }

/-- An element of a tensor on the integer path; a NaN-scaled block enters as zero (04 R142). -/
def Mat.ipos (m : Mat) (p r c : Nat) : IPos :=
  let n := m.t.index p (r / 128) (c / 128)
  let t := m.tiles.getD n { elems := [] }
  let g := m.t.shape n
  let q := intCode m.t.fmt (t.code g (r % 128) (c % 128))
  if fmtKind m.t.fmt = 2 then
    let e := t.scale g m.t.fmt (r % 128) (c % 128)
    if e = 0xFF then { q := 0, z := 0, d := Num.pow2 0 } else { q, z := 0, d := Num.pow2 ((e : Int) - 133) }
  else { q, z := if fmtKind m.t.fmt = 6 then t.zs.getD (g.line (r % 128) (c % 128)) 0 else 0, d := val32 t.d }

/-- Hold a sum in the INT32 range (04 R152). -/
def satI32 (x : Int) : Int × Bool :=
  if x > 2147483647 then (2147483647, true) else if x < -2147483648 then (-2147483648, true) else (x, false)

/-- Add to a held sum. -/
def satAdd (a : Int × Bool) (x : Int) : Int × Bool := let r := satI32 (a.1 + x); (r.1, a.2 || r.2)

/-- One position of a reduction: k and the two elements. -/
abbrev KPos := Nat × IPos × IPos

/-- The zero-point terms of positions of one reduction tile (04 R153). -/
def zeroTerms (l : List KPos) : Int :=
  (l.map fun p => p.2.1.z * p.2.2.z - p.2.2.z * p.2.1.q - p.2.1.z * p.2.2.q).foldl (· + ·) 0

/-- Cut a list where a key changes. -/
def cutBy {κ α : Type} [DecidableEq κ] (key : α → κ) : List α → List (List α)
  | [] => []
  | a :: r => match cutBy key r with
    | (b :: g) :: gs => if key a = key b then (a :: b :: g) :: gs else [a] :: (b :: g) :: gs
    | gs => [a] :: gs

/-- Products in ascending k onto a sum, then each reduction tile's zero-point terms (05 R169; 04 R152, R153). -/
def segAdd (a : Int × Bool) (l : List KPos) : Int × Bool :=
  (cutBy (fun p : KPos => p.1 / 128) l).foldl (fun a g =>
    satAdd (g.foldl (fun a p => satAdd a (p.2.1.q * p.2.2.q)) a) (zeroTerms g)) a

/-- How the integer path divides a reduction (05 R169). -/
inductive Seg where
  | whole
  | len (n : Nat)
  deriving DecidableEq, Repr

/-- f of a segment: its INT32 sum times s, both rounded (05 R169). -/
def segValue (p : Int) (s : Num) : Nat := rnd32 ((val32 (intTo32 p)).mul s)

/-- s of a segment: the product of the two factors, rounded but for MXINT8 pairs (05 R169). -/
def segScale (exact : Bool) (l : List KPos) : Num :=
  match l with
  | p :: _ => if exact then p.2.1.d.mul p.2.2.d else val32 (rnd32 (p.2.1.d.mul p.2.2.d))
  | [] => .zero

/-- Positions of the integer path onto the 32 bits that the accumulator holds, and whether a sum was held: the INT32 sum itself where
the segment is the whole reduction, else the FP32 accumulator, segment by segment; a change of factor inside a segment cuts it
(05 R169; log 27). -/
def intSteps (g : Seg) (exact : Bool) (a : Nat) (l : List KPos) : Nat × Bool :=
  let l := l.filter fun p => p.2.1.present && p.2.2.present
  match g with
  | .whole => let r := segAdd (signedCode 32 a, false) l; (twos 32 r.1, r.2)
  | .len n => (cutBy (fun p : KPos => (p.1 / n, p.2.1.d, p.2.2.d)) l).foldl (fun a seg =>
      let r := segAdd (0, false) seg
      (fadd a.1 (segValue r.1 (segScale exact seg)), a.2 || r.2)) (a, false)

/-! ### Operand checks -/

/-- FP6 elements. -/
def isFp6 (b : Nat) : Bool := fmtElem b == 5 || fmtElem b == 6

/-- INT8 or INT4 elements. -/
def isInt (b : Nat) : Bool := fmtElem b == 8 || fmtElem b == 9

/-- The pair of formats of two ports is allowed (05 R166). -/
def pairOk (x w : Nat) (xT wT : Bool) : Bool :=
  fmtElem x != 10 && fmtKind x != 5 && fmtKind w != 5 && !(fmtKind x == 6 && !isInt w) && !(fmtKind w == 6 && !isInt x)
    && !(xT && isFp6 x) && !(wT && isFp6 w)

/-- The integer path applies (05 R167). -/
def intPath (x w : Nat) : Bool := isInt x && isInt w && [1, 2, 6].contains (fmtKind x) && [1, 2, 6].contains (fmtKind w)

/-- FP32 or BF16 of kind NONE (05 R188). -/
def isPlain (b : Nat) : Bool := b == 0 || b == 2

/-- A vector of n entries: a tensor with ROWS = 1 (06 R217; log 28). -/
def Tensor.isVector (t : Tensor) (n : Nat) : Bool := t.rows == 1 && t.cols == n

/-- Entry i of a vector. -/
def Mat.entry (m : Mat) (p i : Nat) : Nat := m.f32 p 0 i

/-! ### One port of a product -/

/-- An operand read normally or transposed, by product, row or column of the output, and position (05 R173, R174). -/
structure Port2 where
  m : Mat
  /-- the reduction runs down the rows of the stored tensor -/
  down : Bool
  /-- one product serves all (READ_MODE bit 2) -/
  shared : Bool := false

/-- The stored row and column of a line and a position. -/
def Port2.at (o : Port2) (line k : Nat) : Nat × Nat := if o.down then (k, line) else (line, k)

/-- The product read. -/
def Port2.prod (o : Port2) (p : Nat) : Nat := if o.shared then 0 else p

/-- The exact value at a line and position. -/
def Port2.val (o : Port2) (p line k : Nat) : Num := let a := o.at line k; o.m.val (o.prod p) a.1 a.2

/-- The element at a line and position as the integer path reads it. -/
def Port2.ipos (o : Port2) (p line k : Nat) : IPos := let a := o.at line k; o.m.ipos (o.prod p) a.1 a.2

/-- The stored tiles that hold lines `line` to `line + n - 1` at positions a to b - 1. -/
def Port2.tiles (o : Port2) (p line n a b : Nat) : List Nat :=
  let t := o.m.t
  (upFrom (line / 128) (ceilDiv (line + n) 128 - line / 128)).flatMap fun i =>
    (upFrom (a / 128) (ceilDiv b 128 - a / 128)).map fun j => if o.down then t.index (o.prod p) j i else t.index (o.prod p) i j

/-- An MXINT8 operand whose block scale changes with each position: its blocks do not lie along the reduction (05 R169, R174). -/
def Port2.stepScales (o : Port2) (normalDown : Bool) : Bool := fmtKind o.m.t.fmt == 2 && (o.down != normalDown || o.m.t.axis != bitNum o.down)

/-! ### The epilogue (05 R188-R190) -/

/-- −0, the limit of GELU and SILU at −∞ (05 R189). -/
def negZero : Nat := 2 ^ 31

/-- fp32_rne(v × f(v)), with the limits at ±∞ (05 R189). -/
def timesFn (f : Nat → Nat) (v : Nat) : Nat :=
  if isNan v then nan32 else if v = inf32 then inf32 else if v = ninf32 then negZero else fmul v (f v)

def actSilu (v : Nat) : Nat := timesFn crSigmoid v
def actGeluErf (v : Nat) : Nat := timesFn crGeluErf v

/-- The activation of a code; u is the second of a GLU pair (05 Table 5.7). -/
def activation (act v u : Nat) : Nat :=
  match act with
  | 0 => v
  | 1 => if isNan v then nan32 else if flt 0 v then v else 0
  | 2 => actGeluErf v
  | 3 => timesFn crGeluTanh v
  | 4 => actSilu v
  | 5 => crSigmoid v
  | 6 => crTanh v
  | 7 => fmul (actSilu v) u
  | _ => fmul (actGeluErf v) u

/-- A GLU code. -/
def isGlu (act : Nat) : Bool := act == 7 || act == 8

/-- One rotary pair at an angle: (x_new, y_new) (05 R190). -/
def rotate (pos freq x y : Nat) : Nat × Nat :=
  let theta := fmul pos freq
  let cs := crCos theta
  let sn := crSin theta
  (ffma x cs (fneg (fmul y sn)), ffma y cs (fmul x sn))

/-- A position entry is a whole number from 0 to 2^24 (05 R190). -/
def wholePos (a : Nat) : Bool :=
  match val32 a with
  | .fin neg m e =>
    let (k, r, _) := floorNum (.fin neg m e)
    r == 0 && 0 ≤ k && k ≤ 16777216
  | _ => false

/-- The pair and the half that column j of a head of `dim` rotated columns belongs to (05 R190). -/
def ropePair (half : Bool) (dim j : Nat) : Nat × Bool := if half then (j % (dim / 2), j ≥ dim / 2) else (j / 2, j % 2 == 1)

/-- The partner column of column j. -/
def ropePartner (half : Bool) (dim j : Nat) : Nat :=
  if half then (if j < dim / 2 then j + dim / 2 else j - dim / 2) else (if j % 2 = 0 then j + 1 else j - 1)

/-- Element (m, n) after the rotary embedding of values v (05 R190). -/
def ropeAt (half : Bool) (head dim : Nat) (pos freq : Nat → Nat) (v : Nat → Nat) (m n : Nat) : Nat :=
  let j := n % head
  if j < dim then
    let (i, second) := ropePair half dim j
    let o := v (n - j + ropePartner half dim j)
    if second then (rotate (pos m) (freq i) o (v n)).2 else (rotate (pos m) (freq i) (v n) o).1
  else v n

end Sys2Proof.Machine
end

