-- ==== Sys2Proof/Machine/Sram.lean ====
section
/-! DEFINITION. Engine-local SRAM: the skewed storage of operand tiles, and the normal and the transposed read of one (05 R173,
R174). -/

namespace Sys2Proof.Machine

/-- w of a format: bytes of an element, 1 for elements of 8 bits or fewer (05 R173). -/
def laneStep (fmt : Nat) : Nat := if fmtBits fmt ≤ 8 then 1 else fmtBits fmt / 8

/-- Bytes of a row of a tile. -/
def rowBytes (fmt : Nat) : Nat := 16 * fmtBits fmt

/-- Lane of byte j of a chunk of row r (05 R173). -/
def laneOf (w r j : Nat) : Nat := (j + r * w) % 64

/-- A 64-byte chunk of row r as its bank holds it: byte j stands in lane (j + r × w) mod 64. -/
def skew (w r : Nat) (l : List Byte) : List Byte := (upFrom 0 64).map fun i => l.getD ((i + 64 - r * w % 64) % 64) 0

/-- A normal read rotates the line of row r back into place. -/
def unskew (w r : Nat) (l : List Byte) : List Byte := (upFrom 0 64).map fun j => l.getD (laneOf w r j) 0

/-- The lines of a payload: chunk q of row r in bank base + q, at row row_base + r (05 R173). -/
def skewLines (fmt bank row : Nat) (payload : List Byte) : List (Nat × Nat × List Byte) :=
  (upFrom 0 128).flatMap fun r => (upFrom 0 (ceilDiv (rowBytes fmt) 64)).map fun q =>
    ((bank + q) % 64, row + r, skew (laneStep fmt) r (padTo 64 ((payload.drop (r * rowBytes fmt + 64 * q)).take (min 64 (rowBytes fmt - 64 * q)))))

/-- The line of row r in chunk q. -/
def SramTile.line (t : SramTile) (r q : Nat) : List Byte :=
  ((t.lines.find? fun l => l.1 == (t.bank + q) % 64 && l.2.1 == t.row + r).map (·.2.2)).getD []

/-- Byte j of chunk q of row r, fetched with its row. -/
def SramTile.normal (t : SramTile) (r q j : Nat) : Byte := (unskew t.width r (t.line r q)).getD j 0

/-- The same byte fetched by lane, as a transposed read fetches it. -/
def SramTile.across (t : SramTile) (r q j : Nat) : Byte := (t.line r q).getD (laneOf t.width r j) 0

/-- The tile as the Tongs place it. -/
def sramTile (order k addr id fmt n : Nat) (payload : List Byte) : SramTile :=
  let bank := Config.sramBank id n % 64
  let row := Config.sramRow id n
  { order, comp := k, table := addr, tile := n, bank, row, width := laneStep fmt, lines := skewLines fmt bank row payload }

/-- Operand tiles enter engine-local SRAM for a command; those of its earlier reads of the same tensor leave it (06 R208). -/
def enterSram (c : Cmd) (k addr : Nat) (m : Mat) (ns : List Nat) : Run Unit := modify fun s =>
  let new := ns.map fun n => sramTile c.order k addr m.t.id m.t.fmt n (tilePayload m.t.fmt (m.t.shape n) (m.tiles.getD n { elems := [] }))
  { s with sram := (s.sram.filter fun t => !(t.order == c.order && t.table == addr)) ++ new }

end Sys2Proof.Machine
end

