-- ==== Sys2Proof/Machine/Product.lean ====
section
/-! DEFINITION. How a product is worked off: its accumulator tiles, the steps that a quantum runs on each, what they read, and the
output tiles that become ready (02 R48-R50; 05 R161-R174, R191). -/

namespace Sys2Proof.Machine

/-- A unit of a product: the accumulator tile of a block of rows and columns, or the U of a row block (05 R161, R163, R170). -/
structure Block where
  /-- product of the batch -/
  p : Nat
  /-- first row and column -/
  row : Nat
  col : Nat
  /-- valid rows and columns -/
  vr : Nat
  vc : Nat
  /-- reduction steps, side steps included -/
  steps : Nat
  /-- the expert, or the served group that a U belongs to -/
  part : Nat := 0
  /-- a row block's U, formed before the accumulator tiles of its rows -/
  isU : Bool := false
  deriving DecidableEq, Repr

/-- The accumulator tiles of a batch of products, row tiles by column tiles. -/
def gridBlocks (batch m n steps : Nat) : List Block :=
  (upFrom 0 batch).flatMap fun p => (upFrom 0 (ceilDiv m 128)).flatMap fun i => (upFrom 0 (ceilDiv n 128)).map fun u =>
    { p, row := 128 * i, col := 128 * u, vr := min 128 (m - 128 * i), vc := min 128 (n - 128 * u), steps }

/-- Rows and columns of a block, in row-major order. -/
def Block.cells (b : Block) : List (Nat × Nat) := (upFrom b.row b.vr).flatMap fun m => (upFrom b.col b.vc).map fun n => (m, n)

/-- A block holds an element. -/
def Block.has (b : Block) (p m n : Nat) : Bool :=
  b.p == p && b.row ≤ m && m < b.row + b.vr && b.col ≤ n && n < b.col + b.vc

/-- The accumulator tile of an element: its unit, and the element's place in it. -/
def placeIn (l : List Block) (p m n : Nat) : Option (Nat × Nat) :=
  (l.findIdx? fun b => !b.isU && b.has p m n).bind fun u => l[u]?.map fun b => (u, (m - b.row) * b.vc + (n - b.col))

/-- The units whose blocks meet rows and columns of a product. -/
def unitsOver (l : List Block) (p r0 r1 c0 c1 : Nat) : List Nat :=
  (upFrom 0 l.length).filter fun u => match l[u]? with
    | some b => !b.isU && b.p == p && b.row < r1 && r0 < b.row + b.vr && b.col < c1 && c0 < b.col + b.vc
    | none => false

/-- What the reads of a quantum give its steps: for a unit, step, row and column, the two operands; none where the step does not
feed the element (07 R286; 05 R178). -/
structure Feed where
  real : Block → Nat → Nat → Nat → Option (Num × Num)
  whole : Block → Nat → Nat → Nat → Option KPos := fun _ _ _ _ => none

/-- A product as its quanta take it. -/
structure Product where
  blocks : List Block
  /-- the integer path applies (05 R167) -/
  int : Bool
  /-- both operands are MXINT8: s is exact (05 R169) -/
  exact : Bool
  /-- segment of a unit, and s of one whose segment is the whole reduction, by the judgement (05 R169) -/
  seg : Nat → Seg
  scale : Nat → Num
  /-- a cut on the integer path falls on multiples of so many steps (log 110) -/
  grain : Nat
  /-- the U that a unit's side steps use -/
  us : Nat → List Nat
  /-- output tiles, and the accumulator tiles each is formed from -/
  outs : List Nat
  deps : Nat → List Nat
  /-- cycles of a unit's steps, and epilogue cycles of an accumulator tile (05 R165, R191) -/
  cycles : Block → Nat
  epilogue : Nat
  /-- an operand is read transposed -/
  transposed : Bool := false

/-- Block of a unit. -/
def Product.block (P : Product) (u : Nat) : Block := P.blocks.getD u { p := 0, row := 0, col := 0, vr := 0, vc := 0, steps := 0 }

/-- The step to which a cut asked for at a step falls back: the integer path is cut between reduction tiles (log 110). -/
def Product.cut (P : Product) (u n : Nat) : Nat :=
  if P.int && P.seg u != .len 1 then n / P.grain * P.grain else n

/-- The work of a product. -/
def Product.job (P : Product) : Job where
  units := P.blocks.length
  steps u := (P.block u).steps
  cut := P.cut
  outs := P.outs
  deps := P.deps
  next u := if (P.block u).isU then (upFrom 0 P.blocks.length).filter fun v => (P.us v).contains u else []

/-- The 32 bits of every element of a unit, and the elements whose sum was held, after further steps (05 R163, R168-R170). -/
def Product.advance (P : Product) (f : Feed) (p : Piece) : AccTile :=
  let b := P.block p.tile.unit
  let cells := b.cells
  let old := if p.tile.vals.isEmpty then cells.map fun _ => 0 else p.tile.vals
  let steps := upFrom p.tile.steps (p.till - p.tile.steps)
  if P.int then
    let l := (cells.zip old).map fun q => intSteps (P.seg p.tile.unit) P.exact q.2 (steps.filterMap fun i => f.whole b i q.1.1 q.1.2)
    { unit := p.tile.unit, steps := p.till, vals := l.map (·.1)
      held := (upFrom 0 l.length).filter fun i => (l.getD i (0, false)).2 || p.tile.held.contains i }
  else
    { unit := p.tile.unit, steps := p.till
      vals := (cells.zip old).map fun q => steps.foldl (fun a i => match f.real b i q.1.1 q.1.2 with
        | some x => facc a x.1 x.2
        | none => a) q.2 }

/-- Values that the spec leaves to the hardware's timing: the counter increases by a free value (05 R171, R191; log 29). -/
def freeBump (k : Nat) (x : Ctr) (limit : Nat) : Run Unit :=
  if limit = 0 then pure () else modify fun s => s.draw.2.bump k x (s.draw.1 % limit)

/-- Count what a quantum's steps cost: STEPS and TRANSPOSED_STEPS by the steps run; a stall is possible only where a step is, and
the wait for the epilogue is at most what each drained tile's steps fall short of it (05 R171, R191, R204; log 29). -/
def Product.count (P : Product) (k : Nat) (l : List Piece) : Run Unit := do
  let n := (l.map fun p => p.till - p.tile.steps).foldl (· + ·) 0
  bumpNow k .steps n
  bumpNow k .transposedSteps (if P.transposed then n else 0)
  freeBump k .feedStallCycles (if n = 0 then 0 else 2 ^ 64)
  let short := (l.map fun p =>
    let b := P.block p.tile.unit
    if b.isU || p.till != b.steps then 0 else P.epilogue - P.cycles b).foldl (· + ·) 0
  freeBump k .epilogueExposedCycles (if short = 0 then 0 else short + 1)

/-- Run some pieces of a quantum: read, step, keep; elements held in INT32 count at commit (04 R152). -/
def Product.runPieces (P : Product) (c : Cmd) (k : Nat) (l : List Piece) (read : List Piece → Run Feed) : Run Unit := do
  if l.isEmpty then pure ()
  else
    P.count k l
    let f ← read l
    let done := l.map fun p => (p, P.advance f p)
    let held := done.map fun p => if p.2.steps = (P.block p.2.unit).steps then p.2.held.length else 0
    stageCounts c k [(.int32Saturated, held.foldl (· + ·) 0)]
    P.job.bank c k done

/-- The steps of a quantum: first the row blocks' U, then the accumulator tiles whose U is whole (05 R170); the output tiles that
can be produced after it. -/
def Product.run (P : Product) (c : Cmd) (k : Nat) (read : List Piece → Run Feed) : Run (List Nat) := do
  let l ← P.job.pieces c k
  P.runPieces c k (l.filter fun p => (P.block p.tile.unit).isU) read
  let w := (← get).workOf c k
  P.runPieces c k (l.filter fun p => !(P.block p.tile.unit).isU && (P.us p.tile.unit).all (P.job.whole w)) read
  P.job.ready c k

/-- The accumulator value of an element (05 R168, R169; Table 5.6 step 1). -/
def Product.acc (P : Product) (w : Work) (p m n : Nat) : Nat :=
  match placeIn P.blocks p m n with
  | none => 0
  | some (u, i) => if P.int && P.seg u == .whole then segValue (signedCode 32 (w.acc u i)) (P.scale u) else w.acc u i

/-- u = bf16_rne(fp32_rne(alpha × U)) at a row and a side position of a U's block (05 R170). -/
def Product.uAt (P : Product) (w : Work) (alpha u m j : Nat) : Nat :=
  let b := P.block u
  bf16rne (fmul alpha (w.acc u ((m - b.row) * b.vc + j)))

/-- The judgement of the integer path over a product's units: the decode scale that all positions of the row block share, and that
of the column block (05 R169); `wide` where the row operand differs by column (05 R178). -/
def judgeBlocks (blocks : List Block) (wide : Bool) (f : Block → Nat → Nat → Nat → Option KPos) : List (List (Option Nat)) :=
  let one (l : List IPos) : Option Nat :=
    match ((l.filter (·.present)).map fun x => rnd32 x.d).eraseDups with
    | [] => some one32
    | [d] => some d
    | _ => none
  let at_ (b : Block) (rows cols : Nat) (g : KPos → IPos) : Option Nat :=
    one ((upFrom b.row rows).flatMap fun m => (upFrom b.col cols).flatMap fun n => (upFrom 0 b.steps).filterMap fun i => (f b i m n).map g)
  [blocks.map fun b => at_ b b.vr (if wide then b.vc else min 1 b.vc) (·.2.1), blocks.map fun b => at_ b (min 1 b.vr) b.vc (·.2.2)]

/-- The segment of a unit (05 R169): by the kinds of the operands, or by the judgement. -/
def segOf (mx across : Bool) (j : List (List (Option Nat))) (u : Nat) : Seg :=
  if mx then (if across then .len 1 else .len 32)
  else match (j.getD 0 []).getD u none, (j.getD 1 []).getD u none with
    | some _, some _ => .whole
    | _, _ => .len 128

/-- s of a unit whose segment is the whole reduction (05 R169). -/
def wholeScale (j : List (List (Option Nat))) (u : Nat) : Num :=
  match (j.getD 0 []).getD u none, (j.getD 1 []).getD u none with
  | some x, some w => val32 (rnd32 ((val32 x).mul (val32 w)))
  | _, _ => .zero

/-- Cycles of a reduction step for a pair of formats (05 Table 5.1). -/
def stepCycles (x w : Nat) : Nat :=
  let wide (b : Nat) : Nat := if fmtBits b = 32 then 16 else if fmtBits b = 16 then 4 else 1
  let four (b : Nat) : Bool := fmtBits b == 4
  max (max (wide x) (wide w)) (if four w then 1 else 2)

end Sys2Proof.Machine
end

