-- ==== Sys2Proof/Machine/Engines.lean ====
section
/-! DEFINITION. The compute commands of class 0x04: MATMUL, CONV, SCAN, MOE.ROUTE, MOE.MATMUL and ENGINE.QUERY
(05 R161-R206). -/

namespace Sys2Proof.Machine

/-! ### The block of Table 5.9 -/

/-- Bytes 0-143 of a product's block (05 Table 5.9). -/
structure Mm where
  x : Nat
  w : Nat
  y : Nat
  c : Nat
  bias : Nat
  m : Nat
  n : Nat
  k : Nat
  batch : Nat
  mode : Nat
  act : Nat
  fmt : Nat
  flags : Nat
  head : Nat
  numctl : Nat
  alpha : Nat
  beta : Nat
  scale : Nat
  dim : Nat
  rank : Nat
  seed : Nat
  stream : Nat
  stats : Nat
  freq : Nat
  pos : Nat
  sideA : Nat
  sideB : Nat
  sideAlpha : Nat
  deriving DecidableEq, Repr

/-- The fields of a block. -/
def mmOf (b : List Byte) : Mm where
  x := u64 b 0
  w := u64 b 8
  y := u64 b 16
  c := u64 b 24
  bias := u64 b 32
  m := u32 b 40
  n := u32 b 44
  k := u32 b 48
  batch := u16 b 52
  mode := u8 b 54
  act := u8 b 55
  fmt := u8 b 56
  flags := u8 b 57
  head := u16 b 58
  numctl := u32 b 60
  alpha := u32 b 64
  beta := u32 b 68
  scale := u32 b 72
  dim := u16 b 76
  rank := u16 b 78
  seed := u64 b 80
  stream := u64 b 88
  stats := u64 b 96
  freq := u64 b 104
  pos := u64 b 112
  sideA := u64 b 120
  sideB := u64 b 128
  sideAlpha := u32 b 136

def Mm.glu (f : Mm) : Bool := isGlu f.act
def Mm.rope (f : Mm) : Bool := bitOf f.flags 1
def Mm.half (f : Mm) : Bool := bitOf f.flags 2
def Mm.hasStats (f : Mm) : Bool := bitOf f.flags 0
def Mm.xT (f : Mm) : Bool := bitOf f.mode 0
def Mm.wT (f : Mm) : Bool := bitOf f.mode 1
def Mm.shared (f : Mm) : Bool := bitOf f.mode 2

/-- Columns of the output (05 R189). -/
def Mm.outCols (f : Mm) : Nat := if f.glu then f.n / 2 else f.n

/-- What the commands that share Table 5.9 change in it. -/
inductive MmUse where
  | matmul
  | conv
  | moe
  | variant
  deriving DecidableEq, Repr

/-- The geometry of Table 5.10, with CAUSAL applied (05 R177). -/
structure Geo where
  inH : Nat
  inW : Nat
  kh : Nat
  kw : Nat
  sh : Nat
  sw : Nat
  dh : Nat
  dw : Nat
  top : Nat
  left : Nat
  depthwise : Bool
  oh : Int
  ow : Int
  deriving DecidableEq, Repr

/-- The geometry of a block. -/
def geoOf (b : List Byte) : Geo :=
  let causal := bitOf (u8 b 158) 1
  let inH := u16 b 144
  let inW := u16 b 146
  let kh := u8 b 148
  let kw := u8 b 149
  let sh := u8 b 150
  let sw := u8 b 151
  let dh := u8 b 152
  let dw := u8 b 153
  let left := if causal then dw * (kw - 1) else u8 b 156
  let right := if causal then 0 else u8 b 157
  let count (size before after dil taps stride : Nat) : Int :=
    ((size : Int) + before + after - dil * ((taps : Int) - 1) - 1) / stride + 1
  { inH, inW, kh, kw, sh, sw, dh, dw, top := u8 b 154, left, depthwise := bitOf (u8 b 158) 0
    oh := count inH (u8 b 154) (u8 b 155) dh kh sh, ow := count inW left right dw kw sw }

/-- The input row of output position m at tap t, where it lies inside the input (05 R176). -/
def Geo.row (g : Geo) (m t : Nat) : Option Nat :=
  let ow := g.ow.toNat
  let ih : Int := (m / ow * g.sh + t / g.kw * g.dh : Nat) - (g.top : Int)
  let iw : Int := (m % ow * g.sw + t % g.kw * g.dw : Nat) - (g.left : Int)
  if 0 ≤ ih && ih < g.inH && 0 ≤ iw && iw < g.inW then some (ih.toNat * g.inW + iw.toNat) else none

/-- Tap and channel of reduction index k for output column n (05 R176, R178). -/
def Geo.tap (g : Geo) (ch n k : Nat) : Nat × Nat := if g.depthwise then (k, n) else (k / ch, k % ch)

/-- The geometry's fields in block order (05 R177, R200). -/
def geoChecks (b : List Byte) : List (Nat × Bool) :=
  let g := geoOf b
  let causal := bitOf (u8 b 158) 1
  [(144, 1 ≤ g.inH && (!causal || g.inH == 1)), (146, 1 ≤ g.inW), (148, 1 ≤ g.kh && g.kh ≤ 16 && (!causal || g.kh == 1)),
   (149, 1 ≤ g.kw && g.kw ≤ 16), (150, 1 ≤ g.sh && g.sh ≤ 4), (151, 1 ≤ g.sw && g.sw ≤ 4), (152, 1 ≤ g.dh && g.dh ≤ 64),
   (153, 1 ≤ g.dw && g.dw ≤ 64), (154, !causal || u8 b 154 == 0), (155, !causal || u8 b 155 == 0), (156, !causal || u8 b 156 == 0),
   (157, !causal || u8 b 157 == 0), (158, u8 b 158 ≤ 3), (159, u8 b 159 == 0)]

/-- M and K agree with the geometry (05 R175, R178); a geometry with a field out of range gives no count to agree with. -/
def geoAgrees (b : List Byte) (m k : Nat) : Bool × Bool :=
  let g := geoOf b
  let ok := (geoChecks b).all (·.2)
  (!ok || (1 ≤ g.oh && 1 ≤ g.ow && (m : Int) == g.oh * g.ow), !ok || (k % (g.kh * g.kw) == 0 && (!g.depthwise || k == g.kh * g.kw)))

/-- H and G of a route record (05 R185). -/
def routeH (e : Nat) : Nat := 64 * ceilDiv (16 * e) 64
def routeG (e t topk : Nat) : Nat := routeH e + 64 * ceilDiv (8 * t * topk) 64

/-- Bytes of a route record (05 R202). -/
def routeLen (e t topk : Nat) : Nat := routeG e t topk + 8 * t * topk

/-- E, T and TOPK size a route record (05 Tables 5.12, 5.13). -/
def routeSized (e t topk : Nat) : Bool := 2 ≤ e && e ≤ 1024 && 1 ≤ t && t ≤ 1048576 && 1 ≤ topk && topk ≤ 8 && topk ≤ e

/-- A reference within 48 bits, nonzero where it must be (05 R195). -/
def refOk (a : Nat) (must : Bool) : Bool := a < 2 ^ 48 && (!must || a != 0)

/-- A region that a field names lies in a buffer, where its length is given by fields in range (05 R205). -/
def regionAt (c : Cmd) (k : Nat) (sized : Bool) (a n off : Nat) : Run Unit := do
  if sized then
    let _ ← bufferAt c k a n off

/-- Rows of the output (05 R197, R203). -/
def Mm.outRows (f : Mm) (use : MmUse) (b : List Byte) : Nat :=
  if use = .moe ∧ !bitOf (u8 b 155) 1 then f.m * u8 b 154 else f.m

/-- The fields of Table 5.9 in block order, with the changes of R200, R203 and 07 R287 (05 R196, R205). -/
def mmFields (c : Cmd) (k : Nat) (use : MmUse) : Run Mm := do
  let b := c.block
  let f := mmOf b
  let only (u : MmUse) : Bool := decide (use = u)
  fld (refOk f.x true) 0
  fld (refOk f.w true) 8
  regionAt c k (only .moe && 2 ≤ u16 b 152 && u16 b 152 ≤ 1024) f.w (8 * u16 b 152) 8
  fld (refOk f.y true) 16
  fld (refOk f.c false && (!only .moe || f.c == 0)) 24
  fld (refOk f.bias false && (!only .moe || f.bias == 0)) 32
  fld (1 ≤ f.m && f.m ≤ 1048576 && (!only .conv || (geoAgrees b f.m f.k).1)) 40
  fld (1 ≤ f.n && f.n ≤ 1048576) 44
  fld (f.k ≤ 1048576 && (!only .conv || (f.k != 0 && (geoAgrees b f.m f.k).2))) 48
  fld (1 ≤ f.batch && f.batch ≤ 4096 && (!only .variant || f.batch == 1)) 52
  fld (f.mode ≤ 7 && (only .matmul || f.mode == 0) && !(f.rank != 0 && (f.xT || f.wT))) 54
  fld (f.act ≤ 8 && !(f.glu && f.n % 2 == 1)) 55
  fld (fmtValid f.fmt) 56
  fld (f.flags ≤ 7 && !(f.rope && (f.glu || only .moe))) 57
  fld (if f.rope then f.head % 2 == 0 && 2 ≤ f.head && f.head ≤ f.n && f.n % f.head == 0 else f.head == 0) 58
  fldPlan ((← get).ctlOk k f.fmt f.numctl) 60
  fld (isFin f.alpha) 64
  fld (isFin f.beta) 68
  fld (outScaleOk f.fmt f.numctl f.scale) 72
  fld (if f.rope then f.dim % 2 == 0 && 2 ≤ f.dim && f.dim ≤ f.head else f.dim == 0) 76
  fld (f.rank ≤ 256 && (only .matmul || f.rank == 0) && !(f.rank != 0 && f.k == 0)) 78
  fld (aligned64 f.stats && (!f.hasStats || f.stats != 0)) 96
  regionAt c k (f.hasStats && (!only .moe || (1 ≤ u8 b 154 && u8 b 154 ≤ 8))) f.stats
    (8 * (f.batch * ceilDiv (f.outRows use b) 128 * ceilDiv f.outCols 128)) 96
  fld (refOk f.freq f.rope) 104
  fld (refOk f.pos f.rope) 112
  fld (refOk f.sideA (f.rank != 0) && (!only .variant || f.sideA == 0)) 120
  fld (refOk f.sideB (f.rank != 0) && (!only .variant || f.sideB == 0)) 128
  fld (isFin f.sideAlpha && (!only .variant || f.sideAlpha == 0)) 136
  fld (zeroAt b 140 4) 140
  pure f

/-- A tensor that a field names, where the field is in use. -/
def refIf (c : Cmd) (k : Nat) (used : Bool) (a off : Nat) : Run (Option Tensor) := do
  if used && a != 0 then
    let t ← tensorAt c k a off
    pure (some t)
  else pure none

/-- A named tensor has a shape, where it is named (05 R197). -/
def shapeIs (t : Option Tensor) (rows cols batch : Nat) : Bool :=
  match t with
  | none => true
  | some t => t.rows == rows && t.cols == cols && t.batch == batch

/-- A named vector has n entries. -/
def vectorIs (t : Option Tensor) (n batch : Nat) : Bool :=
  match t with
  | none => true
  | some t => t.isVector n && t.batch == batch

/-- A named tensor is FP32 or BF16 of kind NONE (05 R188). -/
def plainIs (t : Option Tensor) : Bool :=
  match t with
  | none => true
  | some t => isPlain t.fmt

/-- The tensors of the epilogue (05 R188-R190). -/
structure EpiRefs where
  y : Tensor
  c : Option Tensor
  bias : Option Tensor
  freq : Option Tensor
  pos : Option Tensor

/-- Look up the epilogue's tensors. -/
def epiRefs (c : Cmd) (k : Nat) (f : Mm) : Run EpiRefs := do
  let y ← tensorAt c k f.y 16
  let ct ← refIf c k true f.c 24
  let bias ← refIf c k true f.bias 32
  let freq ← refIf c k f.rope f.freq 104
  let pos ← refIf c k f.rope f.pos 112
  pure { y, c := ct, bias, freq, pos }

/-- Shapes and formats of the epilogue's tensors for an output of `rows` rows (05 R188, R190, R197). -/
def EpiRefs.ok (r : EpiRefs) (f : Mm) (rows : Nat) : Bool :=
  shapeIs (some r.y) rows f.outCols f.batch && r.y.fmt == f.fmt && shapeIs r.c f.m f.n f.batch && plainIs r.c && vectorIs r.bias f.n f.batch
    && plainIs r.bias && vectorIs r.freq (f.dim / 2) f.batch && plainIs r.freq && vectorIs r.pos f.m f.batch
    && (match r.pos with
      | some t => t.fmt == 0
      | none => true)

/-- The tensors named, for the domain rule (07 R274). -/
def EpiRefs.all (r : EpiRefs) : List Tensor := r.y :: ([r.c, r.bias, r.freq, r.pos].filterMap id)

/-- Space of so many tiles of an output, and of its statistics (06 R228; 04 R150). -/
def outSpace (c : Cmd) (k : Nat) (f : Mm) (y : Tensor) (n : Nat) : Run (Nat × Nat × Nat) := do
  if f.hasStats then
    let (_, b, off) ← bufferAt c k f.stats (8 * y.count) 96
    pure (addSpace (slotSpace y n) (pageSpace b off (8 * y.count)))
  else pure (slotSpace y n)

/-- Where statistics go. -/
def Mm.statsAt (f : Mm) : Option (Nat × Nat) := if f.hasStats then some (f.stats, 96) else none

/-- The accumulator columns that an output tile of column block u is formed from: pairs of a GLU code, whole heads of ROPE
(05 R189, R190). -/
def Mm.span (f : Mm) (u : Nat) : Nat × Nat :=
  let e := min f.outCols (128 * u + 128)
  if f.glu then (256 * u, 2 * e) else if f.rope then (128 * u / f.head * f.head, ceilDiv e f.head * f.head) else (128 * u, e)

/-- The accumulator tiles that output tile v is formed from. -/
def Mm.deps (f : Mm) (y : Tensor) (rows : Nat) (blocks : List Block) (v : Nat) : List Nat :=
  let (p, i, u) := y.place v
  let (c0, c1) := f.span u
  unitsOver blocks p (128 * i) (min rows (128 * i + 128)) c0 c1

/-- Contents of the epilogue's inputs. -/
structure EpiMats where
  c : Option Mat
  bias : Option Mat
  freq : Option Mat
  pos : Option Mat

/-- Some tiles of a named tensor. -/
def readIf (c : Cmd) (k : Nat) (t : Option Tensor) (a : Nat) (trap : Bool) (ns : Tensor → List Nat) : Run (Option Mat) := do
  match t with
  | none => pure none
  | some t =>
    let m ← readSome c k a t trap (ns t).eraseDups
    pure (some m)

/-- Read what the epilogue of some output tiles needs; a position that is not a whole number to 2^24 stops the command
(05 R188, R190). -/
def epiMats (c : Cmd) (k : Nat) (f : Mm) (r : EpiRefs) (trap : Bool) (outs : List Nat) : Run EpiMats := do
  let at_ := outs.map r.y.place
  let cols (u : Nat) : List Nat := let (c0, c1) := f.span u; upFrom (c0 / 128) (ceilDiv c1 128 - c0 / 128)
  let cm ← readIf c k r.c f.c trap fun t => at_.flatMap fun (p, i, u) => (cols u).map (t.index p i)
  let bias ← readIf c k r.bias f.bias trap fun t => at_.flatMap fun (p, _, u) => (cols u).map (t.index p 0)
  let freq ← readIf c k r.freq f.freq trap fun t => at_.flatMap fun (p, _, _) => (upFrom 0 t.ct).map (t.index p 0)
  let pos ← readIf c k r.pos f.pos trap fun t => at_.map fun (p, i, _) => t.index p 0 i
  match pos with
  | none => pure ()
  | some m => fld (at_.all fun (p, i, _) => (upFrom (128 * i) (min 128 (f.m - 128 * i))).all fun j => wholePos (m.entry p j)) noField
  pure { c := cm, bias, freq, pos }

/-- Steps 1 and 2 of the epilogue for an element (05 Table 5.6). -/
def EpiMats.pre (e : EpiMats) (f : Mm) (acc : Nat) (p m n : Nat) : Nat :=
  let cv := match e.c with
    | some t => fmul f.beta (t.f32 p m n)
    | none => 0
  let v := ffma f.alpha acc cv
  match e.bias with
  | some t => fadd v (t.entry p n)
  | none => v

/-- Step 3 for output column j, from the step 2 values of a row (05 R189). -/
def Mm.activate (f : Mm) (v : Nat → Nat) (j : Nat) : Nat := if f.glu then activation f.act (v (2 * j)) (v (2 * j + 1)) else activation f.act (v j) 0

/-- Steps 1 to 4: an output value from the accumulators (05 R188-R190). -/
def EpiMats.finish (e : EpiMats) (f : Mm) (acc : Nat → Nat → Nat → Nat) (p m n : Nat) : Nat :=
  let act := f.activate fun q => e.pre f (acc p m q) p m q
  match e.pos, e.freq with
  | some pos, some freq => ropeAt f.half f.head f.dim (pos.entry p) (freq.entry p) act m n
  | _, _ => act n

/-- Epilogue cycles of an accumulator tile, at most: the scale guard may add its pass (05 R191). -/
def Mm.epilogue (f : Mm) (o : OutPlan) (combine : Bool) : Nat :=
  let guard := match o.src with
    | .hist _ g => g
    | _ => false
  128 * (1 + bitNum (2 ≤ f.act) + bitNum f.rope + bitNum guard + bitNum combine)

/-- K0_COMMANDS counts a command completed under R194, when it commits (05 Table 5.14). -/
def countK0 (c : Cmd) (k : Nat) (f : Mm) : Run Unit := stageCounts c k [(.k0Commands, if f.k = 0 then 1 else 0)]

/-- Work a product off and write its output tiles (05 R161-R170, R188; 02 R48-R50). `acc` gives the accumulator values from what the
quantum left, for the output tiles that are ready. -/
def produceMm (c : Cmd) (k : Nat) (f : Mm) (e : EpiRefs) (o : OutPlan) (P : Product) (read : List Piece → Run Feed)
    (acc : Work → List Nat → Run (Nat → Nat → Nat → Nat)) : Run Unit := do
  let outs ← P.run c k read
  let em ← epiMats c k f e o.ctl.trap outs
  let g ← acc ((← get).workOf c k) outs
  P.job.produce c k f.y e.y o f.statsAt outs fun p m n => some (em.finish f g p m n)
  countK0 c k f

/-- Steps of side work of a unit, by which its cycles are counted (05 R165, R170). -/
def unitCycles (rate cost : Nat) (side : Block → Nat) (b : Block) : Nat :=
  if b.isU then 4 * b.steps else (b.steps - side b) * cost * rate + 4 * side b

/-- Positions a to b - 1 of a port, read for lines of a block; nothing where there is none. -/
def Port2.want (o : Port2) (p line n a b : Nat) : List Nat := if a < b then o.tiles p line n a b else []

/-- Read tiles of a port: they enter engine-local SRAM (05 R173; 06 R208). -/
def Port2.fill (o : Port2) (c : Cmd) (k addr : Nat) (trap : Bool) (ns : List Nat) : Run Port2 := do
  if ns.isEmpty then pure o
  else
    let m ← readSome c k addr o.m.t trap ns.eraseDups
    enterSram c k addr m ns.eraseDups
    pure { o with m }

/-! ### MATMUL -/

/-- A port of a tensor before anything of it is read. -/
def portOf (t : Tensor) (down shared : Bool) : Port2 := { m := { t, tiles := #[] }, down, shared }

/-- The same port as planning judges it. -/
def State.peekPort (s : State) (o : Port2) : Port2 := { o with m := s.peekMat o.m.t }

/-- An MXINT8 operand whose blocks lie across the reduction, on either port (05 R169, R174). -/
def acrossPorts (x w : Port2) : Bool := x.stepScales false || w.stepScales true

/-- The U of each row block of a batch (05 R170). -/
def sideBlocks (batch m kk r : Nat) : List Block :=
  if r = 0 then [] else (upFrom 0 batch).flatMap fun p => (upFrom 0 (ceilDiv m 128)).map fun i =>
    { p, row := 128 * i, col := 0, vr := min 128 (m - 128 * i), vc := r, steps := kk, isU := true }

/-- MATMUL (05 R161-R199). -/
def opMatmul (c : Cmd) (s : State) : Chk Fin := runWork s do
  let k ← vfOf c
  chk (blockLen c 144)
  let f ← mmFields c k .matmul
  let x ← tensorAt c k f.x 0
  let w ← tensorAt c k f.w 8
  let e ← epiRefs c k f
  let sa ← refIf c k (f.rank != 0) f.sideA 120
  let sb ← refIf c k (f.rank != 0) f.sideB 128
  oneDomain (x :: w :: e.all ++ [sa, sb].filterMap id)
  req (pairOk x.fmt w.fmt f.xT f.wT) .badParam noField
  fld (f.k == 0 || (shapeIs (some x) (if f.xT then f.k else f.m) (if f.xT then f.m else f.k) f.batch
    && shapeIs (some w) (if f.wT then f.n else f.k) (if f.wT then f.k else f.n) (if f.shared then 1 else f.batch))) noField
  fld (e.ok f f.m) noField
  fld (shapeIs sa f.k f.rank f.batch && shapeIs sb f.rank f.n f.batch && [sa, sb].all fun t => match t with
    | some t => t.fmt == 2
    | none => true) noField
  fld (!([f.x, f.w, f.bias].contains f.y) && !(f.rope && [f.freq, f.pos].contains f.y) && !(f.rank != 0 && [f.sideA, f.sideB].contains f.y)) noField
  let int := intPath x.fmt w.fmt
  fld (!(int && f.rank != 0)) 78
  mayWrite e.y (upFrom 0 e.y.count)
  let o ← outPlan k f.fmt f.numctl f.scale f.seed f.stream
  reserve c k (← outSpace c k f e.y e.y.count)
  let xp := portOf x f.xT false
  let wp := portOf w (!f.wT) f.shared
  let ap := portOf (sa.getD x) true false
  let bp := portOf (sb.getD x) true false
  let tiles := gridBlocks f.batch f.m f.n (f.k + f.rank)
  let blocks := tiles ++ sideBlocks f.batch f.m f.k f.rank
  let mx := fmtKind x.fmt == 2 || fmtKind w.fmt == 2
  let whole (xp wp : Port2) (b : Block) (i m n : Nat) : Option KPos := some (i, xp.ipos b.p m i, wp.ipos b.p n i)
  let j ← judged fun s => if int && !mx then judgeBlocks blocks false (whole (s.peekPort xp) (s.peekPort wp)) else []
  endPlan
  let P : Product :=
    { blocks, int, exact := fmtKind x.fmt == 2 && fmtKind w.fmt == 2, seg := segOf mx (acrossPorts xp wp) j, scale := wholeScale j, grain := 128
      us := fun u => match blocks[u]? with
        | some b => if f.rank = 0 || b.isU then [] else [tiles.length + b.p * ceilDiv f.m 128 + b.row / 128]
        | none => []
      outs := upFrom 0 e.y.count
      deps := f.deps e.y f.m blocks
      cycles := unitCycles 1 (stepCycles x.fmt w.fmt) fun _ => f.rank
      epilogue := f.epilogue o false
      transposed := f.xT || f.wT }
  let read (ps : List Piece) : Run Feed := do
    let l := ps.map fun p => (P.block p.tile.unit, p.tile.steps, p.till)
    let acc := l.filter fun q => !q.1.isU
    let trap := o.ctl.trap
    let xp ← xp.fill c k f.x trap (l.flatMap fun (b, i, j) => xp.want b.p b.row b.vr i (min j f.k))
    let wp ← wp.fill c k f.w trap (acc.flatMap fun (b, i, j) => wp.want b.p b.col b.vc i (min j f.k))
    let ap ← ap.fill c k f.sideA trap ((l.filter fun q => q.1.isU).flatMap fun (b, i, j) => ap.want b.p b.col b.vc i j)
    let bp ← bp.fill c k f.sideB trap (acc.flatMap fun (b, i, j) => bp.want b.p b.col b.vc (max i f.k - f.k) (j - f.k))
    let w := (← get).workOf c k
    let side (b : Block) (m i : Nat) : Num := val32 (P.uAt w f.sideAlpha (tiles.length + b.p * ceilDiv f.m 128 + b.row / 128) m i)
    pure { real := fun b i m n =>
             if b.isU then some (xp.val b.p m i, ap.val b.p n i)
             else if i < f.k then some (xp.val b.p m i, wp.val b.p n i)
             else some (side b m (i - f.k), bp.val b.p n (i - f.k))
           whole := whole xp wp }
  produceMm c k f e o P read fun w _ => pure (P.acc w)
  pure (if f.k = 0 then (.okNote, 1) else (.ok, 0))

/-! ### CONV (05 R175-R179, R200) -/

/-- CONV (05 R175-R179, R200). -/
def opConv (c : Cmd) (s : State) : Chk Fin := runWork s do
  let k ← vfOf c
  chk (blockLen c 160)
  let f ← mmFields c k .conv
  for q in geoChecks c.block do
    fld q.2 q.1
  let g := geoOf c.block
  let x ← tensorAt c k f.x 0
  let w ← tensorAt c k f.w 8
  let e ← epiRefs c k f
  oneDomain (x :: w :: e.all)
  let ch := if g.depthwise then f.n else f.k / (g.kh * g.kw)
  req (pairOk x.fmt w.fmt false false) .badParam noField
  fld (shapeIs (some x) (g.inH * g.inW) ch f.batch && shapeIs (some w) f.k f.n f.batch && e.ok f f.m) noField
  fld (!([f.x, f.w, f.bias].contains f.y) && !(f.rope && [f.freq, f.pos].contains f.y)) noField
  mayWrite e.y (upFrom 0 e.y.count)
  let o ← outPlan k f.fmt f.numctl f.scale f.seed f.stream
  reserve c k (← outSpace c k f e.y e.y.count)
  let int := intPath x.fmt w.fmt
  let mx := fmtKind x.fmt == 2 || fmtKind w.fmt == 2
  let wp := portOf w true false
  -- a depthwise tile is worked off one column at a time (05 R178)
  let blocks := (gridBlocks f.batch f.m f.n f.k).map fun b => if g.depthwise then { b with steps := b.vc * f.k } else b
  let pos (b : Block) (i n : Nat) : Option Nat := if g.depthwise then (if i / f.k = n - b.col then some (i % f.k) else none) else some i
  let whole (xm : Mat) (wp : Port2) (b : Block) (i m n : Nat) : Option KPos := (pos b i n).map fun r =>
    let t := g.tap ch n r
    (r, match g.row m t.1 with
      | some q => xm.ipos b.p q t.2
      | none => IPos.absent, wp.ipos b.p n r)
  let j ← judged fun s => if int && !mx then judgeBlocks blocks g.depthwise (whole (s.peekMat x) (s.peekPort wp)) else []
  endPlan
  let across := (fmtKind x.fmt == 2 && (x.axis != 0 || g.depthwise)) || (fmtKind w.fmt == 2 && w.axis != 1)
  let P : Product :=
    { blocks, int, exact := fmtKind x.fmt == 2 && fmtKind w.fmt == 2, seg := segOf mx across j, scale := wholeScale j
      grain := if g.depthwise then f.k else 128
      us := fun _ => []
      outs := upFrom 0 e.y.count
      deps := f.deps e.y f.m blocks
      cycles := unitCycles (if g.sw ≤ 2 then 1 else 2) (stepCycles x.fmt w.fmt) fun _ => 0
      epilogue := f.epilogue o false }
  let read (ps : List Piece) : Run Feed := do
    let l := ps.map fun p => (P.block p.tile.unit, p.tile.steps, p.till)
    let taps (b : Block) (i j : Nat) : List Nat := (upFrom i (j - i)).flatMap fun i =>
      let n := if g.depthwise then b.col + i / f.k else b.col
      (upFrom b.row b.vr).filterMap fun m =>
        let t := g.tap ch n (if g.depthwise then i % f.k else i)
        (g.row m t.1).map fun q => x.index b.p (q / 128) (t.2 / 128)
    let xp ← (portOf x false false).fill c k f.x o.ctl.trap (l.flatMap fun (b, i, j) => taps b i j)
    let wp ← wp.fill c k f.w o.ctl.trap (l.flatMap fun (b, i, j) => if g.depthwise then wp.want b.p b.col b.vc 0 f.k else wp.want b.p b.col b.vc i j)
    pure { real := fun b i m n => (pos b i n).map fun r =>
             let t := g.tap ch n r
             (match g.row m t.1 with
               | some q => xp.m.val b.p q t.2
               | none => .zero, wp.val b.p n r)
           whole := whole xp.m wp }
  produceMm c k f e o P read fun w _ => pure (P.acc w)
  pure (.ok, 0)

/-! ### SCAN (05 R180, R181, R201) -/

/-- One level of the Kogge-Stone prefix (05 R180). -/
def scanLevel (sh : Nat) (l : Array (Nat × Nat)) : Array (Nat × Nat) :=
  ((upFrom 0 l.size).map fun i =>
    let x := l.getD i (0, 0)
    if i < sh then x
    else
      let y := l.getD (i - sh) (0, 0)
      (fmul x.1 y.1, ffma x.1 y.2 x.2)).toArray

/-- One chunk of one channel: h at its steps from the carried state (05 R180). -/
def scanChunk (h : Nat) (ab : List (Nat × Nat)) : List Nat :=
  (([1, 2, 4, 8, 16, 32, 64].foldl (fun a sh => scanLevel sh a) ab.toArray).toList).map fun p => ffma p.1 h p.2

/-- The chunks of a scan: unit g × n + q is chunk q of channel group g (05 R181). -/
structure ScanPlan where
  steps : Nat
  channels : Nat
  reverse : Bool

/-- Chunks of one channel. -/
def ScanPlan.chunks (p : ScanPlan) : Nat := ceilDiv p.steps 128

/-- Channels of a group. -/
def ScanPlan.width (p : ScanPlan) (g : Nat) : Nat := min 128 (p.channels - 128 * g)

/-- Time steps of a chunk. -/
def ScanPlan.len (p : ScanPlan) (q : Nat) : Nat := min 128 (p.steps - 128 * q)

/-- Row of a time step, and time step of a row (05 R180). -/
def ScanPlan.row (p : ScanPlan) (i : Nat) : Nat := if p.reverse then p.steps - 1 - i else i

/-- The chunks that rows r to e - 1 come from. -/
def ScanPlan.cover (p : ScanPlan) (r e : Nat) : List Nat :=
  let a := min (p.row r) (p.row (e - 1))
  let b := max (p.row r) (p.row (e - 1))
  upFrom (a / 128) (b / 128 + 1 - a / 128)

/-- The job of a scan: a cut falls only between chunks, and a group's carried states are the last row of its chunk (05 R181).
Output tiles of FINAL follow the `count` tiles of OUT. -/
def ScanPlan.job (p : ScanPlan) (ot ft : Option Tensor) : Job :=
  let n := p.chunks
  let count := (ot.map (·.count)).getD 0
  { units := ceilDiv p.channels 128 * n
    steps := fun _ => 1
    cut := fun _ _ => 0
    outs := upFrom 0 (count + (ft.map (·.count)).getD 0)
    deps := fun v => match ot with
      | some t =>
        if v < count then
          let (_, i, u) := t.place v
          (p.cover (128 * i) (min p.steps (128 * i + 128))).map (u * n + ·)
        else [(v - count) * n + (n - 1)]
      | none => [v * n + (n - 1)]
    next := fun u => if u % n + 1 < n then [u + 1] else [] }

/-- h at a time step of a channel, from the chunks at hand. -/
def ScanPlan.at (p : ScanPlan) (w : Work) (i j : Nat) : Nat :=
  w.acc (j / 128 * p.chunks + i / 128) (i % 128 * p.width (j / 128) + j % 128)

/-- One chunk of a group: h at its steps for every channel, in row-major order (05 R180). -/
def ScanPlan.chunk (p : ScanPlan) (u : Nat) (h : Nat → Nat) (ab : Nat → Nat → Nat × Nat) : List Nat :=
  let g := u / p.chunks
  let q := u % p.chunks
  let cols := ((upFrom 0 (p.width g)).map fun j =>
    (scanChunk (h j) ((upFrom 0 (p.len q)).map fun i => ab (p.row (128 * q + i)) (128 * g + j))).toArray).toArray
  (upFrom 0 (p.len q)).flatMap fun i => (upFrom 0 (p.width g)).map fun j => (cols.getD j #[]).getD i 0

/-- SCAN (05 R180, R181, R201). The block carries no SR seed and no SR stream: one free seed serves the command, and stream 0
(log 111). -/
def opScan (c : Cmd) (s : State) : Chk Fin := runWork s do
  let b := c.block
  let k ← vfOf c
  chk (blockLen c 56)
  let a := u64 b 0
  let bb := u64 b 8
  let h0 := u64 b 16
  let out := u64 b 24
  let fin := u64 b 32
  let t := u32 b 40
  let d := u32 b 44
  let fmt := u8 b 49
  let ctl := u32 b 52
  fld (refOk a true) 0
  fld (refOk bb true) 8
  fld (refOk h0 false) 16
  fld (refOk out false) 24
  fld (refOk fin false && (out != 0 || fin != 0)) 32
  fld (1 ≤ t && t ≤ 4194304) 40
  fld (1 ≤ d && d ≤ 65536) 44
  fld (u8 b 48 ≤ 1) 48
  fld (isPlain fmt) 49
  fld (zeroAt b 50 2) 50
  fld (numctlValid ctl && (numctlOf ctl).src == 0 && !(numctlOf ctl).advance) 52
  let at_ ← tensorAt c k a 0
  let bt ← tensorAt c k bb 8
  let ht ← refIf c k true h0 16
  let ot ← refIf c k true out 24
  let ft ← refIf c k true fin 32
  oneDomain (at_ :: bt :: [ht, ot, ft].filterMap id)
  fld (shapeIs (some at_) t d 1 && isPlain at_.fmt && shapeIs (some bt) t d 1 && isPlain bt.fmt) noField
  fld ([ht, ft].all (fun v => vectorIs v d 1 && (match v with
    | some v => v.fmt == 0
    | none => true)) && shapeIs ot t d 1 && (match ot with
    | some v => v.fmt == fmt
    | none => true)) noField
  let ins := [a, bb] ++ (if h0 = 0 then [] else [h0])
  fld ([out, fin].all fun o => o == 0 || !ins.contains o) noField
  for o in [ot, ft].filterMap id do
    mayWrite o (upFrom 0 o.count)
  reserve c k (sumSpace ([ot, ft].filterMap fun o => o.map fun o => slotSpace o o.count))
  let num := (← get).numOf k
  let seed ← taken freshDraw
  endPlan
  let p : ScanPlan := { steps := t, channels := d, reverse := u8 b 48 == 1 }
  let j := p.job ot ft
  let w := (← get).workOf c k
  -- a chunk goes on from the one before it
  let go := (← j.pieces c k).foldl (fun acc q =>
    let u := q.tile.unit
    if u % p.chunks = 0 || j.whole w (u - 1) || acc.any (fun r => r.tile.unit == u - 1) then acc ++ [q] else acc) ([] : List Piece)
  let rows (u : Nat) : List Nat :=
    let r := p.row (128 * (u % p.chunks))
    let e := p.row (128 * (u % p.chunks) + p.len (u % p.chunks) - 1)
    upFrom (min r e / 128) (max r e / 128 + 1 - min r e / 128)
  let need := (go.flatMap fun q => (rows q.tile.unit).map fun i => at_.index 0 i (q.tile.unit / p.chunks)).eraseDups
  let am ← readSome c k a at_ num.trap need
  let bm ← readSome c k bb bt num.trap need
  let hm ← readIf c k ht h0 num.trap fun _ => ((go.filter fun q => q.tile.unit % p.chunks == 0).map fun q => q.tile.unit / p.chunks).eraseDups
  bumpNow k .scanChunks go.length
  let chunks := go.foldl (fun (w : Work) q =>
    let u := q.tile.unit
    let g := u / p.chunks
    let h (i : Nat) : Nat :=
      if u % p.chunks = 0 then (match hm with
        | some m => m.entry 0 (128 * g + i)
        | none => 0)
      else w.acc (u - 1) (127 * p.width g + i)
    { w with tiles := (w.tiles.filter fun x => x.unit != u) ++
        [{ unit := u, steps := 1, vals := p.chunk u h fun i n => (am.f32 0 i n, bm.f32 0 i n) }] }) w
  j.bank c k (go.filterMap fun q => (chunks.tileOf q.tile.unit).map fun x => ({ q with anvil := none }, x))
  let outs ← j.ready c k
  let w := (← get).workOf c k
  let count := (ot.map (·.count)).getD 0
  let plan (fmt : Nat) (sr : Bool) : OutPlan :=
    { fmt, ctl := { (numctlOf ctl).ctl num with sr := sr && (numctlOf ctl).sr }, cfg := num, src := .given 0, t := 0
      slot := none, seed := seed % 2 ^ 64, stream := 0 }
  match ot with
  | some o => emitPlain c k out o (plan fmt true) (outs.filter (· < count)) fun _ r n => some (p.at w (p.row r) n)
  | none => pure ()
  match ft with
  | some o => emitPlain c k fin o (plan 0 false) ((outs.filter (count ≤ ·)).map (· - count)) fun _ _ n => some (p.at w (t - 1) n)
  | none => pure ()
  j.close c k outs
  pure (.ok, 0)

/-! ### Expert routing (05 R182-R187, R202, R203) -/

/-- A logit as it ranks: NaN as −∞ (05 R182). -/
def rankLogit (a : Nat) : Nat := if isNan a then ninf32 else a

/-- The best of the remaining experts: largest logit, lower index on a tie. -/
def bestExpert (l : List (Nat × Nat)) : Option (Nat × Nat) :=
  match l with
  | [] => none
  | a :: r => some (r.foldl (fun b x => if flt b.2 x.2 then x else b) a)

/-- The TOPK choices in order (05 R182). -/
def topChoices : Nat → List (Nat × Nat) → List (Nat × Nat)
  | 0, _ => []
  | n + 1, l => match bestExpert l with
    | none => []
    | some b => b :: topChoices n (l.filter fun x => x.1 != b.1)

/-- Gate weights of the chosen experts, in their order (05 R183). -/
def gateWeights (gating : Nat) (all chosen : List (Nat × Nat)) : List Nat :=
  if all.all fun x => x.2 == ninf32 then chosen.map fun _ => 0
  else
    let mx := match bestExpert all with
      | some b => b.2
      | none => 0
    let e (x : Nat × Nat) : Nat := crExp (fsub x.2 mx)
    let total (l : List (Nat × Nat)) : Nat := (l.map e).foldl fadd 0
    let asc := all.filter fun x => chosen.any fun y => y.1 == x.1
    if gating = 0 then chosen.map fun x => fdiv (e x) (total asc)
    else
      let s := total all
      let p (x : Nat × Nat) : Nat := fdiv (e x) s
      if gating = 1 then chosen.map p
      else
        let sg := (asc.map p).foldl fadd 0
        chosen.map fun x => fdiv (p x) sg

/-- One assignment: token, place among its choices, expert, weight, and whether it was dropped (05 R184). -/
structure Assign where
  token : Nat
  choice : Nat
  expert : Nat
  weight : Nat
  dropped : Bool
  deriving DecidableEq, Repr

/-- Assign in token order, dropping past CAPACITY (05 R184). -/
def assignAll (cap : Nat) (l : List Assign) : List Assign :=
  (l.foldl (fun (acc : List Assign × Tab Nat) a =>
    let n := Tab.get 0 acc.2 a.expert
    if n < cap then ({ a with dropped := false } :: acc.1, Tab.set acc.2 a.expert (n + 1)) else ({ a with dropped := true } :: acc.1, acc.2)) ([], [])).1.reverse

/-- The entries in expert order, ascending token (05 R185). -/
def routeEntries (e : Nat) (l : List Assign) : List Assign := (upFrom 0 e).flatMap fun x => l.filter fun a => a.expert == x && !a.dropped

/-- The route record (05 Table 5.5); bytes that no field covers are free (log 30). -/
def routeRecord (e t topk : Nat) (l : List Assign) (free : Nat → List Byte) : List Byte :=
  let ents := routeEntries e l
  let count (x : Nat) : Nat := (ents.filter fun a => a.expert == x).length
  let offset (x : Nat) : Nat := (ents.filter fun a => a.expert < x).length
  let heads := (upFrom 0 e).flatMap fun x => leBytes (count x) 4 ++ leBytes (offset x) 4 ++ leBytes ((l.filter fun a => a.expert == x && a.dropped).length) 4 ++ leBytes 0 4
  let body := ents.flatMap fun a => leBytes a.token 4 ++ leBytes a.weight 4
  let slot (a : Assign) : Nat := if a.dropped then 0xFFFFFFFF else (ents.findIdx? fun b => b == a).getD 0xFFFFFFFF
  let choices := l.flatMap fun a => leBytes a.expert 2 ++ leBytes (bitNum a.dropped) 1 ++ leBytes 0 1 ++ leBytes (slot a) 4
  let pad (n : Nat) (b : List Byte) : List Byte := b ++ padTo (n - b.length) (free (n - b.length))
  pad (routeG e t topk) (pad (routeH e) heads ++ body) ++ choices

/-- MOE.ROUTE (05 R182-R185, R202). -/
def opMoeRoute (c : Cmd) (s : State) : Chk Fin := runWork s do
  let b := c.block
  let k ← vfOf c
  chk (blockLen c 32)
  let lr := u64 b 0
  let rr := u64 b 8
  let t := u32 b 16
  let e := u16 b 20
  let topk := u8 b 22
  let cap := u32 b 24
  fld (refOk lr true) 0
  fld (aligned64 rr && rr != 0) 8
  regionAt c k (routeSized e t topk) rr (routeLen e t topk) 8
  fld (1 ≤ t && t ≤ 1048576) 16
  fld (2 ≤ e && e ≤ 1024) 20
  fld (1 ≤ topk && topk ≤ 8 && topk ≤ e) 22
  fld (u8 b 23 ≤ 2) 23
  fld (1 ≤ cap && cap ≤ t) 24
  fld (zeroAt b 28 4) 28
  let lt ← tensorAt c k lr 0
  fld (shapeIs (some lt) t e 1 && isPlain lt.fmt) noField
  let (ba, buf, off) ← bufferAt c k rr (routeLen e t topk) 8
  reserve c k (pageSpace buf off (routeLen e t topk))
  let trap := ((← get).numOf k).trap
  endPlan
  let m ← readMat c k lr lt trap
  let raw (i : Nat) : List Nat := (upFrom 0 e).map fun x => m.f32 0 i x
  let picks := (upFrom 0 t).flatMap fun i =>
    let all := (upFrom 0 e).zip ((raw i).map rankLogit)
    let ch := topChoices topk all
    ((upFrom 0 topk).zip (ch.zip (gateWeights (u8 b 23) all ch))).map fun q =>
      ({ token := i, choice := q.1, expert := q.2.1.1, weight := q.2.2, dropped := false } : Assign)
  let l := assignAll cap picks
  bumpNow k .routeDropped (l.filter (·.dropped)).length
  bumpNow k .routeNanLogits (((upFrom 0 t).flatMap raw).filter isNan).length
  let s ← get
  set { s with free := s.free + 1 }
  writeBuffer c k ba buf off (routeRecord e t topk l (Config.freeBytes s.free))
  stage c (.routeRecord k ba off (routeLen e t topk) e topk t)
  pure (.ok, 0)

/-- A route record as it is read back: entries per expert, and the entries (expert, token, weight) in expert order. -/
structure Route where
  counts : List Nat
  entries : Array (Nat × Nat × Nat)
  deriving DecidableEq, Repr

/-- The experts' entries begin where those of the experts below them end (05 R185). -/
def routeOf (e : Nat) (b : List Byte) : Route :=
  let counts := (upFrom 0 e).map fun x => u32 b (16 * x)
  { counts
    entries := ((upFrom 0 e).flatMap fun x => (upFrom ((counts.take x).foldl (· + ·) 0) (counts.getD x 0)).map fun i =>
      (x, u32 b (routeH e + 8 * i), u32 b (routeH e + 8 * i + 4))).toArray }

/-- Expert, token and weight of an entry. -/
def Route.entry (r : Route) (i : Nat) : Nat × Nat × Nat := r.entries.getD i (0, 0, 0)

/-- Bytes of a buffer that the planning of the first quantum reads and every quantum uses; the read counts when the first
quantum executes. -/
def readFixed (c : Cmd) (k : Nat) (b : Buffer) (off n : Nat) : Run (List Byte) := do
  let s ← get
  if s.executesPlan && s.works.all (fun w => w.order != c.order) then
    let _ ← readBuffer k b off n
  let l ← takenAll do
    let l ← readBuffer k b off n
    pure (l.map (·.toNat))
  pure (l.map (BitVec.ofNat 8))

/-- The accumulator tiles of the experts: each expert's entries fill row tiles of their own (05 R186). -/
def moeBlocks (batch n kk : Nat) (counts : List Nat) : List Block :=
  (upFrom 0 batch).flatMap fun p => (upFrom 0 counts.length).flatMap fun e =>
    let first := (counts.take e).foldl (· + ·) 0
    (gridBlocks 1 (counts.getD e 0) n kk).map fun b => { b with p, row := first + b.row, part := e }

/-- MOE.MATMUL (05 R186, R187, R203). -/
def opMoeMatmul (c : Cmd) (s : State) : Chk Fin := runWork s do
  let b := c.block
  let k ← vfOf c
  chk (blockLen c 160)
  let f ← mmFields c k .moe
  let rr := u64 b 144
  let e := u16 b 152
  let topk := u8 b 154
  let packed := bitOf (u8 b 155) 0
  let combine := bitOf (u8 b 155) 1
  fld (aligned64 rr && rr != 0) 144
  regionAt c k (routeSized e f.m topk) rr (routeLen e f.m topk) 144
  fld (2 ≤ e && e ≤ 1024) 152
  fld (1 ≤ topk && topk ≤ 8 && topk ≤ e) 154
  fld (u8 b 155 ≤ 3) 155
  fld (zeroAt b 156 4) 156
  let x ← tensorAt c k f.x 0
  let y ← tensorAt c k f.y 16
  let (_, tb, toff) ← bufferAt c k f.w (8 * e) 8
  let (_, rb, roff) ← bufferAt c k rr (routeLen e f.m topk) 144
  reqPlan (rb.routes.contains (roff, routeLen e f.m topk, e, topk, f.m)) .badParam 144
  let table ← readFixed c k tb toff (8 * e)
  let route := routeOf e (← readFixed c k rb roff (routeLen e f.m topk))
  let refs := (upFrom 0 e).map fun i => u64 table (8 * i)
  let ws ← refs.mapM fun a => tensorAt c k a noField
  oneDomain (x :: y :: ws)
  let rows := f.m * topk
  let yRows := if combine then f.m else rows
  let wf := match ws with
    | w :: _ => w.fmt
    | [] => 0
  fld (ws.all fun w => w.fmt == wf) noField
  req (pairOk x.fmt wf false false) .badParam noField
  fld (f.k == 0 || (shapeIs (some x) (if packed then rows else f.m) f.k f.batch && ws.all fun w => shapeIs (some w) f.k f.n f.batch)) noField
  fld (shapeIs (some y) yRows f.outCols f.batch && y.fmt == f.fmt) noField
  fld (f.x != f.y && !refs.contains f.y) noField
  let n := route.entries.size
  let outs := (upFrom 0 y.count).filter fun v => combine || 128 * (y.place v).2.1 < n
  mayWrite y outs
  let o ← outPlan k f.fmt f.numctl f.scale f.seed f.stream
  reserve c k (← outSpace c k f y outs.length)
  let xrow (i : Nat) : Nat := if packed then i else (route.entry i).2.1
  let int := intPath x.fmt wf
  let mx := fmtKind x.fmt == 2 || fmtKind wf == 2
  let blocks := moeBlocks f.batch f.n f.k route.counts
  let xp := portOf x false false
  let j ← judged fun s =>
    if int && !mx then
      let xm := s.peekMat x
      let wms := ws.map s.peekMat
      judgeBlocks blocks false fun b i m q => some (i, xm.ipos b.p (xrow m) i, (wms.getD b.part xm).ipos b.p i q)
    else []
  endPlan
  -- a token's row is formed from the accumulator tiles of all its retained choices (05 R187)
  let deps (v : Nat) : List Nat :=
    let (p, i, u) := y.place v
    let (c0, c1) := f.span u
    if combine then
      (((upFrom 0 n).filter fun q => (route.entry q).2.1 / 128 == i).flatMap fun q => unitsOver blocks p q (q + 1) c0 c1).eraseDups
    else f.deps y n blocks v
  let across := (fmtKind x.fmt == 2 && x.axis != 0) || (fmtKind wf == 2 && ws.any fun w => w.axis != 1)
  let P : Product :=
    { blocks, int, exact := fmtKind x.fmt == 2 && fmtKind wf == 2, seg := segOf mx across j, scale := wholeScale j, grain := 128
      us := fun _ => [], outs, deps
      cycles := unitCycles 1 (stepCycles x.fmt wf) fun _ => 0
      epilogue := f.epilogue o combine }
  let read (ps : List Piece) : Run Feed := do
    let l := ps.map fun p => (P.block p.tile.unit, p.tile.steps, p.till)
    let xp ← xp.fill c k f.x o.ctl.trap (l.flatMap fun (b, i, j) => (upFrom b.row b.vr).flatMap fun m => xp.want b.p (xrow m) 1 i j)
    let experts := (l.map fun q => q.1.part).eraseDups
    let wps ← experts.mapM fun q => do
      let wp := portOf (ws.getD q x) true false
      let wp ← wp.fill c k (refs.getD q 0) o.ctl.trap ((l.filter fun r => r.1.part == q).flatMap fun (b, i, j) => wp.want b.p b.col b.vc i j)
      pure (q, wp)
    let wOf (b : Block) : Port2 := ((wps.find? fun q => q.1 == b.part).map (·.2)).getD xp
    pure { real := fun b i m q => some (xp.val b.p (xrow m) i, (wOf b).val b.p q i)
           whole := fun b i m q => some (i, xp.ipos b.p (xrow m) i, (wOf b).ipos b.p q i) }
  let ready ← P.run c k read
  let w := (← get).workOf c k
  let em : EpiMats := { c := none, bias := none, freq := none, pos := none }
  let row := em.finish f (P.acc w)
  P.job.produce c k f.y y o f.statsAt ready fun p m q =>
    if combine then some (((upFrom 0 n).filter fun i => (route.entry i).2.1 == m).foldl (fun v i => ffma (route.entry i).2.2 (row p i q) v) 0)
    else if m < n then some (row p m q)
    else none
  countK0 c k f
  pure (.ok, 0)

/-! ### ENGINE.QUERY -/

/-- ENGINE.QUERY (05 R204). -/
def opEngineQuery (c : Cmd) (s : State) : Chk Fin := runWork s do
  let k ← vfOf c
  chk (blockLen c 8)
  fld (aligned64 (u64 c.block 0)) 0
  let s ← get
  let g (t : Ctr) := ctrGet (s.comp k).ctrs t
  putRecord c (u64 c.block 0)
    (layout 64 [(0, 8, g .steps), (8, 8, g .feedStallCycles), (16, 8, g .epilogueExposedCycles), (24, 8, g .transposedSteps),
      (32, 8, g .scanChunks), (40, 8, g .k0Commands), (48, 8, g .routeDropped), (56, 8, g .routeNanLogits)])
  pure (.ok, 0)

/-! ### The meanings (05 Table 5.8) -/

def execMatmul (c : Cmd) (s : State) : Out := .next (runCmd 0x0401 c s (opMatmul c s))
def execConv (c : Cmd) (s : State) : Out := .next (runCmd 0x0402 c s (opConv c s))
def execScan (c : Cmd) (s : State) : Out := .next (runCmd 0x0403 c s (opScan c s))
def execMoeRoute (c : Cmd) (s : State) : Out := .next (runCmd 0x0404 c s (opMoeRoute c s))
def execMoeMatmul (c : Cmd) (s : State) : Out := .next (runCmd 0x0405 c s (opMoeMatmul c s))
def execEngineQuery (c : Cmd) (s : State) : Out := .next (runCmd 0x0406 c s (opEngineQuery c s))

end Sys2Proof.Machine
end

