-- ==== Sys2Proof/Machine/Memory.lean ====
section
/-! DEFINITION. The commands of classes 0x03 and 0x09, the numeric configuration commands of class 0x04, and what settle and
the stroke boundary do with memory and numeric state (06 R243-R251, 04 R145-R159, 10 R401-R406). -/

namespace Sys2Proof.Machine

/-! ### What settle does -/

/-- A seal leaves a tile: its generation has one live tile less; HOME 0 tiles have none (11 R431). -/
def State.dropSeal (s : State) (k keyRef : Nat) (x : Tile) : State :=
  if x.data.isSome && x.tier != 0 then s.liveTile k keyRef x.sealer (· - 1) else s

/-- A seal enters a tile. -/
def State.addSeal (s : State) (k keyRef : Nat) (x : Tile) : State :=
  if x.data.isSome && x.tier != 0 then s.liveTile k keyRef x.sealer (· + 1) else s

/-- The descriptor switches to a fresh slot; a valid copy is kept up to date (06 R227, R232). -/
def State.switchTile (s : State) (k addr : Nat) (p : Nat × Tile) : State :=
  match Tab.find? (s.comp k).tensors addr with
  | none => s
  | some t =>
    let old := Tab.get {} t.tiles p.1
    let s := (s.dropSeal k t.keyRef old).addSeal k t.keyRef p.2
    s.modComp k fun x => x.modTile addr p.1 fun o => { p.2 with copy := o.copy, pinned := o.pinned }

/-- Every seal of a tensor is dropped with it. -/
def State.dropTensor (s : State) (k addr : Nat) : State :=
  match Tab.find? (s.comp k).tensors addr with
  | none => s
  | some t =>
    let s := t.tiles.foldl (fun s p => s.dropSeal k t.keyRef p.2) s
    s.modComp k fun x => { x with tensors := Tab.del x.tensors addr }

/-- The release of a tensor or a buffer (06 R247). -/
def State.freeObject (s : State) (k addr : Nat) : State :=
  match Tab.find? (s.comp k).buffers addr with
  | some b =>
    let s := b.pages.foldl (fun s p => s.liveTile k 0 p.2.sealer (· - 1)) s
    s.modComp k fun x => { x with buffers := Tab.del x.buffers addr }
  | none => s.dropTensor k addr

/-- A moved tile keeps what it holds and takes its new tier and seal (06 R248). -/
def State.moveTile (s : State) (k addr : Nat) (p : Nat × Tile) : State :=
  match Tab.find? (s.comp k).tensors addr with
  | none => s
  | some t =>
    let old := Tab.get {} t.tiles p.1
    let new := { p.2 with data := old.data, copy := if p.2.tier = 0 then none else old.copy, pinned := old.pinned }
    ((s.dropSeal k t.keyRef old).addSeal k t.keyRef new).modComp k fun x => x.modTile addr p.1 fun _ => new

/-- Add committed counts. -/
def State.addCounts (s : State) (k : Nat) (l : List (Ctr × Nat)) : State := l.foldl (fun s p => s.bump k p.1 p.2) s

/-- Work that the device does on its own, outside a command: its counts take effect with it, and what it wrote to host windows stands. -/
def State.workNow {α : Type} (s : State) (m : Run α) : Option α × State :=
  match (ExceptT.run m).run { s with act := {} } with
  | (.ok a, s') =>
    let s0 : State := { s' with commits := s.commits }
    (some a, ((s'.commits.drop s.commits.length).foldl (fun s c => match c.what with
      | .count k l => s.addCounts k l
      | _ => s) s0).flushWindow)
  | (.error _, s') => (none, { s' with commits := s.commits, act := {} })

/-- A tile written at the settle of its move is placed in the new home as it was written: it is sealed there anew (06 R248). -/
def State.retarget (s : State) (k addr order home peer n : Nat) : State :=
  match Tab.find? (s.comp k).tensors addr with
  | none => s
  | some t =>
    let t' := { t with home, peer }
    match (Tab.get {} t.tiles n).data with
    | none => s
    | some d => match (ExceptT.run (takeDown k t' n d)).run s with
      | (.ok (x, cs), s') =>
        let s' := if home = 3 then s'.peerRequest order k addr n t' (s'.storedForm k t' n x) else s'
        ((s'.flushWindow.switchTile k addr (n, x)).addCounts k cs)
      | (.error _, _) => s

/-- Tiles that results of a settle write to a tensor. -/
def tilesWritten (l : List PendingCommit) (k addr : Nat) : List Nat :=
  l.flatMap fun c => match c.what with
    | .tileWrite j a tiles => if j = k ∧ a = addr then tiles.map (·.1) else []
    | _ => []

/-- The tiles that a result of a placement has to seal anew: those moved and written at one settle, and, when the placement is
complete, those whose tier is not the new home (06 R248). -/
def State.misplaced (s : State) (l : List PendingCommit) (c : PendingCommit) : List (Nat × Nat × Nat × Nat × Nat × Nat) :=
  match c.what with
  | .placeMoves k addr order home peer moves =>
    ((moves.map (·.1)).filter (tilesWritten l k addr).contains).map fun n => (k, addr, order, home, peer, n)
  | .place k addr home _ peer =>
    (((Tab.find? (s.comp k).tensors addr).map (·.tiles)).getD []).filterMap fun p =>
      if p.2.data.isSome && (p.2.tier != home || p.2.peer != peer) then some (k, addr, c.order, home, peer, p.1) else none
  | _ => []

/-- Placements settle: every tile stands in the home it was moved to (06 R248). -/
def State.settlePlaces (s : State) (l : List PendingCommit) : State :=
  l.foldl (fun s c => (s.misplaced l c).foldl (fun s m => s.retarget m.1 m.2.1 m.2.2.1 m.2.2.2.1 m.2.2.2.2.1 m.2.2.2.2.2) s) s

/-- Mark lines written. -/
def setLines (l : Tab Unit) (first n : Nat) : Tab Unit := (upFrom first n).foldl (fun l i => Tab.set l i ()) l

/-- Bytes written to a buffer (06 R220). -/
def Buffer.write (b : Buffer) (off : Nat) (bytes : List Byte) (pages : List (Nat × Page)) : Buffer :=
  { b with
    mem := Mem.writeBytes b.mem off bytes
    lines := setLines b.lines (off / 64) (ceilDiv (off + bytes.length) 64 - off / 64)
    routes := b.routes.filter fun r => off + bytes.length ≤ r.1 || r.1 + r.2.1 ≤ off
    pages := pages.foldl (fun t p => Tab.set t p.1 p.2) b.pages }

/-- A buffer's write commits; the seals of its pages replace the earlier ones. -/
def State.writeBuf (s : State) (k addr off : Nat) (bytes : List Byte) (pages : List (Nat × Page)) : State :=
  match Tab.find? (s.comp k).buffers addr with
  | none => s
  | some b =>
    let s := pages.foldl (fun (s : State) p =>
      let s := match Tab.find? b.pages p.1 with
        | some o => s.liveTile k 0 o.sealer (· - 1)
        | none => s
      s.liveTile k 0 p.2.sealer (· + 1)) s
    s.modComp k fun x => { x with buffers := Tab.set x.buffers addr (b.write off bytes pages) }

/-- A route record stands at an offset of a buffer (05 R203). -/
def State.commitRoute (s : State) (k addr off bytes e topk t : Nat) : State :=
  s.modComp k fun x => match Tab.find? x.buffers addr with
    | some b => { x with buffers := Tab.set x.buffers addr { b with routes := b.routes ++ [(off, bytes, e, topk, t)] } }
    | none => x

/-- d of a slot: fp32_up(w × 2^M / maxfinite), 1.0 when w is 0 (04 R145). -/
def histScale (fmt margin w : Nat) : Nat :=
  if w = 0 then one32 else up32 (((val32 w).mul (Num.pow2 margin)).div (maxFinite fmt))

/-- A contribution to a slot's pending maximum; discarded when the slot was set or released since (04 R146, R157). -/
def State.histAdd (s : State) (k slot gen amax : Nat) : State :=
  s.modComp k fun x => match Tab.find? x.hist slot with
    | some h => if h.gen = gen then { x with hist := Tab.set x.hist slot { h with pending := max h.pending amax } } else x
    | none => x

/-- A slot's window advances at settle (04 R146). -/
def State.histAdvance (s : State) (k slot gen : Nat) : State :=
  let now := s.stroke.number
  s.modComp k fun x => match Tab.find? x.hist slot with
    | some h =>
      if h.gen = gen then
        let w := (h.pending :: h.window).take h.len
        let h := { h with window := w, pending := 0, d := histScale h.fmt h.margin (w.foldl max 0) }
        { x with hist := Tab.set x.hist slot { h with advances := sat64 h.advances 1, lastStroke := now } }
      else x
    | none => x

/-- Every slot on which a committed command had HIST_ADVANCE set advances once (04 R146). -/
def State.histAdvances (s : State) (l : List PendingCommit) : State :=
  ((l.filterMap fun c => match c.what with
    | .hist k slot gen _ true => some (k, slot, gen)
    | _ => none).eraseDups).foldl (fun s p => s.histAdvance p.1 p.2.1 p.2.2) s

/-! ### Hearth lines (R222) -/

/-- The lines of a tile that Hearth holds, with its home there or as a cached copy: each 64-byte line of its payload and metadata, under
the compartment's Hearth key with the line's address as the tweak; 12 Table 12.2 gives their tags. -/
def State.hearthLines (s : State) (k addr n : Nat) : Option (List (List Byte)) := do
  let x := s.comp k
  let t ← Tab.find? x.tensors addr
  let d ← t.tiles.find? fun p => p.1 == n
  let data ← d.2.data
  let key ← x.hearthKey
  let base ← if d.2.tier = 0 then some d.2.slot else d.2.copy.map fun _ => Config.hearthCopy t.id n
  let raw := tilePayload t.fmt (t.shape n) data ++ tileMeta t.fmt (t.shape n) data
  let lines := hearthBytes t.fmt / 64
  pure ((chunks 64 lines (padTo (64 * lines) raw)).zipIdx.map fun p => xtsLine key (base + 64 * p.2) p.1)

/-- The tag that a compartment's lines carry (12 R451, R452). -/
def Comp.lineTag (k : Nat) (x : Comp) : Nat := 256 * k + x.epoch

/-! ### What the stroke boundary does -/

/-- Evict copies, pinned ones last, until the cache part holds them; evicted pins count in PIN_REFUSED (06 R245). -/
def State.shrinkCache (s : State) (k : Nat) : State :=
  let x := s.comp k
  let n := x.copies.length
  let y := Comp.evict false x.hearthCache n x
  let pins (x : Comp) := (x.copies.filter fun c => c.2.2.2.2.1).length
  let z := Comp.evict true x.hearthCache n y
  (s.setComp k z).bump k .pinRefused (pins y - pins z)

/-- Accepted MEM.CONFIGs take effect in order (06 R245). -/
def State.applyMem (s : State) (k : Nat) : State :=
  let s := s.modComp k fun x =>
    let x := x.memPending.foldl (fun (x : Comp) p => { x with mem := p.1, hostWin := p.2 }) x
    { x with memPending := [] }
  s.shrinkCache k

/-- One SCALE.HIST.SET takes effect (04 R157). -/
def Comp.histSet (x : Comp) (h : HistSet) : Comp :=
  let gen := Tab.get 0 x.histGen h.slot + 1
  let x := { x with histGen := Tab.set x.histGen h.slot gen }
  match h.set with
  | none => { x with hist := Tab.del x.hist h.slot }
  | some (fmt, len, margin, init) =>
    let slot : HistSlot := { fmt, len, margin, window := List.replicate len init, d := histScale fmt margin init, gen }
    { x with hist := Tab.set x.hist h.slot slot }

/-- NUMERIC.CONFIG and the SCALE.HIST.SETs take effect; of two on one slot the one admitted later (04 R157). -/
def State.applyNumeric (s : State) (k : Nat) : State :=
  s.modComp k fun x =>
    let last := x.histPending.filter fun h => x.histPending.all fun g => g.slot != h.slot || g.order ≤ h.order
    let x := last.foldl Comp.histSet x
    { x with num := (x.numPending.map (·.2)).getD x.num, numPending := none, histPending := [] }

/-- A copy under a new hint: STREAM keeps none, and only PIN keeps pins (06 R231). -/
def Tile.hinted (x : Tile) (cache : Nat) : Tile :=
  { x with copy := if cache = 2 then none else x.copy, pinned := x.pinned && cache == 1, refused := false }

/-- CACHE hints take effect (06 R248). -/
def State.applyPlaces (s : State) (k : Nat) : State :=
  s.modComp k fun x =>
    let ts := x.placePending.foldl (fun (t : Tab Tensor) p => match Tab.find? t p.1 with
      | some a => Tab.set t p.1 { a with cache := p.2, tiles := a.tiles.map fun q => (q.1, q.2.hinted p.2) }
      | none => t) x.tensors
    { x with tensors := ts, placePending := [] }

/-! ### Class 0x03 -/

/-- The window that will be in force once every accepted MEM.CONFIG has applied (06 R245). -/
def Comp.windowAhead (x : Comp) : Option (Nat × Nat) :=
  match x.memPending.getLast? with
  | some p => p.2
  | none => x.hostWin

/-- A planned command is moving tiles into or out of the host window: a placement into it, a residency change, a training state whose
homes lie in it (06 R245). -/
def movesWindow (a : Adm) : Bool :=
  match a.op with
  | 0x0306 => u8 a.cmd.block 8 == 2
  | 0x0612 => true
  | 0x0613 => true
  | _ => false

/-- A set of a variant lies parked in the host window (07 R280). -/
def Variant.parkedSet (v : Variant) : Bool := !v.resident && (v.active.isSome || v.shadow.isSome || v.successor.isSome)

/-- The host window holds, or may come to hold, something of the compartment (06 R245). -/
def State.windowHeld (s : State) (k order : Nat) : Bool :=
  let x := s.comp k
  let slow (t : Option Train) : Bool := match t with
    | some t => t.stateHome == 2 || t.ckptHome == 2
    | none => false
  x.tensors.any (fun p => p.2.home == 2 || p.2.tiles.any fun q => q.2.data.isSome && q.2.tier == 2) || x.streams.any (fun p => p.2.coldHome == 2)
    || x.variants.any (fun p => p.2.parkedSet || slow p.2.train0 || slow p.2.train2)
    || s.queue.any (fun a => decide (a.cmd.fn = .vf k) && a.cmd.order != order && movesWindow a && a.planned)
    || s.commits.any (fun c => match c.what with
        | .tensorNew j _ t => j == k && t.home == 2
        | .place j _ home _ _ => j == k && home == 2
        | .placeMoves j _ _ home _ _ => j == k && home == 2
        | .streamOpen j _ st => j == k && st.coldHome == 2
        | .varSet j i _ _ _ => j == k && !((Tab.find? x.variants i).any (·.resident))
        | .varReside j _ r _ => j == k && !r
        | .train j _ _ t => j == k && slow t
        | _ => false)

/-- MEM.CONFIG (06 R244, R245). -/
def opMemConfig (c : Cmd) (s : State) : Chk Fin := runWork s do
  let b := c.block
  let k ← vfOf c
  chk (blockLen c 24)
  fld (u8 b 0 ≤ 1) 0
  fld (u8 b 1 ≤ 16) 1
  fld (zeroAt b 2 6) 2
  let a := u64 b 8
  let n := u64 b 16
  fld (a % 4096 == 0 && (a == 0) == (n == 0)) 8
  fld (n == 0 || (2 ^ 21 ≤ n && n ≤ 2 ^ 40 && n % 2 ^ 21 == 0)) 16
  let win := if n = 0 then none else some (a, n)
  let s ← get
  let x := s.comp k
  fld (decide (win = x.windowAhead) || x.windowAhead.isNone || !s.windowHeld k c.order) 8
  set (s.modComp k fun x => { x with memPending := x.memPending ++ [({ strict := u8 b 0 == 1, sixteenths := u8 b 1 }, win)] })
  pure (.ok, 0)

/-- Every member concerned is claimed with the compartment's TENANT_KEY_DIGEST (13 R496). -/
def State.spanClaimed (s : State) (k : Nat) (nodes : List Nat) : Bool :=
  match (s.comp k).claim, (s.comp k).span with
  | some c, some sp => nodes.all fun n => s.link.node == some n || sp.reports.any fun r => r.1 == n && r.2.2.2.2 == c.digest
  | _, _ => false

/-- HOME 3 needs a cell (06 R231). -/
def cellFor (home off : Nat) : Run Unit := do
  fld (home != 3 || (← get).link.cell.isSome) off

/-- HOME 3 needs members claimed with one digest (13 R496). -/
def claimedFor (k home peer : Nat) : Run Unit := do
  let s ← get
  req (home != 3 || s.spanClaimed k [(s.cellNode peer).getD 0xFFFF]) .notPermitted

/-- TENSOR.CREATE (06 R244, R246). -/
def opTensorCreate (c : Cmd) (s : State) : Chk Fin := runWork s do
  let b := c.block
  let k ← vfOf c
  chk (blockLen c 32)
  let home := u8 b 2
  let flags := u8 b 17
  let key := u16 b 18
  fld (fmtValid (u8 b 0)) 0
  fld (u8 b 1 ≤ 1) 1
  fld (home ≤ 3) 2
  cellFor home 2
  fld (u8 b 3 ≤ 3 && (home != 0 || u8 b 3 == 0)) 3
  fld (1 ≤ u32 b 4 && u32 b 4 ≤ 4194304) 4
  fld (1 ≤ u32 b 8 && u32 b 8 ≤ 1048576) 8
  fld (1 ≤ u16 b 12 && u16 b 12 ≤ 4096) 12
  fld (bitOf flags 0 || u16 b 14 == 0) 14
  fld (if home = 3 then u8 b 16 ≤ 15 else u8 b 16 == 0) 16
  fld (flags ≤ 3) 17
  fld (home != 0 || key == 0) 18
  if key != 0 then
    fld (keyHandleKind key ≤ 3 && keyHandleKind key != 0) 18
    req (keyHandleKind key == 2) .notPermitted
    let s ← get
    req (s.liveKey c key).isSome .keyAbsent
  fld (zeroAt b 20 4) 20
  fld (aligned64 (u64 b 24)) 24
  let t : Tensor :=
    { id := 0, fmt := u8 b 0, axis := u8 b 1, home, cache := u8 b 3, peer := u8 b 16
      domain := if bitOf flags 0 then some (u16 b 14) else none
      readOnly := bitOf flags 1, keyRef := key, rows := u32 b 4, cols := u32 b 8, batch := u16 b 12 }
  fld (t.count ≤ 67108864) noField
  claimedFor k home (u8 b 16)
  reserve c k t.space
  let addr ← newTable k t.tableBytes
  let id ← newId k
  endPlan
  stage c (.tensorNew k addr { t with id })
  let slot := if home = 0 then hearthBytes t.fmt else slotBytes t.fmt
  putRecord c (u64 b 24) (layout 64 [(0, 8, addr), (8, 8, id), (16, 4, t.count), (20, 4, slot), (24, 8, t.tableBytes + t.count * slot)])
  pure (.ok, 0)

/-- BUFFER.CREATE (06 R244, R246). -/
def opBufferCreate (c : Cmd) (s : State) : Chk Fin := runWork s do
  let b := c.block
  let k ← vfOf c
  chk (blockLen c 24)
  let len := u64 b 0
  fld (64 ≤ len && len ≤ 2 ^ 36 && len % 64 == 0) 0
  fld (u8 b 8 ≤ 1) 8
  fld (zeroAt b 9 7) 9
  fld (aligned64 (u64 b 16)) 16
  let x : Buffer := { id := 0, len, home := u8 b 8 }
  reserve c k x.space
  let addr ← newBuffer k len
  let id ← newId k
  endPlan
  stage c (.bufferNew k addr { x with id })
  putRecord c (u64 b 16) (layout 64 [(0, 8, addr)])
  pure (.ok, 0)

/-- MEM.FREE (06 R247). -/
def opMemFree (c : Cmd) (s : State) : Chk Fin := runWork s do
  let k ← vfOf c
  chk (blockLen c 8)
  let a := u64 c.block 0
  fld (a < 2 ^ 48) 0
  let s ← get
  let x := s.comp k
  match Tab.find? x.tensors a, Tab.find? x.buffers a with
  | some t, _ =>
    req (liveFor t.closing c) .staleGeneration
    req (t.owner == 3) .notPermitted
    set (s.modComp k fun x => { x with tensors := Tab.set x.tensors a { t with closing := some c.order } })
    stage c (.memFree k a)
    pure (.ok, 0)
  | none, some b =>
    fld (liveFor b.closing c) 0
    req (b.owner == 3) .notPermitted
    set (s.modComp k fun x => { x with buffers := Tab.set x.buffers a { b with closing := some c.order } })
    stage c (.memFree k a)
    pure (.ok, 0)
  | none, none =>
    fld (a < 2 ^ 40) 0
    failWith .staleGeneration

/-- MEM.QUERY (06 R250). -/
def opMemQuery (c : Cmd) (s : State) : Chk Fin := runWork s do
  let k ← vfOf c
  chk (blockLen c 8)
  fld (aligned64 (u64 c.block 0)) 0
  let s ← get
  let x := s.comp k
  let u := s.spaceUsed k (2 ^ 64)
  let host := x.space.2.2
  let g (t : Ctr) := ctrGet x.ctrs t
  putRecord c (u64 c.block 0)
    (layout 128 [(0, 8, u.1), (8, 8, copyBytes x.copies), (16, 8, u.2.1), (24, 8, host), (32, 8, g .hearthHits), (40, 8, g .hearthMisses),
      (48, 8, g .unwrittenReads), (56, 8, g .authFails), (64, 8, g .tilesSealed), (72, 8, g .tilesCoded), (80, 8, g .codedBytesSaved),
      (88, 8, g .pinRefused), (96, 8, g .slotWaits)])
  pure (.ok, 0)

/-- TENSOR.PLACE (06 R248): CACHE alone takes effect at the next boundary; a change of HOME or PEER moves every written tile, in
ascending order, as far as each quantum goes. -/
def opTensorPlace (c : Cmd) (s : State) : Chk Fin := runWork s do
  let b := c.block
  let k ← vfOf c
  chk (blockLen c 16)
  let t ← tensorAt c k (u64 b 0) 0
  let home := u8 b 8
  fld (home ≤ 3) 8
  cellFor home 8
  fld (u8 b 9 ≤ 3 && (home != 0 || u8 b 9 == 0)) 9
  fld (if home = 3 then u8 b 10 ≤ 15 else u8 b 10 == 0) 10
  fld (zeroAt b 11 5) 11
  req t.base.isNone .notPermitted
  claimedFor k home (u8 b 10)
  if home = t.home ∧ u8 b 10 = t.peer then
    modify fun s => s.modComp k fun x => { x with placePending := x.placePending ++ [(u64 b 0, u8 b 9)] }
    pure (.ok, 0)
  else
    let t' := { t with home, cache := u8 b 9, peer := u8 b 10 }
    reserve c k (slotSpace t' t.count)
    endPlan
    let go ← ascending ((upFrom 0 t.count).filter fun n => match Tab.find? t.tiles n with
      | some x => x.data.isSome && (x.tier != home || x.peer != u8 b 10)
      | none => false)
    let data ← bringUp c k (u64 b 0) t go
    stage c (.placeMoves k (u64 b 0) c.order home (u8 b 10) (← sealTiles c k (u64 b 0) t' (go.zip data)))
    if (← get).act.reach.isEmpty then
      stage c (.place k (u64 b 0) home (u8 b 9) (u8 b 10))
      pure (.ok, 0)
    else throw .part

/-- The fields that TENSOR.IMPORT and TENSOR.EXPORT share (06 R244). -/
def imageFields (c : Cmd) (k : Nat) : Run (Tensor × Nat × Nat) := do
  let b := c.block
  chk (blockLen c 32)
  let t ← tensorAt c k (u64 b 0) 0
  fld (aligned64 (u64 b 8)) 8
  fld (u32 b 16 < t.count) 16
  fld (1 ≤ u32 b 20 && u32 b 16 + u32 b 20 ≤ t.count) 20
  fld (zeroAt b 24 8) 24
  pure (t, u32 b 16, u32 b 20)

/-- TENSOR.IMPORT (06 R249). -/
def opTensorImport (c : Cmd) (s : State) : Chk Fin := runWork s do
  let k ← vfOf c
  let (t, first, count) ← imageFields c k
  let ns := upFrom first count
  mayWrite t ns
  reserve c k (slotSpace t count)
  endPlan
  let s ← get
  let sz := imageBytes t.fmt
  let l := ns.map fun n => (n, tileOfBytes t.fmt (t.shape n) (s.hostRead c.fn (u64 c.block 8 + (n - first) * sz) sz))
  match l.find? fun p => !scaleFieldsOk t.fmt p.2 with
  | some p => failWith .badParam (p.1 - first)
  | none =>
    writeTiles c k (u64 c.block 0) t l
    pure (.ok, 0)

/-- TENSOR.EXPORT (06 R249), a host write failing after `limit` images: images already written stay when it fails. -/
def opTensorExportTo (limit : Option Nat) (c : Cmd) (s : State) : Chk Fin := runWork s do
  let k ← vfOf c
  let (t, first, count) ← imageFields c k
  req (t.keyRef == 0) .notPermitted
  endPlan
  let sz := imageBytes t.fmt
  let w := (← get).workOf c k
  let go ← ascending ((upFrom 0 count).filter fun i => !w.done.contains i)
  for i in go do
    req (decide (limit ≠ some i)) .hostWindowFault
    for d in ← readCounted false c k (u64 c.block 0) t false [first + i] do
      modify fun s => s.hostWrite c.fn (u64 c.block 8 + i * sz) (tileImage t.fmt (t.shape (first + i)) d)
  if (← get).act.reach.isEmpty then
    modify (·.endWork c.order)
    pure (.ok, 0)
  else
    modify (·.setWork { w with done := w.done ++ go })
    throw .part

/-- TENSOR.EXPORT whose host writes all succeed. -/
def opTensorExport (c : Cmd) (s : State) : Chk Fin := opTensorExportTo none c s

/-! ### Numeric configuration -/

/-- NUMERIC.CONFIG (04 R155, R157); of two that complete in one stroke the one admitted later takes effect, where the spec settles it for
SCALE.HIST.SET only (log 115). -/
def opNumericConfig (c : Cmd) (s : State) : Chk Fin := runWork s do
  let b := c.block
  let k ← vfOf c
  chk (blockLen c 8)
  fld (u8 b 0 == 1 || u8 b 0 == 2) 0
  fld (u8 b 1 == 1 || u8 b 1 == 2) 1
  fld (u32 b 2 ≤ 65536) 2
  fld (u8 b 6 ≤ 8) 6
  fld (u8 b 7 == 0) 7
  let cfg : NumCfg := { trap := u8 b 0 == 2, guard := u8 b 1 == 1, clipShare := u32 b 2, rangeShift := u8 b 6 }
  modify fun s => s.modComp k fun x => { x with numPending := match x.numPending with
    | some p => if c.order < p.1 then some p else some (c.order, cfg)
    | none => some (c.order, cfg) }
  pure (.ok, 0)

/-- NUMERIC.QUERY (04 R158). -/
def opNumericQuery (c : Cmd) (s : State) : Chk Fin := runWork s do
  let k ← vfOf c
  chk (blockLen c 8)
  fld (aligned64 (u64 c.block 0)) 0
  let s ← get
  let g (t : Ctr) := ctrGet (s.comp k).ctrs t
  putRecord c (u64 c.block 0)
    (layout 64 [(0, 8, g .elemsEncoded), (8, 8, g .elemsClipped), (16, 8, g .guardClipFires), (24, 8, g .guardRangeFires),
      (32, 8, g .nanConverted), (40, 8, g .nanTraps), (48, 8, g .int32Saturated), (56, 8, g .srElems)])
  pure (.ok, 0)

/-- A format byte that SCALE.HIST.SET takes: TENSOR kind of FP8, FP6, FP4, INT8 or INT4 (04 Table 4.14). -/
def histFormat (b : Nat) : Bool := fmtKind b == 1 && 3 ≤ fmtElem b && fmtElem b ≤ 9

/-- SCALE.HIST.SET (04 R155, R157). An INIT_AMAX of −0 is in the range "finite, >= 0", and the window then holds +0 (log 116). -/
def opScaleHistSet (c : Cmd) (s : State) : Chk Fin := runWork s do
  let b := c.block
  let k ← vfOf c
  chk (blockLen c 16)
  let rel := u8 b 5 == 1
  fld (u16 b 0 ≤ 4095) 0
  fld (rel || histFormat (u8 b 2)) 2
  fld (rel || (1 ≤ u8 b 3 && u8 b 3 ≤ 16)) 3
  fld (rel || u8 b 4 ≤ 8) 4
  fld (u8 b 5 ≤ 1) 5
  fld (zeroAt b 6 2) 6
  fld (rel || (isFin (u32 b 8) && (!bitOf (u32 b 8) 31 || u32 b 8 == 2 ^ 31))) 8
  fld (zeroAt b 12 4) 12
  let h : HistSet := { slot := u16 b 0, order := c.order, set := if rel then none else some (u8 b 2, u8 b 3, u8 b 4, fabs (u32 b 8)) }
  modify fun s => s.modComp k fun x => { x with histPending := x.histPending ++ [h] }
  pure (.ok, 0)

/-- SCALE.HIST.READ (04 R157, R158). -/
def opScaleHistRead (c : Cmd) (s : State) : Chk Fin := runWork s do
  let b := c.block
  let k ← vfOf c
  chk (blockLen c 16)
  fld (u16 b 0 ≤ 4095) 0
  fld (zeroAt b 2 6) 2
  fld (aligned64 (u64 b 8)) 8
  let s ← get
  match Tab.find? (s.comp k).hist (u16 b 0) with
  | none =>
    putRecord c (u64 b 8) (layout 128 [])
    pure (.okNote, 0)
  | some h =>
    putRecord c (u64 b 8)
      (layout 128 ([(0, 4, h.d), (4, 1, h.fmt), (5, 1, h.len), (6, 1, h.margin), (7, 1, 1), (8, 8, h.advances), (16, 8, h.lastStroke), (24, 4, h.pending)]
        ++ (upFrom 0 h.len).map fun i => (64 + 4 * i, 4, h.window.getD i 0)))
    pure (.ok, 0)

/-! ### Class 0x09 -/

/-- Distinct generator blocks among draws of rising element indices. -/
def distinctBlocks (w : Nat) (l : List Nat) : Nat :=
  (l.foldl (fun (p : Nat × Option Nat) i =>
    let b := i * w / 128
    if p.2 = some b then p else (p.1 + 1, some b)) (0, none)).1

/-- RAND.GEN into a buffer: bytes, draw width and ones (10 R397, R400, R403). -/
def randBuffer (kind seed stream prob count base : Nat) : List Byte × Nat :=
  if kind = 0 then ((upFrom 0 count).flatMap fun n => leBytes (randDraw seed stream 32 (base + n)) 4, 0)
  else
    let bits := (upFrom 0 count).map fun n => decide (randDraw seed stream 16 (base + n) < prob)
    let bytes := bitsToBytes bits
    (padTo (64 * ceilDiv bytes.length 64) bytes, (bits.filter id).length)

/-- RAND.GEN (10 R402-R404, R406). -/
def opRandGen (c : Cmd) (s : State) : Chk Fin := runWork s do
  let b := c.block
  let k ← vfOf c
  chk (blockLen c 72)
  let seed := u64 b 0
  let stream := u64 b 8
  let dest := u64 b 16
  let kind := u8 b 24
  let prob := u32 b 28
  let count := u64 b 32
  let base := u64 b 40
  let buf := kind == 0 || kind == 2
  fld (!buf || aligned64 dest) 16
  fld (kind ≤ 3) 24
  fld (zeroAt b 25 3) 25
  fld (if kind ≥ 2 then prob ≤ 65536 else prob == 0) 28
  fld (if kind = 0 then 1 ≤ count && count ≤ 2 ^ 34 else if kind = 2 then 1 ≤ count && count ≤ 2 ^ 39 else count == 0) 32
  fld (if buf then base + count ≤ 2 ^ 64 else base == 0) 40
  if buf then
    fld (zeroAt b 48 4) 48
    fld (zeroAt b 52 4) 52
    fld (zeroAt b 56 4) 56
    fld (zeroAt b 60 4) 60
    fld (zeroAt b 64 4) 64
    fld (zeroAt b 68 4) 68
    let (bytes, ones) := randBuffer kind seed stream prob count base
    let (ba, x, off) ← bufferAt c k dest bytes.length 16
    reserve c k (pageSpace x off bytes.length)
    writeBuffer c k ba x off bytes
    let w := if kind = 0 then 32 else 16
    stageCounts c k [(.randCommands, 1), (.randElems, count), (.randBlocks, (base + count - 1) * w / 128 - base * w / 128 + 1),
      (.maskOnes, ones), (.maskZeros, if kind = 2 then count - ones else 0)]
    pure (.ok, 0)
  else
    let t ← tensorAt c k dest 16
    let rowBase := u32 b 48
    let colBase := u32 b 52
    let lrows := if u32 b 56 = 0 then t.rows else u32 b 56
    let lcols := if u32 b 60 = 0 then t.cols else u32 b 60
    fld (rowBase + t.rows ≤ lrows) 48
    fld (colBase + t.cols ≤ lcols) 52
    fld (t.rows ≤ lrows && lrows ≤ 2 ^ 26) 56
    fld (t.cols ≤ lcols && lcols ≤ 2 ^ 26) 60
    fld (if kind = 3 then isFin (u32 b 64) else u32 b 64 == 0) 64
    fld (zeroAt b 68 4) 68
    fld (t.fmt == 0 || t.fmt == 2) noField
    let ns := upFrom 0 t.count
    mayWrite t ns
    reserve c k (slotSpace t t.count)
    let w := if kind = 1 ∧ t.fmt = 0 then 32 else 16
    let draw (p r q : Nat) := randDraw seed stream w (elemIndex lrows lcols rowBase colBase p r q)
    let val (p r q : Nat) : Nat :=
      if kind = 1 then rnd32 (.fin false (draw p r q / 256) (if t.fmt = 0 then -24 else -8))
      else if draw p r q < prob then u32 b 64 else 0
    let plan : OutPlan := { fmt := t.fmt, ctl := {}, cfg := {}, src := .given 0, t := 0, slot := none, seed := 0, stream := 0 }
    let l ← encodeTiles plan t ns fun p r q => some (val p r q)
    writeTiles c k dest t (l.map fun p => (p.1, p.2.data))
    let all := (upFrom 0 t.batch).flatMap fun p => (upFrom 0 t.rows).flatMap fun r => (upFrom 0 t.cols).map fun q => (p, r, q)
    let ones := if kind = 3 then (all.filter fun e => draw e.1 e.2.1 e.2.2 < prob).length else 0
    stageCounts c k [(.randCommands, 1), (.randElems, all.length),
      (.randBlocks, distinctBlocks w (all.map fun e => elemIndex lrows lcols rowBase colBase e.1 e.2.1 e.2.2)),
      (.maskOnes, ones), (.maskZeros, if kind = 3 then all.length - ones else 0)]
    pure (.ok, 0)

/-- RAND.QUERY (10 R405). -/
def opRandQuery (c : Cmd) (s : State) : Chk Fin := runWork s do
  let k ← vfOf c
  chk (blockLen c 8)
  fld (aligned64 (u64 c.block 0)) 0
  let s ← get
  let g (t : Ctr) := ctrGet (s.comp k).ctrs t
  putRecord c (u64 c.block 0) (layout 64 [(0, 8, g .randCommands), (8, 8, g .randElems), (16, 8, g .randBlocks), (24, 8, g .maskOnes), (32, 8, g .maskZeros)])
  pure (.ok, 0)

/-! ### The meanings (06 Table 6.14, 04 Table 4.17, 10 Table 10.7). -/

def execMemConfig (c : Cmd) (s : State) : Out := .next (runCmd 0x0301 c s (opMemConfig c s))
def execTensorCreate (c : Cmd) (s : State) : Out := .next (runCmd 0x0302 c s (opTensorCreate c s))
def execBufferCreate (c : Cmd) (s : State) : Out := .next (runCmd 0x0303 c s (opBufferCreate c s))
def execMemFree (c : Cmd) (s : State) : Out := .next (runCmd 0x0304 c s (opMemFree c s))
def execMemQuery (c : Cmd) (s : State) : Out := .next (runCmd 0x0305 c s (opMemQuery c s))
def execTensorPlace (c : Cmd) (s : State) : Out := .next (runCmd 0x0306 c s (opTensorPlace c s))
def execTensorImport (c : Cmd) (s : State) : Out := .next (runCmd 0x0307 c s (opTensorImport c s))
def execTensorExport (c : Cmd) (s : State) : Out := .next (runCmd 0x0308 c s (opTensorExport c s))
def execNumericConfig (c : Cmd) (s : State) : Out := .next (runCmd 0x0440 c s (opNumericConfig c s))
def execNumericQuery (c : Cmd) (s : State) : Out := .next (runCmd 0x0441 c s (opNumericQuery c s))
def execScaleHistSet (c : Cmd) (s : State) : Out := .next (runCmd 0x0442 c s (opScaleHistSet c s))
def execScaleHistRead (c : Cmd) (s : State) : Out := .next (runCmd 0x0443 c s (opScaleHistRead c s))
def execRandGen (c : Cmd) (s : State) : Out := .next (runCmd 0x0901 c s (opRandGen c s))
def execRandQuery (c : Cmd) (s : State) : Out := .next (runCmd 0x0902 c s (opRandQuery c s))

end Sys2Proof.Machine
end

