-- ==== Sys2Proof/Machine/Names.lean ====
section
/-! DEFINITION. What an admitted command names: objects, streams and variants, in its block, its header and the tables its block names;
and the commands admitted before it whose replies are not written yet (03 R92, R102; 06 R247; 07 R281, R282; 08 R315). -/

namespace Sys2Proof.Machine

/-- The commands of a function admitted before an order whose replies are not written yet: an implied dependency on one of them is not
satisfied (03 R93). -/
def State.earlier (s : State) (f : Fn) (order : Nat) : List Adm :=
  (s.queue.filter fun a => decide (a.cmd.fn = f) && a.cmd.order < order)
    ++ (s.replies.filter fun r => decide (r.cmd.fn = f) && r.admitted && !r.lost && r.cmd.order < order).map fun r => admDirect r.cmd r.op

/-- Offsets of the tensor references and buffer addresses of a block (05 Tables 5.9-5.13; 06 Table 6.11; 07 Table 7.7; 08 Table 8.6;
09 Table 9.7; 10 Table 10.5; 13 Table 13.7). -/
def refOffsets (op : Nat) : List Nat :=
  match op with
  | 0x0304 | 0x0306 | 0x0307 | 0x0308 => [0]
  | 0x0401 | 0x0402 => [0, 8, 16, 24, 32, 96, 104, 112, 120, 128]
  | 0x0403 => [0, 8, 16, 24, 32]
  | 0x0404 => [0, 8]
  | 0x0405 | 0x0620 => [0, 8, 16, 24, 32, 96, 104, 112, 144]
  | 0x0504 => [0, 8]
  | 0x0510 | 0x0511 => [0, 8, 16, 24, 32, 40, 48, 104]
  | 0x0512 => [0, 8, 16, 24, 32, 40]
  | 0x0711 => [8]
  | 0x0810 => [16]
  | 0x0811 => [16, 24]
  | 0x0901 => [16]
  | _ => []

/-- Bytes of a table in a compartment's buffer; none where no buffer holds all of it. -/
def Comp.tableAt (x : Comp) (a n : Nat) : List Byte :=
  match x.buffers.find? fun p => p.1 ≤ a && a + n ≤ p.1 + p.2.len with
  | some p => Mem.readBytes p.2.mem (a - p.1) n
  | none => []

/-- Little-endian fields of the entries of a table: entries of `size` bytes, a field of `width` at `off`. -/
def fieldsOf (size off width : Nat) (b : List Byte) : List Nat := (upFrom 0 (b.length / size)).map fun i => leAt b (size * i + off) width

/-- The length table of ATTEND, ATTEND.MAT and LINMIX (08 Table 8.2). -/
def Comp.lensTable (x : Comp) (op : Nat) (b : List Byte) : List Byte :=
  if op = 0x0510 ∨ op = 0x0511 then x.tableAt (u64 b 32) (32 * u16 b 60)
  else if op = 0x0512 then x.tableAt (u64 b 40) (32 * u16 b 52)
  else []

/-- The expert table of MOE.MATMUL (05 Table 5.13). -/
def Comp.expertTable (x : Comp) (op : Nat) (b : List Byte) : List Byte := if op = 0x0405 then x.tableAt (u64 b 8) (8 * u16 b 152) else []

/-- The group table of VARIANT.MATMUL (07 Table 7.4). -/
def Comp.groupBytes (x : Comp) (op : Nat) (b : List Byte) : List Byte := if op = 0x0620 then x.tableAt (u64 b 144) (16 * u16 b 152) else []

/-- The tensors and buffer addresses that a command names, in its block and in its tables. -/
def Comp.refsOf (x : Comp) (a : Adm) : List Nat :=
  let b := a.cmd.block
  ((refOffsets a.op).map (u64 b) ++ fieldsOf 8 0 8 (x.expertTable a.op b) ++ fieldsOf 32 24 8 (x.lensTable a.op b)).filter (· != 0)

/-- A command names an object that takes up an address range, or its block has not been read yet (06 R247). -/
def Comp.namesObject (x : Comp) (addr len : Nat) (a : Adm) : Bool := !a.fetched || (x.refsOf a).any fun r => addr ≤ r && r < addr + len

/-- Bytes that the name of an object covers: a buffer's length, or the one address of a table. -/
def Comp.objectLen (x : Comp) (addr : Nat) : Nat := ((Tab.find? x.buffers addr).map (·.len)).getD 1

/-- A command names one of some tables, or its block has not been read yet (07 R263, R268). -/
def Comp.namesTables (x : Comp) (l : List Nat) (a : Adm) : Bool := !a.fetched || (x.refsOf a).any l.contains

/-- Streams in a command's length table (08 Table 8.2). -/
def Comp.lensStreams (x : Comp) (a : Adm) : List Nat := if a.op = 0x0512 then [] else fieldsOf 32 0 4 (x.lensTable a.op a.cmd.block)

/-- An admitted command names a stream: in its header, in its length table, or, for POWER.PIN, in its block; a block that is not read yet
may name it (03 R102; 15 R562). -/
def State.namesStream (s : State) (k h : Nat) (a : Adm) : Bool :=
  decide (a.cmd.fn = .vf k) && (a.cmd.stream == h || !a.fetched || ((s.comp k).lensStreams a).contains h
    || (a.op == 0x0A03 && u32 a.cmd.block 4 == h))

/-- Commands of class 0x06 but VARIANT.MATMUL, and of class 0x07, name their variant in the first field of their block (07 Table 7.7;
09 Table 9.7). -/
def actsOnVariant (op : Nat) : Bool := (0x0611 ≤ op && op ≤ 0x0619) || (0x0701 ≤ op && op ≤ 0x0724)

/-- An admitted command is bound to a set of a variant, or may be when its block is read (07 R296). -/
def State.bindsVariant (s : State) (k h : Nat) (a : Adm) : Bool :=
  decide (a.cmd.fn = .vf k) && ((a.op == 0x0620 && (!a.fetched || (fieldsOf 16 0 4 ((s.comp k).groupBytes a.op a.cmd.block)).contains h))
    || (actsOnVariant a.op && (!a.fetched || u32 a.cmd.block 0 == h)))

/-- An admitted command names a variant, itself or through a stream bound to it, or may when its block is read (07 R281; 08 R306). -/
def State.namesVariant (s : State) (k h : Nat) (a : Adm) : Bool :=
  s.bindsVariant k h a
    || (decide (a.cmd.fn = .vf k) && a.op == 0x0501 && (!a.fetched || u32 a.cmd.block 12 == h))
    || (s.comp k).streams.any fun p => p.2.variant == h && s.namesStream k p.1 a

end Sys2Proof.Machine
end

