-- ==== Sys2Proof/Machine/Base.lean ====
section
/-! DEFINITION. Sealed images and the shared base: BASE.LOAD, BASE.UNLOAD, BASE.QUERY, BASE.ATTACH, BASE.DETACH and
SERVE.POLICY (07 R252-R270, R288). -/

namespace Sys2Proof.Machine

/-! ### Sealed images (07 R252-R256) -/

/-- A manifest entry (07 Table 7.2). -/
structure ManEntry where
  no : Nat
  fmt : Nat
  axis : Nat
  role : Nat
  split : Nat
  rows : Nat
  cols : Nat
  layer : Nat
  rank : Nat
  alpha : Nat
  offset : Nat
  deriving DecidableEq, Repr

/-- An authenticated image: header and manifest as read, what they say, and the digest. -/
structure Image where
  id : Nat
  count : Nat
  entries : List ManEntry
  raw : List Byte
  digest : List Byte
  deriving DecidableEq, Repr

/-- The tensor of an entry as the image describes it. -/
def ManEntry.tensor (e : ManEntry) : Tensor := { id := 0, fmt := e.fmt, axis := e.axis, home := 1, cache := 0, rows := e.rows, cols := e.cols }

/-- One entry, where it is within Table 7.2 for a kind of image. -/
def manEntry (kind i : Nat) (b : List Byte) : Option ManEntry :=
  let e : ManEntry :=
    { no := u32 b 0, fmt := u8 b 4, axis := u8 b 5, role := u8 b 6, split := u8 b 7, rows := u32 b 8, cols := u32 b 12
      layer := u32 b 16, rank := u16 b 20, alpha := u32 b 24, offset := u64 b 32 }
  let factor := e.role == 1 || e.role == 2
  let ok := e.no == i && fmtValid e.fmt && e.axis ≤ 1 && 1 ≤ e.rows && e.rows ≤ 4194304 && 1 ≤ e.cols && e.cols ≤ 1048576
    && (if kind = 1 then e.role == 0 && e.split ≤ 2 && e.layer == 0 else 1 ≤ e.role && e.role ≤ 3 && e.split == 0)
    && (if factor then 1 ≤ e.rank && e.rank ≤ 256 else e.rank == 0) && (if e.role = 1 then isFin e.alpha else e.alpha == 0)
    && u16 b 22 == 0 && u32 b 28 == slotBytes e.fmt && e.offset % 64 == 0 && zeroAt b 40 24
  if ok then some e else none

/-- Bytes of an entry's tiles in the image: first and end. -/
def ManEntry.range (e : ManEntry) : Nat × Nat := (e.offset, e.offset + e.tensor.count * slotBytes e.fmt)

/-- No two ranges overlap. -/
def disjoint : List (Nat × Nat) → Bool
  | [] => true
  | a :: r => r.all (fun b => a.2 ≤ b.1 || b.2 ≤ a.1) && disjoint r

/-- The initial value SEALER_ID ‖ SEAL_COUNT of an image (06 R221; 07 R252, R253). -/
def imageIv (sealer count : Nat) : List Byte := beBytes sealer 4 ++ beBytes count 8

/-- The image key: generation 0 of the key the image was sealed under (07 R252; 11 R431). -/
def KeyEntry.imageKey (e : KeyEntry) : List Byte := ((e.gens.find? fun g => g.gen == 0).getD { gen := 0, key := [] }).key

/-- What the header and the manifest of an image say, where they are well formed (07 R255, R256). -/
def imageOf (kind : Nat) (h m : List Byte) : Option Image :=
  let count := u32 h 8
  let es := (upFrom 0 count).map fun i => manEntry kind i ((m.drop (64 * i)).take 64)
  let l := es.filterMap id
  if es.all Option.isSome && l.all (fun e => e.range.2 ≤ u64 h 16) && disjoint (l.map ManEntry.range) then
    some { id := u32 h 4, count, entries := l, raw := h ++ m, digest := sha384 (h ++ m) }
  else none

/-- Header and manifest of an image: format, then authentication, then the entries (07 R252, R255, R258). -/
def openImage (key : List Byte) (kind len expect : Nat) (read : Nat → Nat → List Byte) : Except Err Image :=
  let h := read 0 64
  let count := u32 h 8
  let hi := if kind = 1 then 16384 else 12288
  let lo := if kind = 1 then 1 else 2
  if !(u8 h 0 == 1 && u8 h 1 == kind && u16 h 2 == 0 && lo ≤ count && count ≤ hi && u32 h 12 == 64 * count && u64 h 16 == len && zeroAt h 24 40
      && 80 + 64 * count ≤ len) then .error ⟨.imageFormat, 0⟩
  else
    match gcmOpen key (imageIv 0 0) h (read 64 (64 * count)) (read (64 + 64 * count) 16) with
    | none => .error ⟨.authFail, 0⟩
    | some m => match imageOf kind h m with
      | some img => if img.id = expect then .ok img else .error ⟨.imageFormat, 0⟩
      | none => .error ⟨.imageFormat, 0⟩

/-- The payload and metadata of a tile that authenticated; none where the coding is malformed (06 R226). -/
def tileOfStored (t : Tensor) (n coding : Nat) (body : List Byte) : Option TileData :=
  let g := t.shape n
  if coding = 0 then some (tileOfBytes t.fmt g body)
  else match epcDecode t.fmt body with
    | some (codes, used) =>
      if used + metaBytes t.fmt = body.length then some (tileOfBytes t.fmt g (packBits (fmtBits t.fmt) codes ++ body.drop used)) else none
    | none => none

/-- Tile n of a tensor of an image: its stored form is checked against R253 and opened. CODED_LEN of a coded form is the length
at which the tag verifies (log 31). -/
def imageTile (key : List Byte) (imageId no : Nat) (t : Tensor) (n : Nat) (b : List Byte) : Except Err TileData :=
  let coding := u8 b 13
  let full := payloadBytes t.fmt + metaBytes t.fmt
  let ok := u64 b 0 == imageId * 2 ^ 32 + no && u32 b 8 == n && u8 b 12 == t.fmt && coding ≤ 1 && u8 b 14 == 0xFF && u8 b 15 == 0
    && u16 b 16 == 0 && u16 b 18 == 0xFFFF && u32 b 20 == 0 && 1 ≤ u64 b 24 && zeroAt b 32 32
  let tryLen (l : Nat) : Option (List Byte) :=
    gcmOpen key (imageIv 0 (u64 b 24)) (b.take 64 ++ leBytes l 4) ((b.drop 64).take l) ((b.drop (64 + l)).take 16)
  let body := if coding = 0 then tryLen full else (upFrom 0 full).findSome? tryLen
  if ok then
    match body with
    | none => .error ⟨.authFail, 0⟩
    | some p => match tileOfStored t n coding p with
      | some d => .ok d
      | none => .error ⟨.tileCodingFault, 0⟩
  else .error ⟨.authFail, 0⟩

/-- Read a tile of a tensor of an image, by image index; one that fails is reported as a tile read is (06 R225; 07 R255, R260). -/
def loadTile (c : Cmd) (key : List Byte) (imageId : Nat) (e : ManEntry) (read : Nat → Nat → List Byte) (n : Nat) : Run TileData :=
  match imageTile key imageId e.no e.tensor n (read (e.offset + n * slotBytes e.fmt) (slotBytes e.fmt)) with
  | .ok d => pure d
  | .error x => do
    modify fun s => s.tileFault c.fn (decide (x.st = .tileCodingFault))
    throw (.fail x)

/-! ### Shards (07 R264, R265) -/

/-- First and end index of the tiles that position p of S holds of n tiles. -/
def shardRange (size pos n : Nat) : Nat × Nat := (pos * n / size, (pos + 1) * n / size)

/-- The part of an entry that a device holds: row tiles and column tiles, first and end. -/
def ManEntry.shard (e : ManEntry) (size pos : Nat) : (Nat × Nat) × (Nat × Nat) :=
  let t := e.tensor
  (if e.split = 2 then shardRange size pos t.rt else (0, t.rt), if e.split = 1 then shardRange size pos t.ct else (0, t.ct))

/-- A split tensor has a tile for every device (07 R264). -/
def ManEntry.splitOk (e : ManEntry) (size : Nat) : Bool := !(e.split == 1 && e.tensor.ct < size) && !(e.split == 2 && e.tensor.rt < size)

/-- Image indices of the tiles of a part, in the order of local indices. -/
def partIndices (t : Tensor) (r c : Nat × Nat) : List Nat := (upFrom r.1 (r.2 - r.1)).flatMap fun i => (upFrom c.1 (c.2 - c.1)).map fun u => t.index 0 i u

/-- The held part of a base tensor (07 R265). -/
def ManEntry.baseTensor (e : ManEntry) (size pos : Nat) (tiles : List TileData) : BaseTensor :=
  let (r, c) := e.shard size pos
  { fmt := e.fmt, axis := e.axis, split := e.split, rows := e.rows, cols := e.cols, localRows := min e.rows (r.2 * 128) - r.1 * 128
    localCols := min e.cols (c.2 * 128) - c.1 * 128, row0 := r.1, col0 := c.1, tiles }

/-- Bytes that a device holds of an entry: its table and its slots (07 R259). -/
def ManEntry.shardBytes (e : ManEntry) (size pos : Nat) : Nat :=
  let (r, c) := e.shard size pos
  4096 + (r.2 - r.1) * (c.2 - c.1) * slotBytes e.fmt

/-- A base slot. -/
def State.baseSlot (s : State) (i : Nat) : BaseSlot := Tab.get {} s.bases i

/-- Replace a base slot. -/
def State.setBase (s : State) (i : Nat) (b : BaseSlot) : State := { s with bases := Tab.set s.bases i b }

/-- Bytes of HBM that compartments' shares and the device's own 2 GiB hold (12 R447). -/
def State.heldHbm (s : State) : Nat := (((s.comps.filter fun p => decide (p.2.st ≠ .absent)).map fun p => p.2.hbmGib).foldl (· + ·) 0 + 2) * 2 ^ 30

/-- Shard bytes of a base slot: those of a load that ends at this settle, or what it holds, a load in progress included (07 R259). -/
def State.slotShard (s : State) (i : Nat) : Nat :=
  (s.commits.findSome? fun x => match x.what with
    | .baseSlot j b => if j = i ∧ b.st = .ready then some b.shardBytes else none
    | _ => none).getD (s.baseSlot i).shardBytes

/-- The cell's size and this device's position in it; 1 and 0 outside a cell (07 R266). -/
def State.cellPlace (s : State) : Nat × Nat :=
  match s.link.cell with
  | some (_, pos, l) => (l.length, pos)
  | none => (1, 0)

/-- Loaded tiles join the tensors of a shard: each with the place of its tensor among them. -/
def addTiles (ts : List BaseTensor) (l : List (Nat × TileData)) : List BaseTensor :=
  ((upFrom 0 ts.length).zip ts).map fun p => { p.2 with tiles := p.2.tiles ++ (l.filter fun q => q.1 == p.1).map (·.2) }

/-- BASE.LOAD (07 R257-R266): LOADING from admission; a quantum in unassigned units reads the manifest, where it has not been read, and
tiles in ascending order; a load whose region is still being zeroed waits (R263). -/
def opBaseLoad (c : Cmd) (s : State) : Chk Fin := runWork s do
  let b := c.block
  chk (blockLen c 32)
  let slot := u8 b 0
  fld (slot ≤ 1) 0
  let x := s.baseSlot slot
  req (decide (x.st = .empty) || (decide (x.st = .loading) && x.order == some c.order)) .badParam 0
  let size := u8 b 1
  let pos := u8 b 2
  fldPlan (1 ≤ size && size ≤ 16 && size == s.cellPlace.1) 1
  fldPlan (pos < size && pos == s.cellPlace.2) 2
  fld (u8 b 3 == 0) 3
  let kind := keyHandleKind (u16 b 4)
  fld (1 ≤ kind && kind ≤ 3) 4
  fld (u16 b 6 == 0) 6
  let addr := u64 b 8
  let len := u64 b 16
  fld (aligned64 addr) 8
  fld (128 ≤ len && len ≤ 2 ^ 40 && len % 64 == 0) 16
  fld (u32 b 28 == 0) 28
  let key ← chk (s.checkKey c (u16 b 4) 4)
  endPlan
  let read (o n : Nat) : List Byte := s.hostRead c.fn (addr + o) n
  let img ← if x.image.isEmpty then chk (openImage key.imageKey 1 len (u32 b 24) read)
    else some! (imageOf 1 (x.image.take 64) (x.image.drop 64)) .imageFormat
  req (img.entries.all fun e => e.splitOk size) .imageFormat
  let bytes := (img.entries.map fun e => e.shardBytes size pos).foldl (· + ·) 0
  let both := bytes + s.slotShard (1 - slot)
  req (!x.image.isEmpty || (both ≤ 320 * 2 ^ 30 && s.heldHbm + both ≤ 384 * 2 ^ 30)) .noResource
  if x.image.isEmpty && 384 * 2 ^ 30 < s.heldHbm + both + s.hbmAwaiting then throw .wait
  let work := ((upFrom 0 img.entries.length).zip img.entries).flatMap fun p =>
    let (r, q) := p.2.shard size pos
    (partIndices p.2.tensor r q).map fun n => (p.1, p.2, n)
  let go ← ascending (upFrom x.tilesLoaded (work.length - x.tilesLoaded))
  let tiles ← ((work.drop x.tilesLoaded).take go.length).mapM fun w => do
    let d ← loadTile c key.imageKey img.id w.2.1 read w.2.2
    pure (w.1, d)
  let tensors := addTiles (if x.image.isEmpty then img.entries.map fun e => e.baseTensor size pos [] else x.tensors) tiles
  let next : BaseSlot :=
    { st := .loading, cellSize := size, cellPos := pos, imageId := img.id, key := u16 b 4, digest := img.digest, count := img.count, tensors
      image := img.raw, shardBytes := bytes, tilesTotal := work.length, tilesLoaded := x.tilesLoaded + tiles.length, order := x.order }
  if (← get).act.reach.isEmpty then
    stage c (.baseSlot slot { next with st := .ready, image := [], order := none })
    pure (.ok, 0)
  else
    modify (·.setBase slot next)
    throw .part

/-- A variant holds a set bound to a base slot. -/
def Variant.boundTo (v : Variant) (slot : Nat) : Bool := [v.active, v.shadow, v.successor].any fun x => match x with
  | some x => x.slot == slot
  | none => false

/-- Variants of a compartment bound to a slot. -/
def Comp.boundVariants (x : Comp) (slot : Nat) : Nat := (x.variants.filter fun p => p.2.boundTo slot).length

/-- Alias tables of a slot in a compartment. -/
def Comp.aliases (x : Comp) (slot : Nat) : List Nat := (Tab.find? x.attached slot).getD []

/-- A command admitted earlier reads a base slot through an alias table (07 R263). -/
def State.baseRead (s : State) (slot order : Nat) : Bool :=
  s.comps.any fun p =>
    let l := p.2.aliases slot
    !l.isEmpty && (s.earlier (.vf p.1) order).any fun a => p.2.namesTables l a

/-- BASE.UNLOAD (07 R263): UNLOADING at admission; it waits for earlier readers. -/
def opBaseUnload (c : Cmd) (s : State) : Chk Fin := runWork s do
  let b := c.block
  chk (blockLen c 8)
  let slot := u8 b 0
  fld (slot ≤ 1) 0
  fld (zeroAt b 1 7) 1
  let x := s.baseSlot slot
  req (decide (x.st = .ready) || (decide (x.st = .unloading) && x.order == some c.order)) .badParam 0
  req (!s.comps.any fun p => p.2.boundVariants slot != 0) .baseInUse
  set (s.setBase slot { x with st := .unloading, order := some c.order })
  if s.baseRead slot c.order then
    throw .wait
  else
    stage c (.baseSlot slot {})
    pure (.ok, 0)

/-- STATE of BASE.QUERY. -/
def BaseSt.code : BaseSt → Nat
  | .empty => 0
  | .loading => 1
  | .ready => 2
  | .unloading => 3

/-- BASE.QUERY (07 R302). What the manifest of a load gives is free until the load has read it (log 32). -/
def opBaseQuery (c : Cmd) (s : State) : Chk Fin := runWork s do
  let b := c.block
  chk (blockLen c 16)
  let slot := u8 b 0
  fld (slot ≤ 1) 0
  fld (zeroAt b 1 7) 1
  fld (aligned64 (u64 b 8)) 8
  let x := s.baseSlot slot
  let pf := decide (c.fn = .pf)
  let attached := match c.fn with
    | .pf => false
    | .vf k => !((s.comp k).aliases slot).isEmpty
  let unread := decide (x.st = .loading) && x.image.isEmpty
  let f (i known : Nat) : Nat := if unread then Config.freeNat (s.free + i) else known
  let digest := if unread then Config.freeBytes (s.free + 3) 48 else x.digest
  set ({ s with free := if unread then s.free + 4 else s.free } : State)
  let some_ (p : Comp → Bool) : Nat := if pf then (s.comps.filter fun q => p q.2).length else 0
  putRecord c (u64 b 8)
    (padTo 48 (layout 48 [(0, 1, x.st.code), (1, 1, x.cellSize), (2, 1, x.cellPos), (3, 1, bitNum attached), (4, 4, x.imageId),
      (8, 8, f 0 x.shardBytes), (16, 8, f 1 x.tilesTotal), (24, 8, x.tilesLoaded), (32, 4, f 2 x.count),
      (36, 4, some_ fun q => !(q.aliases slot).isEmpty),
      (40, 4, if pf then (s.comps.map fun q => q.2.boundVariants slot).foldl (· + ·) 0 else 0)]) ++ padTo 80 digest)
  pure (.ok, 0)

/-- The alias table of a base tensor (07 R267). -/
def BaseTensor.alias_ (t : BaseTensor) (slot no imageId : Nat) : Tensor :=
  { id := imageId * 2 ^ 32 + no, fmt := t.fmt, axis := t.axis, home := 1, cache := 0, readOnly := true, keyRef := 0xFFFF, rows := t.localRows
    cols := t.localCols, owner := 6, base := some (slot, no) }

/-- BASE.ATTACH (07 R267, R268). -/
def opBaseAttach (c : Cmd) (s : State) : Chk Fin := runWork s do
  let b := c.block
  let k ← vfOf c
  chk (blockLen c 24)
  let slot := u8 b 0
  fld (slot ≤ 1) 0
  fld (zeroAt b 1 3) 1
  fld (aligned64 (u64 b 8)) 8
  fld (aligned64 (u64 b 16)) 16
  let x := s.baseSlot slot
  req (decide (x.st = .ready) && x.imageId == u32 b 4) .baseNotReady
  fld ((s.comp k).aliases slot).isEmpty 0
  reserve c k (0, 4096 * x.tensors.length, 0)
  let mut l : List (Nat × Tensor) := []
  for p in (upFrom 0 x.tensors.length).zip x.tensors do
    let a ← newTable k 4096
    l := l ++ [(a, p.2.alias_ slot p.1 x.imageId)]
  endPlan
  stage c (.attach k slot l)
  putRecord c (u64 b 16) (l.flatMap fun p => leBytes p.1 8)
  putRecord c (u64 b 8) (padTo 64 (leBytes x.count 4 ++ leBytes x.imageId 4 ++ x.digest))
  pure (.ok, 0)

/-- BASE.DETACH (07 R268): a slot that is not attached has nothing to free (log 33). -/
def opBaseDetach (c : Cmd) (s : State) : Chk Fin := runWork s do
  let b := c.block
  let k ← vfOf c
  chk (blockLen c 8)
  let slot := u8 b 0
  fld (slot ≤ 1) 0
  fld (zeroAt b 1 7) 1
  fld (!((s.comp k).aliases slot).isEmpty) 0
  req ((s.comp k).boundVariants slot == 0) .baseInUse
  let l := (s.comp k).aliases slot
  set (s.modComp k fun x => { x with tensors := x.tensors.map fun p => if l.contains p.1 then (p.1, { p.2 with closing := some c.order }) else p })
  stage c (.detach k slot)
  pure (.ok, 0)

/-- SERVE.POLICY (07 R288, R303): CONFIG_EPOCH increases by one. -/
def opServePolicy (c : Cmd) (s : State) : Chk Fin := runWork s do
  let b := c.block
  chk (blockLen c 16)
  let k := u8 b 0
  fld (s.exists_ k) 0
  fld (u8 b 1 ≤ 16) 1
  fld (u16 b 2 == 0) 2
  fld (16 ≤ u32 b 4 && u32 b 4 ≤ 65536) 4
  fld (1 ≤ u32 b 8) 8
  fld (u32 b 12 < u32 b 8) 12
  let p : Policy := { cap := u8 b 1, window := u32 b 4, hot := u32 b 8, cold := u32 b 12 }
  set (s.modComp k fun x => { x with policyPending := some p })
  stage c .epochUp
  pure (.ok, 0)

/-! ### What settle and the boundary do -/

/-- Serving policies take effect at a stroke boundary (07 R288). -/
def Comp.applyPolicy (x : Comp) : Comp := { x with policy := x.policyPending.getD x.policy, policyPending := none }

/-- The alias tables of a slot are no longer live (07 R263, R268). -/
def Comp.detach (x : Comp) (slot : Nat) : Comp :=
  let l := x.aliases slot
  { x with tensors := x.tensors.filter fun p => !l.contains p.1, attached := Tab.del x.attached slot }

/-- A base region is given up: it awaits zeroing before it is used again (07 R261, R263). -/
def State.zeroBase (s : State) (slot bytes : Nat) : State :=
  if bytes = 0 then s else { s with quench := { s.quench with hbmAwaiting := s.quench.hbmAwaiting ++ [(65 + slot, bytes)] } }

/-- A base slot after a load or an unload; an unload ends every attachment (07 R261, R263). -/
def State.commitBase (s : State) (slot : Nat) (b : BaseSlot) : State :=
  let old := (s.baseSlot slot).shardBytes
  let s := s.setBase slot b
  if b.st = .ready then s else ({ s with comps := s.comps.map fun p => (p.1, p.2.detach slot) } : State).zeroBase slot old

/-- An attachment commits (07 R267). -/
def State.commitAttach (s : State) (k slot : Nat) (l : List (Nat × Tensor)) : State :=
  s.modComp k fun x =>
    { x with tensors := l.foldl (fun t p => Tab.set t p.1 p.2) x.tensors, attached := Tab.set x.attached slot (l.map (·.1)) }

/-- A slot whose load or unload is no longer admitted returns to EMPTY, or to READY (07 R261, R303). -/
def State.baseCleanup (s : State) : State :=
  let gone (b : BaseSlot) : Bool := match b.order with
    | some o => !s.queue.any fun a => a.cmd.order == o
    | none => false
  let dead := s.bases.filter fun p => decide (p.2.st = .loading) && gone p.2
  let s : State :=
    { s with bases := s.bases.map fun p =>
        if p.2.st = .loading ∧ gone p.2 then (p.1, {})
        else if p.2.st = .unloading ∧ gone p.2 then (p.1, { p.2 with st := .ready, order := none })
        else p }
  dead.foldl (fun s p => s.zeroBase p.1 p.2.shardBytes) s

/-- The slot is LOADING, or UNLOADING, from the admission of the command that names it (07 R258, R263). -/
def State.admitBase (s : State) (c : Cmd) (op : Nat) : State :=
  let slot := u8 c.block 0
  let x := s.baseSlot slot
  if op = 0x0601 ∧ slot ≤ 1 ∧ x.st = .empty then
    s.setBase slot { st := .loading, cellSize := u8 c.block 1, cellPos := u8 c.block 2, imageId := u32 c.block 24, key := u16 c.block 4, order := some c.order }
  else if op = 0x0602 ∧ slot ≤ 1 ∧ x.st = .ready ∧ !s.comps.any (fun p => p.2.boundVariants slot != 0) then
    s.setBase slot { x with st := .unloading, order := some c.order }
  else s

/-! ### The meanings (07 Table 7.6) -/

def execBaseLoad (c : Cmd) (s : State) : Out := .next (runCmd 0x0601 c s (opBaseLoad c s))
def execBaseUnload (c : Cmd) (s : State) : Out := .next (runCmd 0x0602 c s (opBaseUnload c s))
def execBaseQuery (c : Cmd) (s : State) : Out := .next (runCmd 0x0603 c s (opBaseQuery c s))
def execBaseAttach (c : Cmd) (s : State) : Out := .next (runCmd 0x0604 c s (opBaseAttach c s))
def execBaseDetach (c : Cmd) (s : State) : Out := .next (runCmd 0x0605 c s (opBaseDetach c s))
def execServePolicy (c : Cmd) (s : State) : Out := .next (runCmd 0x0606 c s (opServePolicy c s))

end Sys2Proof.Machine
end

