-- ==== Sys2Proof/Machine/Variants.lean ====
section
/-! DEFINITION. Variants: handles, sets, residency, versions and switches, serving a batch, and forging (07 R271-R304). -/

namespace Sys2Proof.Machine

/-! ### Handles -/

/-- The variant that a block names; a stale handle ends the command (07 R273). -/
def variantAt (c : Cmd) (k h : Nat) : Run Variant := do
  let s ← get
  some! (s.variantOf k h c) .staleGeneration

/-- Change a variant. -/
def State.modVariant (s : State) (k i : Nat) (f : Variant → Variant) : State :=
  s.modComp k fun x => match Tab.find? x.variants i with
    | some v => { x with variants := Tab.set x.variants i (f v) }
    | none => x

/-- Table addresses of a set's tensors. -/
def VarSet.addrs (x : VarSet) : List Nat := x.layers.flatMap fun l => [l.a.2, l.b.2] ++ (l.s.map (·.2)).toList

/-- Table addresses of an optional set's tensors. -/
def setAddrs (x : Option VarSet) : List Nat := (x.map VarSet.addrs).getD []

/-- Table addresses of every set. -/
def Variant.addrs (v : Variant) : List Nat := setAddrs v.active ++ setAddrs v.shadow ++ setAddrs v.successor

/-- The layer entry of a set for a base tensor. -/
def VarSet.layer (x : VarSet) (no : Nat) : Option LayerEntry := x.layers.find? fun l => l.layer == no

/-- A base tensor of a slot. -/
def State.baseTensor (s : State) (slot no : Nat) : Option BaseTensor := (s.baseSlot slot).tensors[no]?

/-- A layer that is served only forged: SPLIT 2 in a cell of two or more (07 R276, R285). -/
def State.mustForge (s : State) (slot no : Nat) : Bool :=
  (s.baseSlot slot).cellSize ≥ 2 && match s.baseTensor slot no with
    | some b => b.split == 2
    | none => false

/-- Change a training state by TARGET. -/
def Variant.train? (v : Variant) (target : Nat) : Option Train := if target = 2 then v.train2 else v.train0

/-- Replace a training state by TARGET. -/
def Variant.setTrain (v : Variant) (target : Nat) (t : Option Train) : Variant := if target = 2 then { v with train2 := t } else { v with train0 := t }

/-! ### Forging (07 R288-R294) -/

/-- Bytes of the forged copy of one layer of the local shard (07 R291). -/
def BaseTensor.forgeBytes (b : BaseTensor) : Nat := b.tiles.length * slotBytes 0x3A

/-- Layers that a forge builds: every layer, or only those served only forged. -/
def State.forgeLayers (s : State) (v : Variant) (all : Bool) : List (LayerEntry × BaseTensor) :=
  match v.active with
  | none => []
  | some x => x.layers.filterMap fun l =>
    if all || s.mustForge x.slot l.layer then (s.baseTensor x.slot l.layer).map fun b => (l, b) else none

/-- Forged bytes that a variant's copy would take. -/
def State.forgeNeed (s : State) (v : Variant) (all : Bool) : Nat := ((s.forgeLayers v all).map fun p => p.2.forgeBytes).foldl (· + ·) 0

/-- The forged copy of a base tensor, before its tiles are built (07 R289). -/
def forgedTensor (v : Variant) (b : BaseTensor) (id : Nat) : Tensor :=
  { id, fmt := 0x3A, axis := b.axis, home := 1, cache := 0, domain := some (varIndex v.handle), readOnly := true, keyRef := v.keyHandle
    rows := b.localRows, cols := b.localCols, owner := 6 }

/-- HBM bytes that a forge takes, its tables included (07 R290; 06 R228). -/
def State.forgeSpace (s : State) (v : Variant) (all : Bool) : Nat :=
  ((s.forgeLayers v all).map fun p => (forgedTensor v p.2 0).tableBytes + p.2.forgeBytes).foldl (· + ·) 0

/-- The forged copies that a variant holds: the present one, and those that only commands bound earlier use. -/
def Variant.copies (v : Variant) : List Forge := v.forge.toList ++ v.oldForges

/-- Bytes a variant's forged copies hold. -/
def State.forgedBytes (s : State) (k : Nat) (v : Variant) : Nat :=
  ((v.copies.flatMap (·.copies)).map fun p => ((Tab.find? (s.comp k).tensors p.2).map Tensor.homeBytes).getD 0).foldl (· + ·) 0

/-- Forged bytes and bytes of forges in progress of a compartment, the forge in progress of one variant left out (07 R292 step 4). -/
def State.forgeUse (s : State) (k i : Nat) : Nat :=
  ((s.comp k).variants.map fun p => s.forgedBytes k p.2 + (match p.2.forging with
    | some f => if p.1 = i then 0 else s.forgeNeed p.2 f.all
    | none => 0)).foldl (· + ·) 0

/-- The cap in bytes (07 R288). -/
def Comp.forgeCap (x : Comp) : Nat := x.policy.cap * x.hbmGib * 2 ^ 30 / 16

/-- Afternoon and below start no forge and carry none on (07 R291; 15 Table 15.1). -/
def State.forgesRun (s : State) : Bool := [PowerState.dawn, .noon, .highNoon].contains s.power.state

/-- Start a forge that fits within the cap, or count it refused (07 R292 step 4). A forge of every layer takes the place of one of the
layers served only forged. -/
def State.startForge (s : State) (k i : Nat) (all : Bool) : State :=
  match Tab.find? (s.comp k).variants i with
  | none => s
  | some v =>
    if (s.forgeLayers v all).isEmpty || !s.forgesRun then s
    else if s.forgeUse k i + s.forgeNeed v all ≤ (s.comp k).forgeCap then (s.modVariant k i fun v => { v with forging := some { started := s.stroke.number, all } }).traceKind k 2 2
    else s.modVariant k i fun v => { v with forgeRefused := sat64 v.forgeRefused 1, mustTried := v.mustTried || !all }

/-- The variant has a forged copy of every layer that later admissions bind to. -/
def Variant.isForged (v : Variant) : Bool :=
  match v.forge with
  | some f => f.all && f.endOrder.isNone
  | none => false

/-- A forge of every layer (or, with `false`, of those served only forged) is in progress. -/
def Variant.forges? (v : Variant) (all : Bool) : Bool := match v.forging with
  | some w => w.all == all
  | none => false

/-- Later admissions bind to the side path; a forge in progress is discarded (07 R294). -/
def State.unforge (s : State) (k i : Nat) : State :=
  let discards : Bool := match (Tab.find? (s.comp k).variants i).bind (·.forging) with
    | some f => f.all
    | none => false
  let s := if discards then s.traceKind k 2 4 else s
  s.modVariant k i fun v =>
    { v with forge := v.forge.map fun f => if f.all ∧ f.endOrder.isNone then { f with endOrder := some s.stroke.nextOrder } else f
             forging := match v.forging with
               | some f => if f.all then none else some f
               | none => none }

/-- A layer served only forged has no forged copy (07 R276, R285). -/
def State.lacksMust (s : State) (v : Variant) : Bool :=
  (s.forgeLayers v false).any fun p => !v.copies.any fun f => f.endOrder.isNone && f.copies.any fun q => q.1 == p.1.layer

/-- Layers served only forged are forged whatever the MODE (07 R293); one that was refused or failed is tried again from the next
window's end (log 117). -/
def State.startMust (s : State) (k i : Nat) : State :=
  match Tab.find? (s.comp k).variants i with
  | none => s
  | some v => if v.resident && v.closing.isNone && v.forging.isNone && !v.mustTried && s.lacksMust v then s.startForge k i false else s

/-- Tables are dropped, with their seals. -/
def State.dropTensors (s : State) (k : Nat) (l : List Nat) : State := l.foldl (fun s a => s.dropTensor k a) s

/-- Free every forged copy of a variant. -/
def State.dropForge (s : State) (k i : Nat) : State :=
  match Tab.find? (s.comp k).variants i with
  | some v => (s.dropTensors k ((v.copies.flatMap (·.copies)).map (·.2))).modVariant k i fun v => { v with forge := none, oldForges := [] }
  | none => s

/-- A forge in progress is given up. -/
def State.dropForging (s : State) (k i : Nat) : State :=
  match (Tab.find? (s.comp k).variants i).bind (·.forging) with
  | some _ => (s.traceKind k 2 4).modVariant k i fun v => { v with forging := none }
  | none => s

/-- A command bound before an admission order is still under way: admitted, or with results held back (07 R294, R296; 13 R498). -/
def State.boundBefore (s : State) (k h order : Nat) : Bool :=
  (s.queue.any fun a => a.cmd.order < order && s.bindsVariant k h a)
    || s.replies.any fun r => r.cmd.order < order && s.moveOpen r.cmd.order && s.bindsVariant k h (admDirect r.cmd r.op)

/-- The forged copies of a variant that no command is bound to any more go; layers served only forged keep their present ones
(07 R294). -/
def State.freeCopies (s : State) (k i : Nat) (v : Variant) : State :=
  let spent (f : Forge) : Bool := match f.endOrder with
    | some o => !s.boundBefore k v.handle o
    | none => false
  let gone := v.oldForges.filter spent
  let s := (s.dropTensors k ((gone.flatMap (·.copies)).map (·.2))).modVariant k i fun v => { v with oldForges := v.oldForges.filter fun f => !gone.contains f }
  match v.forge with
  | some f =>
    if spent f then
      let slot := (v.active.map (·.slot)).getD v.baseSlot
      let keep := f.copies.filter fun q => s.mustForge slot q.1
      let s := s.dropTensors k ((f.copies.filter fun q => !s.mustForge slot q.1).map (·.2))
      s.modVariant k i fun v => { v with forge := if keep.isEmpty then none else some { f with copies := keep, endOrder := none, all := false } }
    else s
  | none => s

/-- At settle the copies that no command is bound to any more are freed (07 R294). -/
def State.freeUnforged (s : State) (k : Nat) : State := (s.comp k).variants.foldl (fun s p => s.freeCopies k p.1 p.2) s

/-- One element of a forged layer: W + α A B, then the scale (07 R289). -/
def forgeValue (alpha r : Nat) (a b : Nat → Num) (w : Num) (scale : Option Nat) : Nat :=
  let d := floatAcc r a b
  let v := rnd32 (((val32 alpha).mul (val32 d)).add w)
  match scale with
  | some x => fmul v x
  | none => v

/-- The tensor scale of a forged tile (07 R289). -/
def forgeScale (am : Nat) : Nat := if am = 0 then 0x3F80 else bf16up (rnd32 ((val32 am).div (Num.ofNat 256)))

/-- The reads of a forge: those of a command of the compartment that commits nothing. -/
def forgeCmd (k : Nat) : Cmd := { fn := .vf k, ring := 0, seq := 0, tag := 0, cookie := 0, flags := 0, stream := 0, order := 0, stroke := 0, block := [] }

/-- The forged tiles of one layer, and whether every v is finite; the base is read through its alias table (07 R262, R289, R290). -/
def forgeTiles (k slot : Nat) (l : LayerEntry) : Run (List TileData × Bool) := do
  let c := forgeCmd k
  let addr ← some! ((((← get).comp k).aliases slot)[l.layer]?) .staleGeneration
  let w ← readRef c k addr noField false
  let a ← readRef c k l.a.2 noField false
  let b ← readRef c k l.b.2 noField false
  let sm ← match l.s with
    | some x => do
      let m ← readRef c k x.2 noField false
      pure (some m)
    | none => pure none
  let val (kk n : Nat) : Nat :=
    forgeValue l.alpha l.rank (fun j => a.val 0 kk j) (fun j => b.val 0 j n) (w.val 0 kk n) (sm.map fun m => m.f32 0 0 n)
  let tiles := (upFrom 0 w.t.count).map fun n =>
    let vs := (w.t.cells n).map fun q => val q.2.1 q.2.2
    ((encodeTile 0x3A {} (w.t.shape n) 0 (forgeScale (amaxOf vs)) vs fun _ _ => 0).data, vs.all isFin)
  pure (tiles.map (·.1), tiles.all (·.2))

/-- A forged tensor, sealed under the variant key: (TENSOR_NO, table address, tensor). -/
def sealForged (k : Nat) (v : Variant) (l : LayerEntry) (b : BaseTensor) (tiles : List TileData) : Run (Nat × Nat × Tensor) := do
  let id ← newId k
  let t := forgedTensor v b id
  let addr ← newTable k t.tableBytes
  let ts ← (upFrom 0 tiles.length).mapM fun n => do
    let (x, _) ← takeDown k t n (tiles.getD n { elems := [] })
    pure (n, x)
  pure (l.layer, addr, { t with tiles := ts })

/-- The work of a forge: its tensors, or none where a value is not finite (07 R289, R290). -/
def forgeWork (k slot : Nat) (v : Variant) (ls : List (LayerEntry × BaseTensor)) : Run (Option (List (Nat × Nat × Tensor))) := do
  let l ← ls.mapM fun p => do
    let (tiles, fin) ← forgeTiles k slot p.1
    pure (p, tiles, fin)
  if l.all fun p => p.2.2 then
    let ts ← l.mapM fun p => sealForged k v p.1.1 p.1.2 p.2.1
    pure (some ts)
  else pure none

/-- A tensor with its tiles enters a compartment: its seals count as live (11 R431). -/
def State.addTensor (s : State) (k addr : Nat) (t : Tensor) : State :=
  let s := t.tiles.foldl (fun s p => s.addSeal k t.keyRef p.2) s
  s.modComp k fun x => { x with tensors := Tab.set x.tensors addr t }

/-- A forge ends without a commit and counts as refused or as a fault (07 R290). -/
def State.endForge (s : State) (k i : Nat) (fault : Bool) : State :=
  (s.traceKind k 2 4).modVariant k i fun v =>
    let v := { v with forging := none, mustTried := v.mustTried || v.forges? false }
    if fault then { v with forgeFaults := sat64 v.forgeFaults 1 } else { v with forgeRefused := sat64 v.forgeRefused 1 }

/-- A forge in progress is planned after the admitted quanta of its compartment: what it needs is reserved, for at most 64 plan phases
(07 R290, R291; 06 R228); layers served only forged that have no copy get their forge (R293). -/
def State.planForge (s : State) (k i : Nat) : State :=
  match Tab.find? (s.comp k).variants i with
  | none => s
  | some v => match v.forging with
    | none => s.startMust k i
    | some w =>
      let n := s.forgeSpace v w.all
      if w.bytes ≠ 0 then s
      else if s.spaceFree k s.stroke.nextOrder (0, n, 0) then s.modVariant k i fun v => { v with forging := some { w with bytes := n } }
      else if 64 ≤ w.waits + 1 then s.endForge k i false
      else s.modVariant k i fun v => { v with forging := some { w with waits := w.waits + 1 } }

/-- Forged copies in place of earlier ones, which stay for the commands bound to them (07 R291, R294). -/
def State.installForge (s : State) (k i : Nat) (all : Bool) (l : List (Nat × Nat × Tensor)) : State :=
  let s := l.foldl (fun s p => s.addTensor k p.2.1 p.2.2) s
  (s.traceKind k 2 3).modVariant k i fun v =>
    { v with forging := none, forges := sat64 v.forges 1
             oldForges := v.oldForges ++ v.forge.toList.map fun f => { f with endOrder := some (f.endOrder.getD s.stroke.nextOrder) }
             forge := some { copies := l.map fun p => (p.1, p.2.1), since := s.stroke.number, all } }

/-- A forge can end in this settle phase: its reservation stands, and its compartment had its run in this stroke (07 R291). -/
def State.forgeDue (s : State) (k : Nat) (v : Variant) (w : ForgeWork) : Bool :=
  v.resident && v.closing.isNone && s.forgesRun && decide (s.stroke.phase = .settle) && w.bytes != 0 && s.stroke.ran.contains k

/-- FORGE_COMMIT: the forge of variant INDEX i of compartment k ends in this settle phase (07 R289-R291). A tag or a coding that fails in
one of its reads is reported as in a command's (06 R225, R226). -/
def State.forgeCommit (s : State) (k i : Nat) (fault : RunFault) : State :=
  match Tab.find? (s.comp k).variants i with
  | none => s
  | some v => match v.forging with
    | none => s
    | some w =>
      if !s.forgeDue k v w then s
      else match fault with
        | .none =>
          let slot := (v.active.map (·.slot)).getD v.baseSlot
          match s.workNow (forgeWork k slot v (s.forgeLayers v w.all)) with
          | (some (some l), s) => (s.installForge k i w.all l).freeUnforged k
          | (some none, s) => s.endForge k i true
          | (none, s) => s.endForge k i false
        | .auth => (s.tileFault (.vf k) false).endForge k i false
        | .coding => (s.tileFault (.vf k) true).endForge k i false
        | _ => s.endForge k i false

/-- Candidates of a window's end in rank order (07 R292 step 3). -/
def Comp.candidates (x : Comp) : List Nat :=
  let idle (v : Variant) : Bool := v.resident && v.closing.isNone && !v.isForged && !v.forges? true
  let first := (x.variants.filter fun p => p.2.mode == 2 && idle p.2).map (·.1)
  let hot := x.variants.filter fun p => p.2.mode == 0 && idle p.2 && p.2.lastRows ≥ x.policy.hot
  let before (a b : Nat × Variant) : Bool := a.2.lastRows > b.2.lastRows || (a.2.lastRows == b.2.lastRows && a.1 ≤ b.1)
  first ++ (sortBy before hot).map (·.1)

/-- FORGE_WINDOW_END of a compartment (07 R292). -/
def State.windowEnd (s : State) (k : Nat) : State :=
  if (s.stroke.number + 1) % (s.comp k).policy.window = 0 ∧ s.stroke.phase = .settle then
    let s := s.modComp k fun x => { x with variants := x.variants.map fun p => (p.1, { p.2 with lastRows := p.2.servedRows, servedRows := 0, mustTried := false }) }
    let cold := ((s.comp k).variants.filter fun p => p.2.mode == 0 && p.2.isForged && p.2.lastRows < (s.comp k).policy.cold).map (·.1)
    let s := cold.foldl (fun s i => s.unforge k i) s
    (s.comp k).candidates.foldl (fun s i => s.startForge k i true) s
  else s

/-! ### Registering, loading, residency -/

/-- VARIANT.REGISTER (07 R272, R273, R278). -/
def opVariantRegister (c : Cmd) (s : State) : Chk Fin := runWork s do
  let b := c.block
  let k ← vfOf c
  chk (blockLen c 16)
  let key := u16 b 0
  let slot := u8 b 2
  fld (key != 0) 0
  fld (slot ≤ 1) 2
  fld (zeroAt b 3 5) 3
  fld (aligned64 (u64 b 8)) 8
  req (keyHandleKind key == 2 && (s.liveKey c key).isSome) .notPermitted
  let x := s.comp k
  req (!(x.aliases slot).isEmpty) .notPermitted
  let (i, g, r) ← some! (x.domIdx.assign x.domainBase x.domainQuota) .noResource
  set (s.setComp k { x with domIdx := r })
  let h := handleOf g i
  stage c (.varNew k i { handle := h, keyHandle := key, baseSlot := slot })
  putRecord c (u64 b 8) (layout 64 [(0, 4, h), (4, 2, i)])
  pure (.ok, 0)

/-- The manifest entries of a variant image as layers: (LAYER, A, B, scale) (07 R275). -/
def imageLayers (l : List ManEntry) : Option (List (ManEntry × ManEntry × Option ManEntry)) :=
  let as_ := l.filter (·.role == 1)
  let of (role layer : Nat) := l.filter fun e => e.role == role && e.layer == layer
  let all := as_.map fun a => match of 2 a.layer, of 3 a.layer with
    | [b], [] => if (of 1 a.layer).length = 1 then some (a, b, none) else none
    | [b], [x] => if (of 1 a.layer).length = 1 then some (a, b, some x) else none
    | _, _ => none
  if all.all Option.isSome && l.all (fun e => as_.any fun a => a.layer == e.layer) && 1 ≤ as_.length && as_.length ≤ 4096 then some (all.filterMap id) else none

/-- A layer's entries have the shapes of R275 for the base tensor they adapt. -/
def layerOk (bt : BaseTensor) (a b : ManEntry) (x : Option ManEntry) : Bool :=
  bt.fmt == 0x3A && a.fmt == 2 && a.axis == 1 && a.rows == bt.rows && a.cols == a.rank && b.fmt == 2 && b.axis == 1 && b.rows == b.rank
    && b.cols == bt.cols && a.rank == b.rank && (match x with
      | some x => x.fmt == 2 && x.rows == 1 && x.cols == bt.cols
      | none => true)

/-- The part of a factor or scale vector that a device holds: row tiles and column tiles (07 R276). -/
def heldPart (bt : BaseTensor) (e : ManEntry) : (Nat × Nat) × (Nat × Nat) :=
  let t := e.tensor
  (if bt.split = 2 ∧ e.role = 1 then (bt.row0, bt.row0 + ceilDiv bt.localRows 128) else (0, t.rt),
   if bt.split = 1 ∧ e.role ≠ 1 then (bt.col0, bt.col0 + ceilDiv bt.localCols 128) else (0, t.ct))

/-- The tensor of a held part, in a home tier (07 R276, R279). -/
def heldTensor (v : Variant) (bt : BaseTensor) (e : ManEntry) (home : Nat) : Tensor :=
  let (r, c) := heldPart bt e
  { id := 0, fmt := 2, axis := e.axis, home, cache := 0, domain := some (varIndex v.handle), keyRef := v.keyHandle
    rows := min e.rows (r.2 * 128) - r.1 * 128, cols := min e.cols (c.2 * 128) - c.1 * 128, owner := 6 }

/-- Read, authenticate and re-seal one entry of a variant image: (TENSOR_NO, table address), and the tensor (07 R279). -/
def loadEntry (c : Cmd) (k : Nat) (key : List Byte) (img : Image) (v : Variant) (bt : BaseTensor) (home : Nat) (read : Nat → Nat → List Byte)
    (e : ManEntry) : Run ((Nat × Nat) × Tensor) := do
  let (r, q) := heldPart bt e
  let tiles ← (partIndices e.tensor r q).mapM (loadTile c key img.id e read)
  let t := heldTensor v bt e home
  let addr ← newTable k t.tableBytes
  let id ← newId k
  let t := { t with id }
  let ts ← (upFrom 0 tiles.length).mapM fun n => do
    let (x, cs) ← takeDown k t n (tiles.getD n { elems := [] })
    stageCounts c k cs
    pure (n, x)
  pure ((e.no, addr), { t with tiles := ts })

/-- VARIANT.LOAD (07 R275, R276, R279). -/
def opVariantLoad (c : Cmd) (s : State) : Chk Fin := runWork s do
  let b := c.block
  let k ← vfOf c
  chk (blockLen c 32)
  let v ← variantAt c k (u32 b 0)
  let target := u8 b 4
  let i := varIndex v.handle
  fld (match target with
    | 0 => v.active.isNone
    | 1 => true
    | 2 => v.successor.isSome
    | _ => false) 4
  fld (zeroAt b 5 3) 5
  let addr := u64 b 8
  let len := u64 b 16
  fld (aligned64 addr) 8
  fld (128 ≤ len && len ≤ 2 ^ 36 && len % 64 == 0) 16
  fld (u32 b 28 == 0) 28
  let home := if v.resident then 1 else 2
  req (v.resident || (s.comp k).hostWin.isSome) .noResource
  let e ← some! (s.keyEntry c.fn v.keyHandle) .authFail
  endPlan
  let read (o n : Nat) : List Byte := s.hostRead c.fn (addr + o) n
  let img ← chk (openImage e.imageKey 2 len (u32 b 24) read)
  let slot := if target = 2 then (v.successor.map (·.slot)).getD v.baseSlot else v.baseSlot
  let ls ← some! (imageLayers img.entries) .imageFormat
  let bts := ls.map fun l => s.baseTensor slot l.1.layer
  req ((ls.zip bts).all fun p => match p.2 with
    | some bt => layerOk bt p.1.1 p.1.2.1 p.1.2.2
    | none => false) .imageFormat
  let work := (ls.zip bts).filterMap fun p => p.2.map fun bt => (p.1, bt)
  reserveNow c k (sumSpace (work.flatMap fun p => ([p.1.1, p.1.2.1] ++ p.1.2.2.toList).map fun e => (heldTensor v p.2 e home).space))
  let mut layers : List LayerEntry := []
  let mut ts : List (Nat × Tensor) := []
  for p in work do
    let (a, at_) ← loadEntry c k e.imageKey img v p.2 home read p.1.1
    let (bb, bt) ← loadEntry c k e.imageKey img v p.2 home read p.1.2.1
    ts := ts ++ [(a.2, at_), (bb.2, bt)]
    match p.1.2.2 with
    | some x =>
      let (sc, st) ← loadEntry c k e.imageKey img v p.2 home read x
      ts := ts ++ [(sc.2, st)]
      layers := layers ++ [{ layer := p.1.1.layer, rank := p.1.1.rank, alpha := p.1.1.alpha, a, b := bb, s := some sc }]
    | none => layers := layers ++ [{ layer := p.1.1.layer, rank := p.1.1.rank, alpha := p.1.1.alpha, a, b := bb, s := none }]
  stage c (.varSet k i target { slot, digest := img.digest, layers } ts)
  pure (.ok, 0)

/-- Move every set of a variant to a home tier: each written tile is brought up and sealed again (07 R280; 06 R248). -/
def moveSets (c : Cmd) (k home : Nat) (v : Variant) : Run (List (Nat × Tensor)) := do
  let s ← get
  v.addrs.filterMapM fun a => match Tab.find? (s.comp k).tensors a with
    | none => pure none
    | some t => do
      let t' := { t with home }
      let ns := (t.tiles.filter fun p => p.2.data.isSome).map (·.1)
      let data ← bringUp c k a t ns
      let ts ← (ns.zip data).mapM fun p => do
        let (x, cs) ← takeDown k t' p.1 p.2
        stageCounts c k cs
        pure (p.1, x)
      pure (some (a, { t' with tiles := ts.foldl (fun l p => Tab.set l p.1 p.2) t.tiles }))

/-- Space of a variant's sets in a home tier. -/
def State.setSpace (s : State) (k home : Nat) (v : Variant) : Nat × Nat × Nat :=
  sumSpace (v.addrs.filterMap fun a => (Tab.find? (s.comp k).tensors a).map fun t => slotSpace { t with home } t.count)

/-- Variants that take a resident slot, those about to included (07 R272). -/
def State.residents (s : State) (k : Nat) : Nat :=
  ((s.comp k).variants.filter (·.2.resident)).length + (s.commits.filter fun x => match x.what with
    | .varReside j _ r _ => j == k && r
    | _ => false).length

/-- The block of RESIDE, PARK, SWAP, CUTOVER and UNREGISTER: the variant named. -/
def variantBlock (c : Cmd) (k : Nat) : Run Variant := do
  chk (blockLen c 8)
  let v ← variantAt c k (u32 c.block 0)
  fld (zeroAt c.block 4 4) 4
  pure v

/-- VARIANT.RESIDE (07 R272, R280, R293). -/
def opVariantReside (c : Cmd) (s : State) : Chk Fin := runWork s do
  let k ← vfOf c
  let v ← variantBlock c k
  fld (!v.resident) 0
  req (s.residents k < (s.comp k).residentQuota) .noResource
  req (s.forgeUse k (varIndex v.handle) + s.forgeNeed v false ≤ (s.comp k).forgeCap || (s.forgeLayers v false).isEmpty) .noResource
  reserve c k (s.setSpace k 1 v)
  endPlan
  let l ← moveSets c k 1 v
  stage c (.varReside k (varIndex v.handle) true l)
  pure (.ok, 0)

/-- VARIANT.PARK (07 R280): a compartment with no host window has no far tier to hold the sets. -/
def opVariantPark (c : Cmd) (s : State) : Chk Fin := runWork s do
  let k ← vfOf c
  let v ← variantBlock c k
  req v.resident .variantNotResident
  req (v.addrs.isEmpty || (s.comp k).hostWin.isSome) .noResource
  reserve c k (s.setSpace k 2 v)
  endPlan
  let l ← moveSets c k 2 v
  stage c (.varReside k (varIndex v.handle) false l)
  pure (.ok, 0)

/-- VARIANT.SWAP and VARIANT.CUTOVER: the order is divided and the command waits for its switch (07 R277, R296). -/
def opSwitch (cutover : Bool) (c : Cmd) (s : State) : Chk Fin := runWork s do
  let k ← vfOf c
  let v ← variantBlock c k
  req v.resident .variantNotResident
  modify fun s => s.modVariant k (varIndex v.handle) fun v => match v.switch with
    | none => { v with switch := some { order := c.order, cutover } }
    | some _ => v
  throw .wait

/-- A variant to swap or cut over to. -/
def Variant.next (v : Variant) (cutover : Bool) : Option VarSet := if cutover then v.successor else v.shadow

/-- What a swap or a cutover leaves of a variant (07 R295, R297, R299). -/
def Variant.switched (v : Variant) (x : VarSet) (cutover : Bool) : Variant :=
  let x := { x with version := some (v.version + 1) }
  let v := { v with version := v.version + 1, active := some x, switch := none, forging := none, mustTried := false, switches := sat64 v.switches 1 }
  if cutover then { v with shadow := none, successor := none, baseSlot := x.slot }
  else v

/-! ### The end of a training state (09 R380, R382) -/

/-- The tiles of a training state that have no table: error terms, master copies, moments and checkpoints. -/
def Train.parts (t : Train) : List Tile :=
  let tiles (l : Tab Tile) : List Tile := l.map (·.2)
  let ck (x : Option Ckpt) : List Tile := match x with
    | some x => x.parts.flatMap fun p => tiles p.work ++ tiles p.master ++ tiles p.m1 ++ tiles p.m2
    | none => []
  (t.tensors.flatMap fun x => tiles x.err.tiles ++ tiles x.master.tiles ++ tiles x.m1.tiles ++ tiles x.m2.tiles ++ x.pend.flatMap fun p => tiles p.tiles) ++ ck t.ckpt ++ ck t.ckptPending

/-- A training state is freed with its map objects and checkpoints. -/
def State.freeTrain (s : State) (k i target : Nat) : State :=
  match Tab.find? (s.comp k).variants i with
  | none => s
  | some v => match v.train? target with
    | none => s
    | some t =>
      let s := if t.opening.isSome then s else t.parts.foldl (fun s x => s.dropSeal k v.keyHandle x) (s.dropTensors k (t.tensors.flatMap fun x => [x.work, x.grad]))
      s.modVariant k i fun v => v.setTrain target none

/-- The switch of a variant can commit at this settle: its command is planned, so that its own dependencies and residency are settled,
and no command bound to the old set is left (07 R277, R296; 03 R93). -/
def State.switchDue (s : State) (k : Nat) (v : Variant) (w : Switch) : Option Adm :=
  (s.admOf w.order).filter fun a => a.planned && v.resident && decide (s.stroke.phase = .settle) && !s.boundBefore k v.handle w.order

/-- VARIANT_SWITCH: in the settle phase, the switch of variant INDEX i commits when no command bound to the old set is left (07 R296, R297, R299;
09 R380: the training state of the old set is freed by a cutover, and that of the successor goes on as the active set's). -/
def State.variantSwitch (s : State) (k i : Nat) : State :=
  match Tab.find? (s.comp k).variants i with
  | none => s
  | some v => match v.switch with
    | none => s
    | some w => match s.switchDue k v w with
      | none => s
      | some a => match v.next w.cutover with
        | none => (s.modVariant k i fun v => { v with switch := none }).reply a.cmd a.op .variantNoShadow 0
        | some x =>
          let again := v.isForged || v.mode == 2
          let old := v.active
          let s := (s.dropForge k i).dropForging k i
          let s := if w.cutover then (s.dropTensors k (setAddrs v.active ++ setAddrs v.shadow)).freeTrain k i 0 else s
          let s := s.modVariant k i fun v =>
            let n := v.switched x w.cutover
            if w.cutover then { n with train0 := n.train2.map (fun t => { t with target := 0 }), train2 := none, cutTo := s.stroke.nextOrder }
            else { n with shadow := old }
          let s := if again then s.startForge k i true else s
          s.reply a.cmd a.op .ok 0

/-- VARIANT.MODE (07 R288, R293). -/
def opVariantMode (c : Cmd) (s : State) : Chk Fin := runWork s do
  let k ← vfOf c
  chk (blockLen c 8)
  let v ← variantAt c k (u32 c.block 0)
  fld (u8 c.block 4 ≤ 2) 4
  fld (zeroAt c.block 5 3) 5
  stage c (.varMode k (varIndex v.handle) (u8 c.block 4))
  pure (.ok, 0)

/-- VARIANT.REBASE (07 R298). -/
def opVariantRebase (c : Cmd) (s : State) : Chk Fin := runWork s do
  let k ← vfOf c
  chk (blockLen c 8)
  let v ← variantAt c k (u32 c.block 0)
  let slot := u8 c.block 4
  fld (slot ≤ 1 && slot != v.baseSlot) 4
  fld (zeroAt c.block 5 3) 5
  req v.resident .variantNotResident
  req (!((s.comp k).aliases slot).isEmpty) .notPermitted
  fld v.successor.isNone 0
  stage c (.varRebase k (varIndex v.handle) slot)
  pure (.ok, 0)

/-- From the admission of its close a variant is CLOSING, and so is every stream bound to it (07 R281; 08 R306). -/
def State.markClose (s : State) (k h order : Nat) : State :=
  (s.modVariant k (varIndex h) fun v => { v with closing := some (v.closing.getD order) }).modComp k fun x =>
    let bound := (x.streams.filter fun p => p.2.variant == h).map (·.1)
    { x with
      streams := x.streams.map fun p => if bound.contains p.1 then (p.1, { p.2 with closing := some (p.2.closing.getD order) }) else p
      closing := x.closing ++ bound.filter fun g => !x.closing.contains g }

/-- VARIANT.UNREGISTER (07 R281): CLOSING from here; commands admitted earlier that name it complete first. -/
def opVariantUnregister (c : Cmd) (s : State) : Chk Fin := runWork s do
  let k ← vfOf c
  let v ← variantBlock c k
  set (s.markClose k v.handle c.order)
  if (s.earlier c.fn c.order).any (s.namesVariant k v.handle) then throw .wait
  stage c (.varClose k (varIndex v.handle))
  pure (.ok, 0)

/-- VARIANT.QUERY (07 R302). -/
def opVariantQuery (c : Cmd) (s : State) : Chk Fin := runWork s do
  let b := c.block
  let k ← vfOf c
  chk (blockLen c 16)
  let x := s.comp k
  if u32 b 0 = 0 then
    fld (zeroAt b 4 4) 4
    fld (aligned64 (u64 b 8)) 8
    putRecord c (u64 b 8)
      (layout 128 [(0, 4, x.variants.length), (4, 4, (x.variants.filter (·.2.resident)).length), (8, 4, (x.variants.filter (·.2.isForged)).length),
        (16, 8, (x.variants.map fun p => s.forgedBytes k p.2).foldl (· + ·) 0), (24, 8, x.forgeCap), (32, 1, x.policy.cap), (36, 4, x.policy.window),
        (40, 4, x.policy.hot), (44, 4, x.policy.cold), (48, 4, x.domainQuota), (52, 4, x.residentQuota)])
    pure (.ok, 0)
  else
    let v ← variantAt c k (u32 b 0)
    fld (zeroAt b 4 4) 4
    fld (aligned64 (u64 b 8)) 8
    let ver (x : Option VarSet) : Nat := (x.bind (·.version)).getD 0
    putRecord c (u64 b 8)
      (layout 128 [(0, 4, v.handle), (4, 1, if v.closing.isSome then 2 else bitNum v.resident), (5, 1, v.mode),
        (6, 1, bitNum v.isForged + 2 * bitNum v.forging.isSome),
        (7, 1, bitNum v.active.isSome + 2 * bitNum v.shadow.isSome + 4 * bitNum v.successor.isSome + 8 * bitNum v.switch.isSome),
        (8, 1, v.baseSlot), (9, 1, (v.successor.map (·.slot)).getD 0xFF), (10, 2, (v.active.map fun x => x.layers.length).getD 0),
        (16, 8, ver v.active), (24, 8, ver v.shadow), (32, 8, v.servedRows), (40, 8, v.lastRows), (48, 8, s.forgedBytes k v), (56, 8, v.forges),
        (64, 8, v.forgeRefused), (72, 8, v.forgeFaults), (80, 8, v.switches)])
    pure (.ok, 0)

/-! ### Serving a batch (07 R283-R287) -/

/-- A group entry (07 Table 7.4). -/
structure GroupEntry where
  handle : Nat
  first : Nat
  count : Nat
  flags : Nat
  deriving DecidableEq, Repr

/-- Parse a group table; none where an entry or the order is bad (07 R283). -/
def groupTable (m n : Nat) (b : List Byte) : Option (List GroupEntry) :=
  let l := (upFrom 0 n).map fun i => ({ handle := u32 b (16 * i), first := u32 b (16 * i + 4), count := u32 b (16 * i + 8), flags := u8 b (16 * i + 12) } : GroupEntry)
  let one (g : GroupEntry) : Bool := g.first < m && 1 ≤ g.count && g.first + g.count ≤ m && g.flags ≤ 2
  let ok := l.all one && (l.zip l.tail).all (fun p => p.1.first + p.1.count ≤ p.2.first) && (upFrom 0 n).all fun i => zeroAt b (16 * i + 13) 3
  if ok then some l else none

/-- How a group's rows are computed (07 R286). -/
inductive Serve where
  | base
  | side (l : LayerEntry)
  | forged (addr : Nat)
  deriving DecidableEq, Repr

/-- A command that names a variant with a switch pending before it is bound to the new set and is not planned before the switch
(07 R296). -/
def Variant.holds (v : Variant) (c : Cmd) : Bool :=
  match v.switch with
  | some w => w.order < c.order
  | none => false

/-- The forged copy of a layer that a command is bound to (07 R285, R291, R294). -/
def State.forgedFor (s : State) (c : Cmd) (v : Variant) (slot no : Nat) : Option Nat :=
  let bound (f : Forge) : Bool := c.stroke > f.since && (match f.endOrder with
    | some o => c.order < o
    | none => true)
  let l := v.copies.filter fun f => f.copies.any fun p => p.1 == no
  let f := (l.find? bound).orElse fun _ => if s.mustForge slot no then l.head? else none
  f.bind fun f => (f.copies.find? fun p => p.1 == no).map (·.2)

/-- How one group is served (07 R277, R284, R285). -/
def serveGroup (c : Cmd) (k slot no : Nat) (forceSide : Bool) (g : GroupEntry) : Run Serve := do
  let v ← variantAt c k g.handle
  if v.holds c then throw .wait
  req v.resident .variantNotResident
  let x ← some! (match g.flags with
    | 0 => v.active
    | 1 => v.shadow
    | _ => v.successor) .variantNoShadow
  req (x.slot == slot) .variantBaseMismatch
  let s ← get
  match x.layer no with
  | none => pure .base
  | some l =>
    let must := s.mustForge slot no
    let copy := if g.flags = 0 ∧ (!forceSide ∨ must) then s.forgedFor c v slot no else none
    match copy with
    | some a => pure (.forged a)
    | none =>
      req (!must) .variantNotResident
      pure (.side l)

/-- How a group is served, as words that planning keeps. -/
def Serve.words : Serve → List Nat
  | .base => [0, 0, 0, 0, 0, 0, 0]
  | .forged a => [1, a, 0, 0, 0, 0, 0]
  | .side l => [2, l.layer, l.rank, l.alpha, l.a.2, l.b.2, (l.s.map fun x => x.2 + 1).getD 0]

/-- The same from its words. -/
def Serve.ofWords : List Nat → Serve
  | [1, a, _, _, _, _, _] => .forged a
  | [2, layer, rank, alpha, a, b, x] => .side { layer, rank, alpha, a := (0, a), b := (0, b), s := if x = 0 then none else some (0, x - 1) }
  | _ => .base

/-- Served on the side path, served forged. -/
def Serve.isSide : Serve → Bool
  | .side _ => true
  | _ => false
def Serve.isForged : Serve → Bool
  | .forged _ => true
  | _ => false

/-- A group with how it is served. -/
abbrev Served := GroupEntry × Serve

/-- A group holds some row of a range. -/
def GroupEntry.meets (g : GroupEntry) (r0 r1 : Nat) : Bool := g.first < r1 && r0 < g.first + g.count

/-- The group that holds a row. -/
def groupOf (l : List Served) (m : Nat) : Option Nat := l.findIdx? fun g => g.1.meets m (m + 1)

/-- How a row is served. -/
def serveOf (l : List Served) (m : Nat) : Serve := ((groupOf l m).bind fun i => l[i]?.map (·.2)).getD .base

/-- A part of the steps of a row tile: the group whose rows alone take it, or none for the base steps; its first step and its
length (07 R286). -/
structure StepPart where
  group : Option Nat
  first : Nat
  len : Nat
  deriving DecidableEq, Repr

/-- Parts one after another. -/
def layPhases : List (Option Nat × Nat) → Nat → List StepPart
  | [], _ => []
  | (g, n) :: r, at_ => { group := g, first := at_, len := n } :: layPhases r (at_ + n)

/-- The steps of rows r0 to r1 - 1: the K base steps where a row takes them, the K steps of each group served forged, then the r side
steps of each group on the side path (07 R286). -/
def phasesOf (l : List Served) (kk r0 r1 : Nat) : List StepPart :=
  let here := (upFrom 0 l.length).filterMap fun i => l[i]?.bind fun g => if g.1.meets r0 r1 then some (i, g.2) else none
  let base := if (upFrom r0 (r1 - r0)).any fun m => !(serveOf l m).isForged then [(none, kk)] else []
  layPhases (base ++ (here.filter fun g => g.2.isForged).map (fun g => (some g.1, kk)) ++ here.filterMap fun g => match g.2 with
    | .side x => some (some g.1, x.rank)
    | _ => none) 0

/-- Steps of some parts together. -/
def phaseSteps (l : List StepPart) : Nat := (l.map (·.len)).foldl (· + ·) 0

/-- The part that a step belongs to, and its place in the part. -/
def phaseAt (l : List StepPart) (i : Nat) : Option (Option Nat × Nat) :=
  (l.find? fun p => p.first ≤ i && i < p.first + p.len).map fun p => (p.group, i - p.first)

/-- The places of a part that steps i to j - 1 take. -/
def StepPart.span (p : StepPart) (i j : Nat) : Nat × Nat := (max i p.first - p.first, min j (p.first + p.len) - p.first)

/-- The accumulator tiles of a batch. -/
def servedBlocks (l : List Served) (f : Mm) : List Block :=
  (gridBlocks 1 f.m f.n 0).map fun b => { b with steps := phaseSteps (phasesOf l f.k b.row (b.row + b.vr)) }

/-- The U of each row tile and group on the side path: K steps over the group's rows of the tile (07 R286; 05 R170). -/
def servedU (l : List Served) (f : Mm) : List Block :=
  (upFrom 0 (ceilDiv f.m 128)).flatMap fun i => (upFrom 0 l.length).filterMap fun g => l[g]?.bind fun x => match x.2 with
    | .side y =>
      let r0 := max x.1.first (128 * i)
      let r1 := min (x.1.first + x.1.count) (128 * i + 128)
      if r0 < r1 then some { p := 0, row := r0, col := 0, vr := r1 - r0, vc := y.rank, steps := f.k, part := g, isU := true } else none
    | _ => none

/-- The unit that holds the U of a group for the rows of a block. -/
def uUnit (blocks : List Block) (b : Block) (g : Nat) : Nat := (blocks.findIdx? fun x => x.isU && x.part == g && x.row / 128 == b.row / 128).getD 0

/-- The scale vectors of the groups on the side path that some output tiles hold rows of (07 R286). -/
def sideScales (c : Cmd) (k : Nat) (l : List Served) (f : Mm) (y : Tensor) (trap : Bool) (outs : List Nat) : Run (List (Option Mat)) :=
  l.mapM fun g => match g.2 with
    | .side x => match x.s with
      | some q => do
        let at_ := (outs.map y.place).filter fun p => g.1.meets (128 * p.2.1) (128 * p.2.1 + 128)
        if at_.isEmpty then pure none
        else
          let t ← tensorAt c k q.2 noField
          readIf c k (some t) q.2 trap fun t => at_.flatMap fun p =>
            let (c0, c1) := f.span p.2.2
            (upFrom (c0 / 128) (ceilDiv c1 128 - c0 / 128)).map (t.index 0 0)
      | none => pure none
    | _ => pure none

/-- VARIANT.MATMUL (07 R283-R287). -/
def opVariantMatmul (c : Cmd) (s : State) : Chk Fin := runWork s do
  let b := c.block
  let k ← vfOf c
  chk (blockLen c 160)
  let f ← mmFields c k .variant
  let gr := u64 b 144
  let n := u16 b 152
  fld (aligned64 gr && (gr != 0 || n == 0)) 144
  regionAt c k (1 ≤ n && n ≤ 4096) gr (16 * n) 144
  fld (n ≤ 4096) 152
  fld (u8 b 154 ≤ 1) 154
  fld (zeroAt b 155 5) 155
  let x ← tensorAt c k f.x 0
  let w ← tensorAt c k f.w 8
  let e ← epiRefs c k f
  oneDomain (x :: e.all)
  let (slot, no) ← some! w.base .badParam noField
  let table ← if n = 0 then pure [] else do
    let (_, gb, off) ← bufferAt c k gr (16 * n) 144
    readFixed c k gb off (16 * n)
  let groups ← some! (groupTable f.m n table) .badParam noField
  let words ← takenAll do
    let l ← groups.mapM (serveGroup c k slot no (u8 b 154 == 1))
    pure (l.flatMap Serve.words)
  let served : List Served := groups.zip ((upFrom 0 groups.length).map fun i => Serve.ofWords ((words.drop (7 * i)).take 7))
  req (pairOk x.fmt w.fmt false false) .badParam noField
  fld (f.k == 0 || (shapeIs (some x) f.m f.k 1 && shapeIs (some w) f.k f.n 1)) noField
  fld (e.ok f f.m) noField
  fld (!([f.x, f.w, f.bias].contains f.y) && !(f.rope && [f.freq, f.pos].contains f.y)) noField
  let int := intPath x.fmt w.fmt
  fld (!int || served.all fun g => !g.2.isSide) noField
  fld (f.k != 0 || served.all fun g => !g.2.isSide) 48
  mayWrite e.y (upFrom 0 e.y.count)
  let o ← outPlan k f.fmt f.numctl f.scale f.seed f.stream
  reserve c k (← outSpace c k f e.y e.y.count)
  let xp := portOf x false false
  let wp := portOf w true false
  let tiles := servedBlocks served f
  let blocks := tiles ++ servedU served f
  let mx := fmtKind x.fmt == 2 || fmtKind w.fmt == 2
  let whole (xp wp : Port2) (b : Block) (i m n : Nat) : Option KPos := some (i, xp.ipos b.p m i, wp.ipos b.p n i)
  let j ← judged fun s => if int && !mx then judgeBlocks blocks false (whole (s.peekPort xp) (s.peekPort wp)) else []
  endPlan
  let parts (b : Block) : List StepPart := phasesOf served f.k b.row (b.row + b.vr)
  let sideSteps (b : Block) : Nat := phaseSteps ((parts b).filter fun p => p.group.any fun g => (served[g]?.map (·.2.isSide)).getD false)
  let P : Product :=
    { blocks, int, exact := fmtKind x.fmt == 2 && fmtKind w.fmt == 2, seg := segOf mx (acrossPorts xp wp) j, scale := wholeScale j, grain := 128
      us := fun u => match blocks[u]? with
        | some b => if b.isU then [] else (upFrom tiles.length (blocks.length - tiles.length)).filter fun v => (blocks[v]?.map fun y => y.row / 128 == b.row / 128).getD false
        | none => []
      outs := upFrom 0 e.y.count
      deps := f.deps e.y f.m blocks
      cycles := unitCycles 1 (stepCycles x.fmt w.fmt) sideSteps
      epilogue := f.epilogue o false }
  let read (ps : List Piece) : Run Feed := do
    let l := ps.map fun p => (P.block p.tile.unit, p.tile.steps, p.till)
    let acc := (l.filter fun q => !q.1.isU).flatMap fun (b, i, j) => (parts b).map fun p => (b, p.group, p.span i j)
    let us := l.filter fun q => q.1.isU
    let trap := o.ctl.trap
    let isSide (g : Option Nat) : Bool := g.any fun g => (served[g]?.map (·.2.isSide)).getD false
    let xp ← xp.fill c k f.x trap ((acc.filter fun q => !isSide q.2.1).flatMap (fun (b, _, i, j) => xp.want 0 b.row b.vr i j)
      ++ us.flatMap fun (b, i, j) => xp.want 0 b.row b.vr i j)
    let wp ← wp.fill c k f.w trap ((acc.filter fun q => q.2.1.isNone).flatMap fun (b, _, i, j) => wp.want 0 b.col b.vc i j)
    let ports ← (upFrom 0 served.length).mapM fun g => do
      let mine := acc.filter fun q => q.2.1 == some g
      let port (addr : Nat) (ns : Port2 → List Nat) : Run Port2 := do
        let t ← tensorAt c k addr noField
        let p := portOf t true false
        p.fill c k addr trap (ns p)
      match (served[g]?.map (·.2) : Option Serve) with
      | some (.forged a) =>
        if mine.isEmpty then pure (wp, wp)
        else
          let p ← port a fun p => mine.flatMap fun (b, _, i, j) => p.want 0 b.col b.vc i j
          pure (p, p)
      | some (.side y) => do
        let ours := us.filter fun q => q.1.part == g
        let ap ← if ours.isEmpty then pure wp else port y.a.2 fun p => ours.flatMap fun (b, i, j) => p.want 0 b.col b.vc i j
        let bp ← if mine.isEmpty then pure wp else port y.b.2 fun p => mine.flatMap fun (b, _, i, j) => p.want 0 b.col b.vc i j
        pure (ap, bp)
      | _ => pure (wp, wp)
    let wk := (← get).workOf c k
    pure { real := fun b i m n =>
             if b.isU then some (xp.val 0 m i, (ports.getD b.part (wp, wp)).1.val 0 n i)
             else match phaseAt (parts b) i with
               | none => none
               | some (none, q) => if (serveOf served m).isForged then none else some (xp.val 0 m q, wp.val 0 n q)
               | some (some g, q) =>
                 if groupOf served m != some g then none
                 else match serveOf served m with
                   | .forged _ => some (xp.val 0 m q, (ports.getD g (wp, wp)).1.val 0 n q)
                   | .side y => some (val32 (P.uAt wk y.alpha (uUnit blocks b g) m q), (ports.getD g (wp, wp)).2.val 0 n q)
                   | .base => none
           whole := whole xp wp }
  produceMm c k f e o P read fun w outs => do
    let sms ← sideScales c k served f e.y o.ctl.trap outs
    pure fun p m n => match (groupOf served m).bind fun g => sms.getD g none with
      | some sv => fmul (P.acc w p m n) (sv.f32 0 0 n)
      | none => P.acc w p m n
  for g in groups do
    if g.flags = 0 then stage c (.varServed k (varIndex g.handle) g.count)
  pure (if f.k = 0 then (.okNote, 1) else (.ok, (served.filter fun g => g.2.isForged).length))

/-! ### What settle does -/

/-- A set takes its place; the set it replaces is freed; the first active set becomes version 1 (07 R279, R295). -/
def State.commitSet (s : State) (k i target : Nat) (x : VarSet) (ts : List (Nat × Tensor)) : State :=
  match Tab.find? (s.comp k).variants i with
  | none => s
  | some v =>
    let old := match target with
      | 0 => v.active
      | 1 => v.shadow
      | _ => v.successor
    let s := s.dropTensors k (setAddrs old)
    let s := ts.foldl (fun s p => s.addTensor k p.1 p.2) s
    let s := s.modVariant k i fun v => match target with
      | 0 => { v with version := v.version + 1, active := some { x with version := some (v.version + 1) } }
      | 1 => { v with shadow := some x }
      | _ => { v with successor := some x }
    s

/-- The tensors of a variant after a move: (07 R280). -/
def State.replaceTensor (s : State) (k addr : Nat) (t : Tensor) : State := (s.dropTensor k addr).addTensor k addr t

/-- Residency commits (07 R280): PARK also frees the forged layers and the slot. -/
def State.commitReside (s : State) (k i : Nat) (resident : Bool) (l : List (Nat × Tensor)) : State :=
  let s := l.foldl (fun s p => s.replaceTensor k p.1 p.2) s
  let s := if resident then s else (s.dropForge k i).dropForging k i
  s.modVariant k i fun v => { v with resident, mustTried := false }

/-- MODE commits (07 R293). -/
def State.commitMode (s : State) (k i mode : Nat) : State :=
  let s := s.modVariant k i fun v => { v with mode }
  match Tab.find? (s.comp k).variants i with
  | none => s
  | some v =>
    if mode = 1 then s.unforge k i
    else if mode = 2 ∧ v.resident ∧ !v.isForged ∧ !v.forges? true then s.startForge k i true
    else s

/-- The close of a variant (07 R281; 09 R382): sets, forged layers, queue, training states, slot and index go. -/
def State.commitClose (s : State) (k i : Nat) : State :=
  match Tab.find? (s.comp k).variants i with
  | none => s
  | some v =>
    let s := (((s.dropForge k i).dropTensors k v.addrs).freeTrain k i 0).freeTrain k i 2
    s.modComp k fun x => { x with variants := Tab.del x.variants i, domIdx := x.domIdx.free i }

/-- SERVED_ROWS increases for a committed group (07 R292). -/
def State.commitServed (s : State) (k i rows : Nat) : State := s.modVariant k i fun v => { v with servedRows := sat64 v.servedRows rows }

/-- A switch whose command is no longer admitted is given up; so is a close that was aborted (07 R296). -/
def State.variantCleanup (s : State) (k : Nat) : State :=
  let here (o : Nat) : Bool := s.queue.any fun a => a.cmd.order == o
  s.modComp k fun x => { x with variants := x.variants.map fun p =>
    (p.1, { p.2 with switch := p.2.switch.filter (fun w => here w.order), closing := p.2.closing.filter here }) }

/-! ### The meanings (07 Table 7.6) -/

def execVariantRegister (c : Cmd) (s : State) : Out := .next (runCmd 0x0610 c s (opVariantRegister c s))
def execVariantLoad (c : Cmd) (s : State) : Out := .next (runCmd 0x0611 c s (opVariantLoad c s))
def execVariantReside (c : Cmd) (s : State) : Out := .next (runCmd 0x0612 c s (opVariantReside c s))
def execVariantPark (c : Cmd) (s : State) : Out := .next (runCmd 0x0613 c s (opVariantPark c s))
def execVariantSwap (c : Cmd) (s : State) : Out := .next (runCmd 0x0614 c s (opSwitch false c s))
def execVariantMode (c : Cmd) (s : State) : Out := .next (runCmd 0x0615 c s (opVariantMode c s))
def execVariantRebase (c : Cmd) (s : State) : Out := .next (runCmd 0x0616 c s (opVariantRebase c s))
def execVariantCutover (c : Cmd) (s : State) : Out := .next (runCmd 0x0617 c s (opSwitch true c s))
def execVariantUnregister (c : Cmd) (s : State) : Out := .next (runCmd 0x0618 c s (opVariantUnregister c s))
def execVariantQuery (c : Cmd) (s : State) : Out := .next (runCmd 0x0619 c s (opVariantQuery c s))
def execVariantMatmul (c : Cmd) (s : State) : Out := .next (runCmd 0x0620 c s (opVariantMatmul c s))

/-- FORGE_WINDOW_END (07 R292). -/
def execForgeWindowEnd (k : Nat) (s : State) : Out := .next (s.windowEnd k)

/-- FORGE_COMMIT (07 R289-R291). -/
def execForgeCommit (k v : Nat) (fault : RunFault) (s : State) : Out := .next (s.forgeCommit k v fault)

/-- VARIANT_SWITCH (07 R296-R299). -/
def execVariantSwitch (k v : Nat) (s : State) : Out := .next (s.variantSwitch k v)

end Sys2Proof.Machine
end

