-- ==== Sys2Proof/Machine/Streams.lean ====
section
/-! DEFINITION. Streams and the key-value cache: STREAM.OPEN, STREAM.CLOSE, STREAM.QUERY, KV.APPEND, KV.TRUNCATE, MIX.QUERY
and cold pages (08 R305-R320, R339-R344). -/

namespace Sys2Proof.Machine

/-- The stream that a command names; a stale handle ends it. -/
def streamAt (c : Cmd) (k h : Nat) : Run StreamCtx := do
  let s ← get
  some! (s.streamOf k h c) .staleGeneration

/-- Domain and key of a stream's tensors (08 R306). -/
def State.streamSeal (s : State) (k : Nat) (variant : Nat) : Option Nat × Nat :=
  match Tab.find? (s.comp k).variants (varIndex variant) with
  | some v => if variant = 0 then (none, 0) else (some (varIndex variant), v.keyHandle)
  | none => (none, 0)

/-- A flushed page of a stream (08 R308). -/
def StreamCtx.page (x : StreamCtx) (sd : Option Nat × Nat) (id : Nat) : Tensor :=
  { id, fmt := x.fmt, axis := 0, home := 1, cache := 0, domain := sd.1, keyRef := sd.2, rows := 256, cols := x.headDim, batch := 2 * x.kvHeads, owner := 5 }

/-- A staging page of a stream (08 R308). -/
def StreamCtx.staging (x : StreamCtx) (sd : Option Nat × Nat) (id : Nat) : Tensor :=
  { id, fmt := 2, axis := 0, home := if x.stageHome = 0 then 0 else 1, cache := 0, domain := sd.1, keyRef := sd.2, rows := 256
    cols := x.headDim, batch := 2 * x.kvHeads, owner := 5 }

/-- Bytes of a triple of tiers together. -/
def totalSpace (a : Nat × Nat × Nat) : Nat := a.1 + a.2.1 + a.2.2

/-- STREAM.OPEN (08 R305, R341). -/
def opStreamOpen (c : Cmd) (s : State) : Chk Fin := runWork s do
  let b := c.block
  let k ← vfOf c
  chk (blockLen c 32)
  let layers := u16 b 0
  fld (1 ≤ layers && layers ≤ 512) 0
  fld (1 ≤ u8 b 2 && u8 b 2 ≤ 128) 2
  fld (u8 b 3 == 0x13 || u8 b 3 == 0x18) 3
  let hd := u16 b 4
  fld (32 ≤ hd && hd ≤ 256 && hd % 32 == 0) 4
  fld (u8 b 6 ≤ 1) 6
  fld (u8 b 7 == 1 || u8 b 7 == 2) 7
  fld (u16 b 8 ≤ 16384) 8
  fld (1 ≤ u16 b 10 && u16 b 10 ≤ 16384) 10
  let v := u32 b 12
  if v != 0 then
    let _ ← variantAt c k v
  fld (aligned64 (u64 b 16)) 16
  fld (zeroAt b 24 8) 24
  req (u8 b 7 == 1 || (s.comp k).hostWin.isSome) .noResource
  let x := s.comp k
  let (i, g, r) ← some! (x.streamIdx.assign x.streamBase x.streamQuota) .noResource
  let st : StreamCtx :=
    { handle := handleOf g i, kvHeads := u8 b 2, fmt := u8 b 3, headDim := hd, ringPages := u16 b 8, stageHome := u8 b 6, coldHome := u8 b 7
      hotPages := u16 b 10, variant := v, layers := [] }
  let sd := s.streamSeal k v
  let one := (st.staging sd 0).space
  let need := (layers * one.1, layers * one.2.1, layers * one.2.2)
  reqPlan (s.spaceFree k c.order need) .noResource
  reserve c k need
  let mut ls : List KvLayer := []
  for _ in upFrom 0 layers do
    let t := st.staging sd 0
    let a ← newTable k t.tableBytes
    let id ← newId k
    stage c (.tensorNew k a { t with id })
    ls := ls ++ [{ stage := a }]
  endPlan
  modify fun s => s.modComp k fun x => { x with streamIdx := r }
  stage c (.streamOpen k st.handle { st with layers := ls })
  putRecord c (u64 b 16) (layout 64 [(0, 4, st.handle), (8, 8, totalSpace (st.page sd 0).space), (16, 8, totalSpace need)])
  pure (.ok, 0)

/-- STREAM.CLOSE (03 R102; 08 R341): commands admitted earlier that name the stream complete first. -/
def opStreamClose (c : Cmd) (s : State) : Chk Fin := runWork s do
  let k ← vfOf c
  chk (blockLen c 8)
  let st ← streamAt c k c.stream
  fld (zeroAt c.block 0 8) 0
  set (s.modComp k fun x =>
    { x with streams := Tab.set x.streams st.handle { st with closing := some c.order }
             closing := if x.closing.contains st.handle then x.closing else x.closing ++ [st.handle] })
  if (s.earlier c.fn c.order).any (s.namesStream k st.handle) then throw .wait
  stage c (.streamClose k st.handle)
  pure (.ok, 0)

/-- Bytes a tensor of the compartment takes. -/
def State.tensorBytes (s : State) (k addr : Nat) : Nat := ((Tab.find? (s.comp k).tensors addr).map fun t => totalSpace t.space).getD 0

/-- A variant is closing, and every stream bound to it with it (08 R306). -/
def State.variantCloses (s : State) (k h : Nat) : Bool :=
  h != 0 && match Tab.find? (s.comp k).variants (varIndex h) with
    | some v => v.handle == h && v.closing.isSome
    | none => false

/-- STREAM.QUERY (08 R342). -/
def opStreamQuery (c : Cmd) (s : State) : Chk Fin := runWork s do
  let b := c.block
  let k ← vfOf c
  chk (blockLen c 16)
  let st ← streamAt c k c.stream
  let li := u16 b 0
  fld (li < st.layers.length) 0
  fld (zeroAt b 2 6) 2
  fld (aligned64 (u64 b 8)) 8
  let l := st.layers.getD li { stage := 0 }
  let cold := (l.pages.filter fun p => match Tab.find? (s.comp k).tensors p.2 with
    | some t => t.home == 2
    | none => false).length
  let bytes := (st.layers.map fun l => s.tensorBytes k l.stage + l.tableBytes st.ringPages + (l.pages.map fun p => s.tensorBytes k p.2).foldl (· + ·) 0).foldl (· + ·) 0
  putRecord c (u64 b 8)
    (layout 64 [(0, 4, st.handle), (4, 2, st.layers.length), (6, 1, st.kvHeads), (7, 1, st.fmt), (8, 2, st.headDim), (10, 2, st.ringPages),
      (12, 2, st.hotPages), (14, 1, st.stageHome), (15, 1, st.coldHome), (16, 8, l.len), (24, 2, l.len % 256), (28, 4, l.pages.length), (32, 4, cold),
      (40, 8, bytes), (48, 4, st.variant), (52, 1, bitNum (st.closing.isSome || s.variantCloses k st.variant))])
  pure (.ok, 0)

/-! ### Appending (08 R310-R316, R318) -/

/-- A stream of an earlier append or truncation of this stroke that has not settled: this command follows it (08 R315). -/
def State.kvPending (s : State) (k h order : Nat) : Bool := s.commits.any fun x => match x.what with
  | .kvLayer j g _ _ _ _ => j == k && g == h && x.order < order
  | _ => false

/-- Page indices that an append of n tokens to a layer writes, ascending (08 R311, R318). -/
def flushPages (ring len n : Nat) : List Nat :=
  let first := len / 256
  let count := (len % 256 + n) / 256
  if ring != 0 && count > ring then upFrom (first + count - ring) ring else upFrom first count

/-- Pages freed when these are written (08 R318). -/
def ringFreed (ring : Nat) (l : KvLayer) (written : List Nat) : List (Nat × Nat) :=
  match written.getLast? with
  | none => []
  | some n => if ring = 0 then [] else l.pages.filter fun p => p.1 + ring ≤ n

/-- Row tiles of the staging page that an append rewrites (log 35). -/
def stagedTiles (len n : Nat) : List Nat :=
  let staged := len % 256
  let rest := (staged + n) % 256
  let from_ := if staged + n ≥ 256 then 0 else staged / 128
  upFrom from_ (ceilDiv rest 128 - from_)

/-- Descriptor indices of row tiles of a 256-row page. -/
def pageTiles (t : Tensor) (rows : List Nat) : List Nat := (upFrom 0 t.batch).flatMap fun p => rows.flatMap fun i => (upFrom 0 t.ct).map fun u => t.index p i u

/-- Descriptor indices of a staging page that hold staged tokens. -/
def heldTiles (t : Tensor) (len : Nat) : List Nat := pageTiles t (upFrom 0 (ceilDiv (len % 256) 128))

/-- Space that an append reserves: pages, page-table blocks, staging tiles (08 R313). -/
def appendSpace (st : StreamCtx) (sd : Option Nat × Nat) (l : KvLayer) (n : Nat) : Nat × Nat × Nat :=
  let written := flushPages st.ringPages l.len n
  let page := (st.page sd 0).space
  let top := (written.getLast?.map (· + 1)).getD 0
  let blocks := 4096 * ceilDiv (if st.ringPages = 0 then top else min top st.ringPages) 512 - l.tableBytes st.ringPages
  let stg := st.staging sd 0
  sumSpace [(written.length * page.1, written.length * page.2.1 + blocks, 0), slotSpace stg (pageTiles stg (stagedTiles l.len n)).length]

/-- A new key or value as the cache holds it: rounded to BF16 under R134 and R135, a finite value beyond the format held at its limit
(08 R310). The result is a BF16 value in FP32. -/
def kvRound (x : Nat) : Nat := (encFloat bf16 {} true (val32 x) 0).code * 65536

/-- A BF16 tile from FP32 values that are BF16 values. -/
def bf16Tile (l : List Nat) : TileData := { elems := l.map (· / 65536) }

/-- One product of a flushed page: its tiles under one measured d, and its NaN elements (08 R312). -/
def flushProduct (trap : Bool) (t : Tensor) (p : Nat) (val : Nat → Nat → Nat) : Run (List (Nat × TileData) × Nat) := do
  let a := amaxOf ((upFrom 0 256).flatMap fun r => (upFrom 0 t.cols).map fun q => val r q)
  let d := scaleFor t.fmt a
  let ns := (upFrom 0 2).flatMap fun i => (upFrom 0 t.ct).map fun u => t.index p i u
  let l := ns.map fun n => (n, encodeTile t.fmt {} (t.shape n) d 0 ((t.cells n).map fun q => val q.2.1 q.2.2) fun _ _ => 0)
  req (!(trap && l.any fun q => q.2.nans != 0)) .nanTrapped
  pure (l.map fun q => (q.1, q.2.data), (l.map fun q => q.2.nans).foldl (· + ·) 0)

/-- A new page, sealed (08 R311, R312): its table address and tensor. -/
def flushPage (c : Cmd) (k : Nat) (trap : Bool) (st : StreamCtx) (sd : Option Nat × Nat) (val : Nat → Nat → Nat → Nat) : Run (Nat × Tensor) := do
  let t := st.page sd 0
  let addr ← newTable k t.tableBytes
  let id ← newId k
  let t := { t with id }
  let mut tiles : List (Nat × Tile) := []
  for p in upFrom 0 t.batch do
    let (l, nans) ← flushProduct trap t p (val p)
    stageCounts c k [(.nanConverted, nans)]
    for q in l do
      let (x, cs) ← takeDown k t q.1 q.2
      stageCounts c k cs
      tiles := tiles ++ [(q.1, x)]
  pure (addr, { t with tiles })

/-- Append n tokens to a layer: `old` reads the staged tokens, `new` the new ones, by product, token and element, as BF16 values
in FP32 (08 R311). -/
def appendLayer (c : Cmd) (k : Nat) (st : StreamCtx) (li n : Nat) (old new : Nat → Nat → Nat → Nat) : Run Unit := do
  let s ← get
  let sd := s.streamSeal k st.variant
  let l := st.layers.getD li { stage := 0 }
  let staged := l.len % 256
  let base := l.len - staged
  let tok (p i q : Nat) : Nat := if i < staged then old p i q else new p (i - staged) q
  let written := flushPages st.ringPages l.len n
  let trap := (s.numOf k).trap
  let mut added : List (Nat × Nat) := []
  for j in written do
    let (a, t) ← flushPage c k trap st sd fun p r q => tok p (256 * j - base + r) q
    stage c (.tensorNew k a t)
    added := added ++ [(j, a)]
  let rest := (staged + n) % 256
  let first := staged + n - rest
  match Tab.find? (s.comp k).tensors l.stage with
  | some t =>
    let ns := pageTiles t (stagedTiles l.len n)
    writeTiles c k l.stage t (ns.map fun m => (m, bf16Tile ((t.cells m).map fun q => if q.2.1 < rest then tok q.1 (first + q.2.1) q.2.2 else 0)))
  | none => pure ()
  stage c (.kvLayer k st.handle li (l.len + n) added ((ringFreed st.ringPages l written).map (·.2)))
  stageCounts c k [(.tokensAppended, n), (.pagesFlushed, written.length)]

/-- The checks of an append on a layer (08 R314, R316). -/
def appendOk (st : StreamCtx) (l : KvLayer) (n expect : Nat) : Run Unit := do
  req (expect == 2 ^ 64 - 1 || expect == l.len) .kvLengthMismatch
  req (l.len + n ≤ (if st.ringPages = 0 then 4194304 else 0xFFFFFFFF)) .noResource

/-- Staged tokens of a layer as BF16 values (08 R307). -/
def readStaged (c : Cmd) (k : Nat) (l : KvLayer) (trap : Bool) : Run Mat := do
  let s ← get
  match Tab.find? (s.comp k).tensors l.stage with
  | some t => readSome c k l.stage t trap (heldTiles t l.len)
  | none => pure { t := { id := 0, fmt := 2, axis := 0, home := 0, cache := 0, rows := 256, cols := 1 }, tiles := #[] }

/-- Descriptor indices of the tiles that hold rows first … first+n-1 of a tensor. -/
def rowTiles (t : Tensor) (first n : Nat) : List Nat :=
  (upFrom (first / 128) (ceilDiv (first + n) 128 - first / 128)).flatMap fun i => (upFrom 0 t.ct).map fun u => t.index 0 i u

/-- KV.APPEND (08 R310-R316). -/
def opKvAppend (c : Cmd) (s : State) : Chk Fin := runWork s do
  let b := c.block
  let k ← vfOf c
  chk (blockLen c 40)
  let st ← streamAt c k c.stream
  let kr := u64 b 0
  let vr := u64 b 8
  let first := u32 b 24
  let n := u32 b 28
  let li := u16 b 32
  fld (refOk kr true) 0
  fld (refOk vr true) 8
  -- FIRST_ROW is 0 to rows − ROWS (Table 8.6), where the tensors are there to ask
  fld ([kr, vr].all fun a => match Tab.find? (s.comp k).tensors a with
    | some t => first + n ≤ t.rows
    | none => true) 24
  fld (1 ≤ n && n ≤ 8192) 28
  fld (li < st.layers.length) 32
  fld (zeroAt b 34 6) 34
  let kt ← tensorAt c k kr 0
  let vt ← tensorAt c k vr 8
  let cols := st.kvHeads * st.headDim
  fld (isPlain kt.fmt && isPlain vt.fmt && kt.cols == cols && vt.cols == cols && kt.batch == 1 && vt.batch == 1 && kt.rows == vt.rows) noField
  let sd := s.streamSeal k st.variant
  oneDomain ([kt, vt] ++ (sd.1.map fun _ => st.page sd 0).toList)
  if s.kvPending k st.handle c.order then throw .wait
  let l := st.layers.getD li { stage := 0 }
  appendOk st l n (u64 b 16)
  reserve c k (appendSpace st sd l n)
  endPlan
  let trap := (s.numOf k).trap
  let km ← readSome c k kr kt trap (rowTiles kt first n)
  let vm ← readSome c k vr vt trap (rowTiles vt first n)
  let sm ← readStaged c k l trap
  appendLayer c k st li n (fun p i q => sm.f32 p i q) fun p i q =>
    kvRound ((if p % 2 = 0 then km else vm).f32 0 (first + i) (p / 2 * st.headDim + q))
  pure (.ok, 0)

/-- KV.TRUNCATE (08 R317). -/
def opKvTruncate (c : Cmd) (s : State) : Chk Fin := runWork s do
  let b := c.block
  let k ← vfOf c
  chk (blockLen c 16)
  let st ← streamAt c k c.stream
  let li := u16 b 0
  let len := u64 b 8
  fld (li < st.layers.length || li == 0xFFFF) 0
  fld (zeroAt b 2 6) 2
  if s.kvPending k st.handle c.order then throw .wait
  let which := if li = 0xFFFF then upFrom 0 st.layers.length else [li]
  for i in which do
    let l := st.layers.getD i { stage := 0 }
    fld (len ≤ l.len) 8
    req (256 * (l.len / 256) ≤ len) .kvPageSealed
  for i in which do
    stage c (.kvLayer k st.handle i len [] [])
  pure (.ok, 0)

/-- MIX.QUERY (08 R342). -/
def opMixQuery (c : Cmd) (s : State) : Chk Fin := runWork s do
  let k ← vfOf c
  chk (blockLen c 8)
  fld (aligned64 (u64 c.block 0)) 0
  let x := s.comp k
  let g (t : Ctr) := ctrGet x.ctrs t
  putRecord c (u64 c.block 0)
    (layout 64 [(0, 8, g .tokensAppended), (8, 8, g .pagesFlushed), (16, 8, g .pagesColdMoved), (24, 8, g .rowsAllMasked), (32, 8, g .blocksProcessed),
      (40, 8, g .bucketPadKeys), (48, 8, g .linmixChunks), (56, 8, x.streams.length)])
  pure (.ok, 0)

/-! ### What settle does -/

/-- A stream opens; one bound to a variant whose close is admitted closes with it (08 R306, R341). -/
def State.commitStreamOpen (s : State) (k h : Nat) (x : StreamCtx) : State :=
  let closing := (Tab.find? (s.comp k).variants (varIndex x.variant)).bind fun v => if v.handle = x.variant then v.closing else none
  s.modComp k fun y =>
    { y with
      streams := Tab.set y.streams h { x with closing }
      closing := if closing.isSome then y.closing ++ [h] else y.closing }

/-- A layer after an append or a truncation (08 R311, R317, R318). -/
def State.commitLayer (s : State) (k h li len : Nat) (added : List (Nat × Nat)) (freed : List Nat) : State :=
  let s := s.dropTensors k freed
  s.modComp k fun x => match Tab.find? x.streams h with
    | none => x
    | some st =>
      let l := st.layers.getD li { stage := 0 }
      let pages := added.foldl (fun t p => Tab.set t p.1 p.2) (l.pages.filter fun p => !freed.contains p.2)
      { x with streams := Tab.set x.streams h { st with layers := st.layers.set li { l with len, pages } } }

/-- The close of a stream: pages, staging pages and page tables go, its index is free and its pin ends (03 R102; 08 R341; 15 R562). -/
def State.commitStreamClose (s : State) (k h : Nat) : State :=
  match Tab.find? (s.comp k).streams h with
  | none => s
  | some st =>
    let s := s.dropTensors k (st.layers.flatMap fun l => l.stage :: l.pages.map (·.2))
    s.modComp k fun x =>
      { x with
        streams := Tab.del x.streams h, closing := x.closing.filter (· ≠ h), streamIdx := x.streamIdx.free (h % 32768)
        pins := x.pins.filter (· ≠ h), pinsPending := x.pinsPending.filter fun p => p.1 == 2 || p.2.2 != h }

/-- Streams bound to a variant close with it (08 R306). -/
def State.closeStreamsOf (s : State) (k h : Nat) : State :=
  ((s.comp k).streams.filter fun p => p.2.variant == h).foldl (fun s p => s.commitStreamClose k p.1) s

/-! ### Cold pages (08 R320) -/

/-- The first page of a stream that is to be moved: (layer, page, table address). -/
def State.coldNext (s : State) (k : Nat) (st : StreamCtx) : Option (Nat × Nat × Nat) :=
  ((upFrom 0 st.layers.length).zip st.layers).findSome? fun p =>
    let newest := (p.2.pages.map (·.1)).foldl max 0
    (p.2.pages.find? fun q => q.1 + st.hotPages < newest && (match Tab.find? (s.comp k).tensors q.2 with
      | some t => t.home == 1
      | none => false)).map fun q => (p.1, q.1, q.2)

/-- A page's tiles brought up and taken down into the host window (06 R224, R227; 08 R320). -/
def pageDown (k addr : Nat) (t : Tensor) : Run (List (Nat × Tile)) := do
  let c := forgeCmd k
  let ns := (t.tiles.filter fun q => q.2.data.isSome).map (·.1)
  let l ← bringUp c k addr t ns
  let mut out : List (Nat × Tile) := []
  for p in ns.zip l do
    let (x, cs) ← takeDown k { t with home := 2 } p.1 p.2
    stageCounts c k cs
    out := out ++ [(p.1, x)]
  stageCounts c k [(.pagesColdMoved, 1)]
  pure out

/-- COLD_PAGE_MOVE: the named page moves to the host window at the settle of a stroke in which the compartment ran (08 R320). -/
def State.coldMove (s : State) (k h layer page : Nat) : State :=
  match Tab.find? (s.comp k).streams h with
  | none => s
  | some st => match s.coldNext k st with
    | none => s
    | some (l, p, addr) =>
      match Tab.find? (s.comp k).tensors addr with
      | none => s
      | some t =>
        let t' := { t with home := 2 }
        if st.coldHome = 2 ∧ l = layer ∧ p = page ∧ s.forgesRun ∧ s.stroke.phase = .settle ∧ k ∈ s.stroke.ran ∧ s.spaceFree k 0 (0, 0, t'.homeBytes) then
          match s.workNow (pageDown k addr t) with
          | (some tiles, s) => s.replaceTensor k addr { t' with tiles }
          | (none, s) => s
        else s

/-! ### The meanings (08 Table 8.5) -/

def execStreamOpen (c : Cmd) (s : State) : Out := .next (runCmd 0x0501 c s (opStreamOpen c s))
def execStreamClose (c : Cmd) (s : State) : Out := .next (runCmd 0x0502 c s (opStreamClose c s))
def execStreamQuery (c : Cmd) (s : State) : Out := .next (runCmd 0x0503 c s (opStreamQuery c s))
def execKvAppend (c : Cmd) (s : State) : Out := .next (runCmd 0x0504 c s (opKvAppend c s))
def execKvTruncate (c : Cmd) (s : State) : Out := .next (runCmd 0x0505 c s (opKvTruncate c s))
def execMixQuery (c : Cmd) (s : State) : Out := .next (runCmd 0x0506 c s (opMixQuery c s))

/-- COLD_PAGE_MOVE (08 R320). -/
def execColdPageMove (k stream layer page : Nat) (s : State) : Out := .next (s.coldMove k stream layer page)

end Sys2Proof.Machine
end

