-- ==== Sys2Proof/Machine/Attend.lean ====
section
/-! DEFINITION. Sequence mixing: ATTEND, ATTEND.MAT and LINMIX (08 R321-R338). -/

namespace Sys2Proof.Machine

/-! ### The length table (08 R321) -/

/-- A length-table entry (08 Table 8.2). -/
structure LenEntry where
  stream : Nat
  first : Nat
  rows : Nat
  expect : Nat
  aux : Nat
  deriving DecidableEq, Repr

/-- The entries of a table. -/
def lenEntries (n : Nat) (b : List Byte) : List LenEntry :=
  (upFrom 0 n).map fun i => { stream := u32 b (32 * i), first := u32 b (32 * i + 4), rows := u32 b (32 * i + 8), expect := u64 b (32 * i + 16), aux := u64 b (32 * i + 24) }

/-- The index of the first entry that is out of range, out of order or overlaps (08 R321). -/
def lensBad (t : Nat) (b : List Byte) (l : List LenEntry) : Option Nat :=
  (upFrom 0 l.length).find? fun i =>
    let e := l.getD i { stream := 0, first := 0, rows := 0, expect := 0, aux := 0 }
    let after := if i = 0 then 0 else (l.getD (i - 1) e).first + (l.getD (i - 1) e).rows
    !(e.first < t && 1 ≤ e.rows && e.rows ≤ 8192 && e.first + e.rows ≤ t && after ≤ e.first && zeroAt b (32 * i + 12) 4)

/-- The length table of a command, checked when its first quantum is planned. -/
def readLens (c : Cmd) (k ref t n off : Nat) : Run (List LenEntry) := do
  let (_, lb, o) ← bufferAt c k ref (32 * n) off
  let b ← readFixed c k lb o (32 * n)
  let l := lenEntries n b
  match lensBad t b l with
  | some i => failWith .badParam i
  | none => pure l

/-! ### Masks (08 R326, R327) -/

/-- A mask bitmap as it is read. -/
structure Bitmap where
  qb0 : Nat
  qbCount : Nat
  kbCount : Nat
  codes : Array Nat
  /-- the partial masks, in the order of code 2 -/
  partials : Array Byte

/-- Code of a query block and a key block. -/
def Bitmap.code (m : Bitmap) (qb kb : Nat) : Nat := if kb < m.kbCount then m.codes.getD ((qb - m.qb0) * m.kbCount + kb) 0 else 0

/-- The bitmap allows a query and a key (08 R327). -/
def Bitmap.allows (m : Bitmap) (q k : Nat) : Bool :=
  let i := (q / 128 - m.qb0) * m.kbCount + k / 128
  match m.code (q / 128) (k / 128) with
  | 1 => true
  | 2 =>
    let n := ((m.codes.toList.take i).filter (· == 2)).length
    bitOf (m.partials.getD (2048 * n + 16 * (q % 128) + k % 128 / 8) 0).toNat (k % 8)
  | _ => false

/-- Read a mask bitmap (08 R327). -/
def readBitmap (c : Cmd) (k addr : Nat) : Run Bitmap := do
  let (_, hb, ho) ← bufferAt c k addr 16 noField
  let h ← readBuffer k hb ho 16
  let qb0 := u32 h 0
  let qbc := u32 h 4
  let kbc := u32 h 8
  let pc := u32 h 12
  let n := qbc * kbc
  let codesLen := 64 * ceilDiv (ceilDiv n 4) 64
  let (_, b, o) ← bufferAt c k addr (16 + codesLen + 2048 * pc) noField
  let bytes ← readBuffer k b (o + 16) (codesLen + 2048 * pc)
  let codes := (upFrom 0 n).map fun i => bitsOf (byteAt bytes (i / 4)) (2 * (i % 4) + 1) (2 * (i % 4))
  fld (codes.all fun x => x != 3) noField
  fld ((codes.filter fun x => x == 2).length == pc) noField
  pure { qb0, qbCount := qbc, kbCount := kbc, codes := codes.toArray, partials := (bytes.drop codesLen).toArray }

/-! ### The block of Table 8.6 -/

/-- Fields of ATTEND and ATTEND.MAT (08 Table 8.6). -/
structure Att where
  q : Nat
  kNew : Nat
  vNew : Nat
  o : Nat
  lens : Nat
  bias : Nat
  freq : Nat
  t : Nat
  n : Nat
  layer : Nat
  heads : Nat
  flags : Nat
  hd : Nat
  scale : Nat
  window : Nat
  dim : Nat
  fmt : Nat
  numctl : Nat
  center : Nat
  seed : Nat
  stream : Nat
  inspectRef : Nat
  inspect : Nat
  deriving DecidableEq, Repr

def attOf (b : List Byte) : Att where
  q := u64 b 0
  kNew := u64 b 8
  vNew := u64 b 16
  o := u64 b 24
  lens := u64 b 32
  bias := u64 b 40
  freq := u64 b 48
  t := u32 b 56
  n := u16 b 60
  layer := u16 b 62
  heads := u8 b 64
  flags := u8 b 65
  hd := u16 b 66
  scale := u32 b 68
  window := u32 b 72
  dim := u16 b 76
  fmt := u8 b 78
  numctl := u32 b 80
  center := u32 b 84
  seed := u64 b 88
  stream := u64 b 96
  inspectRef := u64 b 104
  inspect := u8 b 112

def Att.causal (f : Att) : Bool := bitOf f.flags 0
def Att.rope (f : Att) : Bool := bitOf f.flags 1
def Att.half (f : Att) : Bool := bitOf f.flags 2
def Att.buckets (f : Att) : Bool := bitOf f.flags 3
def Att.pFp8 (f : Att) : Bool := bitOf f.flags 4
def Att.dense (f : Att) : Bool := bitOf f.flags 5

/-- The fields in block order (08 R340; R319 for rings; R335 for ATTEND.MAT): `sts` are the streams that the length table names. -/
def attFields (c : Cmd) (k : Nat) (mat : Bool) (sts : List StreamCtx) : Run Att := do
  let b := c.block
  let f := attOf b
  let news := f.kNew != 0
  fld (refOk f.q true) 0
  fld (refOk f.kNew false && !(mat && news)) 8
  fld (refOk f.vNew false && (f.vNew != 0) == news) 16
  fld (refOk f.o true) 24
  fld (aligned64 f.lens) 32
  fld (refOk f.bias false) 40
  fld (refOk f.freq false && (f.freq != 0) == f.rope) 48
  fld (1 ≤ f.t && f.t ≤ 1048576) 56
  fld (1 ≤ f.n && f.n ≤ 4096) 60
  fld (f.layer ≤ 511) 62
  fld (1 ≤ f.heads && f.heads ≤ 128) 64
  fld (f.flags < 64 && (if mat then !f.rope && !f.pFp8 else !f.dense) && !(f.rope && !news) && sts.all fun st => st.ringPages == 0 || f.causal) 65
  fld (sts.all fun st => st.headDim == f.hd) 66
  fld (isFin f.scale) 68
  fld (sts.all fun st => st.ringPages == 0 || (1 ≤ f.window && f.window ≤ 256 * st.ringPages)) 72
  fld (if f.rope then f.dim % 2 == 0 && 2 ≤ f.dim && f.dim ≤ f.hd else f.dim == 0) 76
  fld (fmtValid f.fmt && fmtElem f.fmt ≤ 9) 78
  fld (zeroAt b 79 1) 79
  let s ← get
  fldPlan (s.ctlOk k f.fmt f.numctl && outScaleOk f.fmt f.numctl 0) 80
  fld (match Tab.find? (s.comp k).tensors f.bias with
    | some t => f.center < t.cols
    | none => f.bias != 0 || f.center == 0) 84
  fld (refOk f.inspectRef (mat && f.inspect != 0) && (mat || f.inspectRef == 0)) 104
  fld (f.inspect ≤ (if mat then 2 else 0)) 112
  fld (zeroAt b 113 15) 113
  pure f

/-! ### One entry at work -/

/-- An entry with its stream and what its rows can reach (08 R322). -/
structure Seq where
  e : LenEntry
  st : StreamCtx
  /-- LENGTH of the layer at the first quantum -/
  len : Nat
  /-- position of the entry's row 0 -/
  q0 : Nat
  /-- reachable keys: positions 0 to keys - 1 -/
  keys : Nat
  /-- the layer as the stroke finds it -/
  layer : KvLayer

/-- Entries with their streams; `lens` holds the lengths that the first quantum read, if it has run (08 R315, R322, R323). -/
def seqsOf (c : Cmd) (k : Nat) (f : Att) (lens : List Nat) (l : List LenEntry) : Run (List Seq) := do
  let news := f.kNew != 0
  let sts ← l.mapM fun e => streamAt c k e.stream
  fld ((l.map (·.stream)).eraseDups.length == l.length) noField
  let ok (a : StreamCtx) : Bool := match sts with
    | b :: _ => a.kvHeads == b.kvHeads && a.headDim == b.headDim && a.fmt == b.fmt && f.layer < a.layers.length && f.heads % a.kvHeads == 0
    | [] => true
  fld (sts.all ok) noField
  ((upFrom 0 l.length).zip (l.zip sts)).mapM fun p => do
    let layer := p.2.2.layers.getD f.layer { stage := 0 }
    let n := p.2.1.rows
    let len := lens.getD p.1 layer.len
    fld (news || n ≤ len) noField
    pure { e := p.2.1, st := p.2.2, len, q0 := if news then len else len - n, keys := if news then len + n else len, layer }

/-- A key is allowed by CAUSAL, the window and the bitmap (08 R326). -/
def Att.allowed (f : Att) (bm : Option Bitmap) (q k : Nat) : Bool :=
  (!f.causal || k ≤ q) && (f.window == 0 || (q : Int) - k < f.window) && (match bm with
    | some m => m.allows q k
    | none => true)

/-- Positions of a block. -/
def blockKeys (keys b : Nat) : List Nat := upFrom (128 * b) (min 128 (keys - 128 * b))

/-- Key blocks that some of an entry's rows reach, ascending (08 R330, R332). -/
def blocksOf (allow : Nat → Nat → Bool) (rows : List Nat) (keys : Nat) : List Nat :=
  (upFrom 0 (ceilDiv keys 128)).filter fun b => rows.any fun i => (blockKeys keys b).any (allow i)

/-- Pages at hand, by page index. -/
abbrev Pages := List (Nat × Mat)

/-- Descriptor indices of row tiles of a 256-row page, for some key-value heads. -/
def kvTiles (t : Tensor) (gs rows : List Nat) : List Nat :=
  gs.flatMap fun g => [2 * g, 2 * g + 1].flatMap fun p => rows.flatMap fun i => (upFrom 0 t.ct).map fun u => t.index p i u

/-- Read the tiles of the pages that hold some blocks, and the staging page's, for some key-value heads; `appends`: all that is
staged, for the flush (08 R307, R330). -/
def readBlocks (c : Cmd) (k : Nat) (trap : Bool) (x : Seq) (gs blocks : List Nat) (appends : Bool) : Run (Pages × Mat) := do
  let s ← get
  let staged0 := 256 * (x.layer.len / 256)
  let pages := (blocks.map (· / 2)).eraseDups.filter fun p => 256 * p < staged0
  let ms ← pages.filterMapM fun p => match Tab.find? x.layer.pages p with
    | none => pure none
    | some a => match Tab.find? (s.comp k).tensors a with
      | none => pure none
      | some t => do
        let m ← readSome c k a t trap (kvTiles t gs ((blocks.filter fun b => b / 2 == p).map (· % 2)))
        pure (some (p, m))
  let sm ← match Tab.find? (s.comp k).tensors x.layer.stage with
    | some t =>
      let used := kvTiles t gs ((blocks.filter fun b => b / 2 * 256 == staged0 && 128 * b < x.len).map (· % 2))
      readSome c k x.layer.stage t trap (used ++ if appends then heldTiles t x.layer.len else []).eraseDups
    | none => pure { t := { id := 0, fmt := 2, axis := 0, home := 0, cache := 0, rows := 256, cols := 1 }, tiles := #[] }
  pure (ms, sm)

/-- Product p (2h the keys, 2h + 1 the values of head h) at a position: a page, staging, or the working buffer; `gone` stands for a page
of a ring that has been freed since the first quantum (08 R307, R310, R318; log 124). -/
def kvAt (x : Seq) (pages : Pages) (sm : Mat) (new gone : Nat → Nat → Nat → Nat) (p pos d : Nat) : Num :=
  if pos ≥ x.len then val32 (new p (pos - x.len) d)
  else if pos ≥ 256 * (x.layer.len / 256) then sm.val p (pos % 256) d
  else match pages.find? fun q => q.1 == pos / 256 with
    | some q => q.2.val p (pos % 256) d
    | none => val32 (gone p pos d)

/-- The bias column of a query and a key (08 R328). -/
def biasCol (f : Att) (len q k : Nat) : Nat := (max 0 (min ((len : Int) - 1) ((q : Int) - k + f.center))).toNat

/-- The larger of two FP32 values; NaN if either is. -/
def attMax (a b : Nat) : Nat := if isNan a || isNan b then nan32 else if flt a b then b else a

/-- p × 256 as FP8-E4M3, decoded with 2^-8; or p as BF16 (08 R330). -/
def quantP (fp8 : Bool) (p : Nat) : Num :=
  if fp8 then (floatVal e4m3 (encFloat e4m3 {} false ((val32 p).mul (Num.pow2 8)) 0).code).mul (Num.pow2 (-8)) else val32 (bf16rne p)

/-- Running maximum, sum and output of one row and head (08 R330). -/
structure Online where
  m : Nat
  l : Nat
  o : List Nat

/-- One key block: its scores by position, and the values (08 R330). -/
def onlineBlock (fp8 : Bool) (hd : Nat) (a : Online) (sc : List (Nat × Nat)) (value : Nat → Nat → Num) : Online :=
  let m := sc.foldl (fun m p => attMax m p.2) a.m
  let c := if a.m = ninf32 then 0 else crExp (fsub a.m m)
  let ps := sc.map fun p => (p.1, crExp (fsub p.2 m))
  let qs := ps.map fun p => (p.1, quantP fp8 p.2)
  { m
    l := ps.foldl (fun l p => fadd l p.2) (fmul a.l c)
    o := (upFrom 0 hd).map fun n => qs.foldl (fun o p => facc o p.2 (value p.1 n)) (fmul (a.o.getD n 0) c) }

/-- Everything one row and head needs: score of a position, allowed, value. -/
structure RowWork where
  score : Nat → Nat
  allow : Nat → Bool
  value : Nat → Nat → Num

/-- Fused attention of one row and head: outputs, and whether l is +0 (08 R330). -/
def attendRow (fp8 : Bool) (hd keys : Nat) (w : RowWork) : List Nat × Bool :=
  let blocks := (upFrom 0 (ceilDiv keys 128)).filter fun b => (blockKeys keys b).any w.allow
  let a := blocks.foldl (fun a b =>
    onlineBlock fp8 hd a ((blockKeys keys b).map fun k => (k, if w.allow k then w.score k else ninf32)) w.value) { m := ninf32, l := 0, o := List.replicate hd 0 }
  if a.l = 0 then (List.replicate hd 0, true) else (a.o.map fun o => fdiv o a.l, false)

/-- Materialising attention of one row and head: outputs, scores, probabilities, and whether every score is −∞ (08 R333). -/
def matRow (hd keys : Nat) (w : RowWork) (dmask : Option (Nat → Nat)) : List Nat × List Nat × List Nat × Bool :=
  let sc := (upFrom 0 keys).map fun k =>
    let s := if w.allow k then w.score k else ninf32
    match dmask with
    | some d => fadd s (d k)
    | none => s
  let m := sc.foldl attMax ninf32
  if m = ninf32 then (List.replicate hd 0, sc, List.replicate keys 0, true)
  else
    let e := sc.map fun s => crExp (fsub s m)
    let l := e.foldl fadd 0
    let p := e.map fun x => bf16rne (fdiv x l)
    ((upFrom 0 hd).map fun n => ((upFrom 0 keys).zip p).foldl (fun o q => facc o (val32 q.2) (w.value q.1 n)) 0, sc, p, false)

/-- What an inspection tensor receives: masked keys as −∞ or +0 (08 R336). -/
def inspected (allow : Nat → Bool) (scores : Bool) (sc p : List Nat) (k : Nat) : Nat :=
  if allow k then (if scores then sc else p).getD k 0 else if scores then ninf32 else 0

/-- The row tiles of an entry and a key-value head: (first row, last row, query head of its first row) of each (08 R332). -/
def rowTilesOf (rows group g : Nat) : List (Nat × Nat × Nat) :=
  (upFrom 0 (ceilDiv (rows * group) 128)).map fun t =>
    (128 * t / group, (min (128 * (t + 1)) (rows * group) - 1) / group, g * group + 128 * t % group)

/-- Padding keys of the buckets of 128 entries (08 R325). -/
def padKeys (l : List Nat) : Nat :=
  ((upFrom 0 (ceilDiv l.length 128)).map fun i =>
    let b := (l.drop (128 * i)).take 128
    (b.map fun n => b.headD 0 - n).foldl (· + ·) 0).foldl (· + ·) 0

/-- The entry that covers a row. -/
def coverOf (l : List LenEntry) (r : Nat) : Option Nat := (upFrom 0 l.length).find? fun i => match l[i]? with
  | some e => e.first ≤ r && r < e.first + e.rows
  | none => false

/-- Descriptor indices of the tiles of a T-row tensor that hold a covered row. -/
def coveredTiles (t : Tensor) (l : List LenEntry) : List Nat := sortBy (· ≤ ·) (l.flatMap fun e => rowTiles t e.first e.rows).eraseDups

/-- A query row's element, rotated where ROPE says so (08 R329). -/
def queryAt (f : Att) (qm : Mat) (freq : Option Mat) (pos : Nat) (r col : Nat) : Num :=
  match freq with
  | some fm =>
    let j := col % f.hd
    if j < f.dim then val32 (ropeAt f.half f.hd f.dim (fun _ => rnd32 (Num.ofNat pos)) (fm.entry 0) (fun x => qm.f32 0 r x) 0 col) else qm.val 0 r col
  | none => qm.val 0 r col

/-- New keys (rotated) and values of a row as BF16 values (08 R310, R329). -/
def newAt (f : Att) (km vm : Mat) (freq : Option Mat) (x : Seq) (p i d : Nat) : Nat :=
  let col := p / 2 * f.hd + d
  let r := x.e.first + i
  if p % 2 = 1 then kvRound (vm.f32 0 r col)
  else match freq with
    | some fm => kvRound (ropeAt f.half f.hd f.dim (fun _ => rnd32 (Num.ofNat (x.q0 + i))) (fm.entry 0) (fun y => km.f32 0 r y) 0 col)
    | none => kvRound (km.f32 0 r col)

/-- The working buffer of an entry: its new keys and values, by product, token and element (08 R310). -/
def workBuffer (f : Att) (km vm : Mat) (freq : Option Mat) (x : Seq) : TileData :=
  { elems := (upFrom 0 (2 * x.st.kvHeads)).flatMap fun p => (upFrom 0 x.e.rows).flatMap fun i => (upFrom 0 f.hd).map fun d => newAt f km vm freq x p i d / 65536 }

/-- A value in the working buffer. -/
def TileData.newToken (b : TileData) (rows hd p i d : Nat) : Nat := b.elems.getD ((p * rows + i) * hd + d) 0 * 65536

/-- One row of the work of a quantum: entry, row in it, query head. -/
abbrev RowId := Nat × Nat × Nat

/-- The rows and heads that an output tile is formed from. -/
def outRowIds (f : Att) (l : List LenEntry) (t : Tensor) (v : Nat) : List RowId :=
  let (_, i, u) := t.place v
  let g := t.shape v
  let heads := upFrom (128 * u / f.hd) ((128 * u + g.vc - 1) / f.hd + 1 - 128 * u / f.hd)
  (upFrom (128 * i) g.vr).flatMap fun r => match coverOf l r with
    | some x => heads.map fun h => (x, r - ((l[x]?).map (·.first)).getD 0, h)
    | none => []

/-- The rows and heads that a tile of the inspection tensor is formed from (08 R336). -/
def inspectRowIds (f : Att) (t : Tensor) (v : Nat) : List RowId :=
  let (_, i, _) := t.place v
  (upFrom (128 * i) (t.shape v).vr).map fun r => (0, r / f.heads, r % f.heads)

/-- ATTEND and ATTEND.MAT (08 R321-R336). A cut falls after whole tiles of O and of the inspection tensor (log 124). -/
def opAttention (mat : Bool) (c : Cmd) (s : State) : Chk Fin := runWork s do
  let k ← vfOf c
  chk (blockLen c 128)
  let table := fieldsOf 32 0 4 ((s.comp k).lensTable (if mat then 0x0511 else 0x0510) c.block)
  let f ← attFields c k mat (table.filterMap (Tab.find? (s.comp k).streams))
  let news := f.kNew != 0
  let qt ← tensorAt c k f.q 0
  let kt ← refIf c k news f.kNew 8
  let vt ← refIf c k news f.vNew 16
  let ot ← tensorAt c k f.o 24
  let bt ← refIf c k true f.bias 40
  let ft ← refIf c k f.rope f.freq 48
  let it ← refIf c k (f.inspect != 0) f.inspectRef 104
  let l ← readLens c k f.lens f.t f.n 32
  reqPlan (!(decide (s.power.state = .duskServing) && l.any fun e => !(s.comp k).pins.contains e.stream)) .shed
  let begun := s.works.any fun w => w.order == c.order
  let seqs ← seqsOf c k f (s.workOf c k).lens l
  let st := match seqs with
    | x :: _ => x.st
    | [] => { handle := 0, kvHeads := 1, fmt := 0x13, headDim := 32, ringPages := 0, stageHome := 1, coldHome := 1, hotPages := 1, variant := 0, layers := [] }
  if news && seqs.any (fun x => s.kvPending k x.st.handle c.order) then throw .wait
  let cols := f.heads * f.hd
  fld (shapeIs (some qt) f.t cols 1 && shapeIs (some ot) f.t cols 1 && ot.fmt == f.fmt) noField
  fld (pairOk qt.fmt st.fmt false false) noField
  fld (shapeIs kt f.t (st.kvHeads * f.hd) 1 && shapeIs vt f.t (st.kvHeads * f.hd) 1 && plainIs kt && plainIs vt) noField
  let biasLen := (bt.map (·.cols)).getD 0
  fld (plainIs bt && (bt.isNone || ((bt.map (·.rows)).getD 0 == f.heads && (bt.map (·.batch)).getD 0 == 1 && 1 ≤ biasLen && biasLen ≤ 65536))) noField
  fld (plainIs ft && vectorIs ft (f.dim / 2) 1) noField
  fld (!([f.q, f.kNew, f.vNew, f.bias, f.freq].contains f.o)) noField
  for x in seqs do
    if news then appendOk x.st x.layer x.e.rows x.e.expect
    fld (!f.rope || x.q0 + x.e.rows ≤ 16777217) noField
    fld (!mat || x.keys ≤ 65536) noField
  fld (!f.buckets || (seqs.zip seqs.tail).all fun p => p.2.keys ≤ p.1.keys) noField
  fld (f.inspect == 0 || (f.n == 1 && (match it, seqs with
    | some t, [x] => t.rows == x.e.rows * f.heads && t.cols == x.keys && t.batch == 1 && t.fmt == (if f.inspect = 1 then 0 else 2)
    | _, _ => false))) noField
  fld (f.inspect == 0 || !([f.q, f.bias, f.o].contains f.inspectRef)) noField
  let dmt ← seqs.mapM fun x => if f.dense && x.e.aux != 0 then do
      let t ← tensorAt c k x.e.aux noField
      fld (shapeIs (some t) x.e.rows x.keys 1 && isPlain t.fmt) noField
      pure (some t)
    else pure none
  let named := qt :: ot :: ([kt, vt, bt, ft, it] ++ dmt).filterMap id
  oneDomain (named ++ seqs.flatMap fun x => ((s.streamSeal k x.st.variant).1.map fun _ => x.st.page (s.streamSeal k x.st.variant) 0).toList)
  let covered := coveredTiles ot l
  let inspects := (it.map fun t => upFrom 0 t.count).getD []
  mayWrite ot covered
  match it with
  | some t => mayWrite t inspects
  | none => pure ()
  let plan ← outPlan k f.fmt f.numctl 0 f.seed f.stream
  let group := f.heads / st.kvHeads
  let scores := if mat then (seqs.map fun x => x.e.rows * group * x.keys * 4).foldl max 0 else 0
  reserve c k (sumSpace ([slotSpace ot covered.length, (scores, 0, 0)] ++ (it.map fun t => slotSpace t t.count).toList
    ++ (if news then seqs.map fun x => appendSpace x.st (s.streamSeal k x.st.variant) x.layer x.e.rows else [])))
  endPlan
  let trap := plan.ctl.trap
  let idx := upFrom 0 seqs.length
  let last := (← get).act.reach.isEmpty
  let fm ← readIf c k ft f.freq trap fun t => upFrom 0 t.count
  if !begun then
    let km ← readIf c k kt f.kNew trap fun t => coveredTiles t l
    let vm ← readIf c k vt f.vNew trap fun t => coveredTiles t l
    let data := match km, vm with
      | some km, some vm => seqs.map (workBuffer f km vm fm)
      | _, _ => []
    modify fun s => s.setWork { s.workOf c k with lens := seqs.map (·.len), data }
  let j := Job.outputs (covered ++ inspects.map (ot.count + ·))
  let go := ((← j.pieces c k).filter fun p => j.outs.contains p.tile.unit)
  j.bank c k (go.map fun p => (p, { p.tile with steps := 1 }))
  let data := ((← get).workOf c k).data
  let units := go.map (·.tile.unit)
  let outs := units.filter (· < ot.count)
  let insp := (units.filter (ot.count ≤ ·)).map (· - ot.count)
  let need := ((outs.flatMap (outRowIds f l ot)) ++ (match it with
    | some t => insp.flatMap (inspectRowIds f t)
    | none => [])).eraseDups
  -- the row tiles whose first row and head stand in an output tile of this quantum
  let tiles := (idx.zip seqs).flatMap fun p => (upFrom 0 st.kvHeads).flatMap fun g => ((rowTilesOf p.2.e.rows group g).filter fun t =>
    outs.contains (ot.index 0 ((p.2.e.first + t.1) / 128) (t.2.2 * f.hd / 128))).map fun t => (p.1, t)
  let rowsOf (i : Nat) : List Nat := (((need.filter fun q => q.1 == i).map (·.2.1)) ++
    (tiles.filter fun q => q.1 == i).flatMap fun q => upFrom q.2.1 (q.2.2.1 + 1 - q.2.1)).eraseDups
  let bms ← (idx.zip seqs).mapM fun p => if !f.dense && p.2.e.aux != 0 && !(rowsOf p.1).isEmpty then do
      let m ← readBitmap c k p.2.e.aux
      fld ((upFrom 0 p.2.e.rows).all fun i => m.qb0 ≤ (p.2.q0 + i) / 128 && (p.2.q0 + i) / 128 < m.qb0 + m.qbCount) noField
      pure (some m)
    else pure none
  let dms ← (idx.zip (seqs.zip dmt)).mapM fun p => readIf c k p.2.2 p.2.1.e.aux trap fun t =>
    ((rowsOf p.1).map (· / 128)).eraseDups.flatMap fun i => (upFrom 0 t.ct).map (t.index 0 i)
  let qm ← readSome c k f.q qt trap (need.flatMap fun q => match l[q.1]? with
    | some e => (upFrom (q.2.2 * f.hd / 128) (ceilDiv ((q.2.2 + 1) * f.hd) 128 - q.2.2 * f.hd / 128)).map (qt.index 0 ((e.first + q.2.1) / 128))
    | none => []).eraseDups
  let bm ← readIf c k bt f.bias trap fun t => (need.map (·.2.2 / 128)).eraseDups.flatMap fun i => (upFrom 0 t.ct).map (t.index 0 i)
  let allowOf (i : Nat) (r kk : Nat) : Bool := match seqs[i]? with
    | some x => f.allowed (bms.getD i none) (x.q0 + r) kk && (match dms.getD i none with
      | some d => d.f32 0 r kk != ninf32
      | none => true)
    | none => false
  let kvs ← (idx.zip seqs).mapM fun p =>
    let gs := ((need.filter fun q => q.1 == p.1).map (·.2.2 / group)).eraseDups
    let blocks := if mat then (if gs.isEmpty then [] else upFrom 0 (ceilDiv p.2.keys 128)) else blocksOf (allowOf p.1) (rowsOf p.1) p.2.keys
    readBlocks c k trap p.2 gs blocks (news && last)
  let lost ← freshDraw
  let newOf (i : Nat) (x : Seq) (p t d : Nat) : Nat := (data.getD i { elems := [] }).newToken x.e.rows f.hd p t d
  let rowWork (i : Nat) (x : Seq) (r h : Nat) : RowWork :=
    let kv := kvs.getD i ([], { t := ot, tiles := #[] })
    let g := h / group
    let q := x.q0 + r
    let held (kk : Nat) : Bool := 256 * (x.layer.len / 256) ≤ kk || kv.1.any fun p => p.1 == kk / 256
    let at_ := kvAt x kv.1 kv.2 (newOf i x) fun p pos d => randDraw (lost % 2 ^ 64) 0 p (pos * f.hd + d) * 65536
    let qv := ((upFrom 0 f.hd).map fun d => queryAt f qm fm q (x.e.first + r) (h * f.hd + d)).toArray
    { score := fun kk =>
        let v := rnd32 ((val32 f.scale).mul (val32 (floatAcc f.hd (fun d => qv.getD d .zero) fun d => at_ (2 * g) kk d)))
        match bm with
        | some b => fadd v (b.f32 0 h (biasCol f biasLen q kk))
        | none => v
      allow := allowOf i r
      value := fun kk n => if held kk || allowOf i r kk then at_ (2 * g + 1) kk n else .zero }
  let done := need.map fun q => match seqs[q.1]? with
    | none => (q, ([], [], [], false))
    | some x =>
      let w := rowWork q.1 x q.2.1 q.2.2
      if mat then (q, matRow f.hd x.keys w ((dms.getD q.1 none).map fun (d : Mat) kk => d.f32 0 q.2.1 kk))
      else
        let (o, z) := attendRow f.pFp8 f.hd x.keys w
        (q, (o, [], [], z))
  let rowAt (q : RowId) : List Nat × List Nat × List Nat × Bool := ((done.find? fun p => p.1 == q).map (·.2)).getD ([], [], [], false)
  let val (_ r j : Nat) : Option Nat := (coverOf l r).map fun i =>
    ((rowAt (i, r - ((l[i]?).map (·.first)).getD 0, j / f.hd)).1).getD (j % f.hd) 0
  let _ ← emit c k f.o ot plan outs val
  match it with
  | some t =>
    let pl : OutPlan := { fmt := t.fmt, ctl := {}, cfg := {}, src := .given 0, t := 0, slot := none, seed := 0, stream := 0 }
    let e ← encodeTiles pl t insp fun _ r kk =>
      let x := rowAt (0, r / f.heads, r % f.heads)
      some (inspected (allowOf 0 (r / f.heads)) (f.inspect == 1) x.2.1 x.2.2.1 kk)
    writeTiles c k f.inspectRef t (e.map fun p => (p.1, p.2.data))
  | none => pure ()
  if news && last then
    for p in idx.zip seqs do
      let kv := kvs.getD p.1 ([], { t := ot, tiles := #[] })
      appendLayer c k p.2.st f.layer p.2.e.rows (fun pr i d => kv.2.f32 pr i d) (newOf p.1 p.2)
  let pairs := (tiles.map fun q => (blocksOf (allowOf q.1) (upFrom q.2.1 (q.2.2.1 + 1 - q.2.1)) ((seqs[q.1]?.map (·.keys)).getD 0)).length).foldl (· + ·) 0
  -- a row and head counts with the output tile of its first column
  let masked := done.filter fun p => p.2.2.2.2 && outs.contains (ot.index 0 ((((l[p.1.1]?).map (·.first)).getD 0 + p.1.2.1) / 128) (p.1.2.2 * f.hd / 128))
  stageCounts c k [(.rowsAllMasked, masked.length), (.blocksProcessed, pairs), (.bucketPadKeys, if f.buckets && last then padKeys (seqs.map (·.keys)) else 0)]
  bumpNow k .steps (pairs * (f.hd + 128 * ceilDiv f.hd 128))
  freeBump k .feedStallCycles (if pairs = 0 then 0 else 2 ^ 64)
  freeBump k .epilogueExposedCycles (if pairs = 0 then 0 else pairs * (if mat then 640 else 384) + 1)
  j.close c k units
  pure (.ok, 0)

/-! ### LINMIX (08 R337, R338) -/

/-- BF16 or FP8-E4M3 of scale kind NONE or TENSOR (08 R337). -/
def linFormat (b : Nat) : Bool := fmtValid b && (fmtElem b == 2 || fmtElem b == 3) && fmtKind b ≤ 1

/-- What one chunk of one head reads: q and k by token and DK index, v by token and DV index, a by token. -/
structure Chunk where
  q : Nat → Nat → Num
  k : Nat → Nat → Num
  v : Nat → Nat → Num
  a : Nat → Nat

/-- g[i] = fp32_rne(g[i-1] × a[i]) (08 R338). -/
def decays (a : Nat → Nat) : Nat → List Nat → Nat → List Nat
  | 0, acc, _ => acc.reverse
  | n + 1, acc, i => decays a n (fmul (acc.headD one32) (a i) :: acc) (i + 1)

/-- r[i][j]: the product of a[j+1] … a[i], one rounding for each (08 R338). -/
def ratio (a : Nat → Nat) (i j : Nat) : Nat := (upFrom (j + 1) (i - j)).foldl (fun r t => fmul r (a t)) one32

/-- One chunk of one head: outputs by token and DV index, and the state after it (08 R338). -/
def mixChunk (n dk dv : Nat) (x : Chunk) (st : Nat → Nat → Nat) : (List (List Nat)) × (Nat → Nat → Nat) :=
  let g := (decays x.a n [] 0).toArray
  let rs := ((upFrom 0 n).map fun i => ((upFrom 0 (i + 1)).map fun j => ratio x.a i j).toArray).toArray
  let r (i j : Nat) : Nat := (rs.getD i #[]).getD j 0
  let w := ((upFrom 0 n).map fun i => ((upFrom 0 (i + 1)).map fun j =>
    val32 (bf16rne (fmul (r i j) (floatAcc dk (x.q i) (x.k j))))).toArray).toArray
  let out := (upFrom 0 n).map fun i => (upFrom 0 dv).map fun m =>
    let inter := fmul (g.getD i 0) (floatAcc dk (x.q i) fun c => val32 (st c m))
    let intra := (upFrom 0 (i + 1)).foldl (fun a j => facc a ((w.getD i #[]).getD j .zero) (x.v j m)) 0
    fadd inter intra
  let gl := g.getD (n - 1) one32
  let next := ((upFrom 0 dk).map fun c =>
    let ks := (upFrom 0 n).map fun j => val32 (bf16rne (rnd32 ((val32 (r (n - 1) j)).mul (x.k j c))))
    ((upFrom 0 dv).map fun m =>
      ((upFrom 0 n).zip ks).foldl (fun a q => facc a q.2 (x.v q.1 m)) (fmul gl (st c m))).toArray).toArray
  (out, fun c m => (next.getD c #[]).getD m 0)

/-- The chunks of LINMIX: those of an entry stand together, head by head (08 R338). Each entry with its rows and state tensor. -/
structure MixPlan where
  heads : Nat
  dk : Nat
  dv : Nat
  entries : List (LenEntry × Option Tensor)

/-- Chunks of one head of an entry. -/
def MixPlan.chunks (p : MixPlan) (i : Nat) : Nat := ((p.entries[i]?).map fun e => ceilDiv e.1.rows 128).getD 0

/-- The unit of the first chunk of an entry. -/
def MixPlan.base (p : MixPlan) (i : Nat) : Nat := ((upFrom 0 i).map fun e => p.heads * p.chunks e).foldl (· + ·) 0

/-- Tiles of the state tensors of the entries before one. -/
def MixPlan.stateBase (p : MixPlan) (i : Nat) : Nat := ((p.entries.take i).map fun e => (e.2.map (·.count)).getD 0).foldl (· + ·) 0

/-- The units in order: entry, head and chunk of each. -/
def MixPlan.units (p : MixPlan) : List (Nat × Nat × Nat) :=
  (upFrom 0 p.entries.length).flatMap fun i => (upFrom 0 p.heads).flatMap fun h => (upFrom 0 (p.chunks i)).map fun q => (i, h, q)

/-- The unit of a chunk. -/
def MixPlan.unit (p : MixPlan) (i h q : Nat) : Nat := p.base i + h * p.chunks i + q

/-- Tokens of a chunk. -/
def MixPlan.len (p : MixPlan) (i q : Nat) : Nat := ((p.entries[i]?).map fun e => min 128 (e.1.rows - 128 * q)).getD 0

/-- The chunks that a tile of O is formed from. -/
def MixPlan.outDeps (p : MixPlan) (ot : Tensor) (v : Nat) : List Nat :=
  let (_, i, u) := ot.place v
  let g := ot.shape v
  let heads := upFrom (128 * u / p.dv) ((128 * u + g.vc - 1) / p.dv + 1 - 128 * u / p.dv)
  ((upFrom (128 * i) g.vr).flatMap fun r => match coverOf (p.entries.map (·.1)) r with
    | some e => heads.map fun h => p.unit e h ((r - ((p.entries[e]?).map (·.1.first)).getD 0) / 128)
    | none => []).eraseDups

/-- The chunks that a tile of an entry's state tensor is formed from: the last of each of its heads. -/
def MixPlan.stateDeps (p : MixPlan) (e : Nat) (t : Tensor) (v : Nat) : List Nat :=
  let (_, i, _) := t.place v
  let g := t.shape v
  (upFrom (128 * i / p.dk) ((128 * i + g.vr - 1) / p.dk + 1 - 128 * i / p.dk)).map fun h => p.unit e h (p.chunks e - 1)

/-- The entry of a state tile, counted through all state tensors, and its index in it. -/
def MixPlan.stateTile (p : MixPlan) (v : Nat) : Option (Nat × Tensor × Nat) :=
  (upFrom 0 p.entries.length).findSome? fun i => (p.entries[i]?).bind fun e => e.2.bind fun t =>
    if p.stateBase i ≤ v ∧ v < p.stateBase i + t.count then some (i, t, v - p.stateBase i) else none

/-- The job: a cut falls only between chunks; the tiles of the state tensors follow those of O (08 R338). -/
def MixPlan.job (p : MixPlan) (ot : Tensor) (covered : List Nat) : Job :=
  let us := p.units
  { units := us.length
    steps := fun _ => 1
    cut := fun _ _ => 0
    outs := covered ++ (upFrom 0 (p.stateBase p.entries.length)).map (ot.count + ·)
    deps := fun v => if v < ot.count then p.outDeps ot v else match p.stateTile (v - ot.count) with
      | some (e, t, n) => p.stateDeps e t n
      | none => []
    next := fun u => match us[u]? with
      | some (i, _, q) => if q + 1 < p.chunks i then [u + 1] else []
      | none => [] }

/-- One chunk as its unit keeps it: the outputs by token and DV index, then the state after it by DK and DV index. -/
def MixPlan.run (p : MixPlan) (n : Nat) (x : Chunk) (st : Nat → Nat → Nat) : List Nat :=
  let (out, next) := mixChunk n p.dk p.dv x st
  out.flatten ++ (upFrom 0 p.dk).flatMap fun c => (upFrom 0 p.dv).map (next c)

/-- The state that a chunk left. -/
def MixPlan.stateAt (p : MixPlan) (w : Work) (i h q c m : Nat) : Nat := w.acc (p.unit i h q) (p.len i q * p.dv + c * p.dv + m)

/-- Descriptor indices of the tiles that hold rows r to r1 - 1 and columns c to c1 - 1 of product 0. -/
def Tensor.cover (t : Tensor) (r r1 c c1 : Nat) : List Nat :=
  (upFrom (r / 128) (ceilDiv r1 128 - r / 128)).flatMap fun i => (upFrom (c / 128) (ceilDiv c1 128 - c / 128)).map (t.index 0 i)

/-- LINMIX (08 R321, R337, R338). The block carries no SR seed and no SR stream: one free seed serves the command, and stream 0
(log 111). -/
def opLinmix (c : Cmd) (s : State) : Chk Fin := runWork s do
  let b := c.block
  let k ← vfOf c
  chk (blockLen c 64)
  let qr := u64 b 0
  let kr := u64 b 8
  let vr := u64 b 16
  let ar := u64 b 24
  let or_ := u64 b 32
  let t := u32 b 48
  let n := u16 b 52
  let heads := u8 b 54
  let fmt := u8 b 55
  let dk := u16 b 56
  let dv := u16 b 58
  let ctl := u32 b 60
  fld (refOk qr true) 0
  fld (refOk kr true) 8
  fld (refOk vr true) 16
  fld (refOk ar true) 24
  fld (refOk or_ true) 32
  fld (aligned64 (u64 b 40)) 40
  fld (1 ≤ t && t ≤ 4194304) 48
  fld (1 ≤ n && n ≤ 4096) 52
  fld (1 ≤ heads && heads ≤ 128) 54
  fld (isPlain fmt) 55
  fld (1 ≤ dk && dk ≤ 256) 56
  fld (1 ≤ dv && dv ≤ 256) 58
  fld (numctlValid ctl && (numctlOf ctl).src == 0 && !(numctlOf ctl).advance) 60
  let qt ← tensorAt c k qr 0
  let kt ← tensorAt c k kr 8
  let vt ← tensorAt c k vr 16
  let at_ ← tensorAt c k ar 24
  let ot ← tensorAt c k or_ 32
  let l ← readLens c k (u64 b 40) t n 40
  match (upFrom 0 n).find? fun i => (l.map (·.stream)).getD i 0 != 0 with
  | some i => failWith .badParam i
  | none => pure ()
  let sts ← l.mapM fun e => if e.aux = 0 then pure none else do
    let x ← tensorAt c k e.aux noField
    pure (some x)
  oneDomain ([qt, kt, vt, at_, ot] ++ sts.filterMap id)
  fld (shapeIs (some qt) t (heads * dk) 1 && shapeIs (some kt) t (heads * dk) 1 && shapeIs (some vt) t (heads * dv) 1 && shapeIs (some at_) t heads 1
    && shapeIs (some ot) t (heads * dv) 1 && ot.fmt == fmt) noField
  fld (linFormat qt.fmt && linFormat kt.fmt && linFormat vt.fmt && isPlain at_.fmt) noField
  fld (sts.all fun x => shapeIs x (heads * dk) dv 1 && (match x with
    | some x => x.fmt == 0
    | none => true)) noField
  fld (!([qr, kr, vr, ar].contains or_) && !(l.map (·.aux)).contains or_) noField
  let covered := coveredTiles ot l
  mayWrite ot covered
  for x in sts.filterMap id do
    mayWrite x (upFrom 0 x.count)
  reserve c k (sumSpace (slotSpace ot covered.length :: sts.filterMap fun x => x.map fun x => slotSpace x x.count))
  let s ← get
  let num := s.numOf k
  let seed ← taken freshDraw
  endPlan
  let p : MixPlan := { heads, dk, dv, entries := l.zip sts }
  if s.works.all fun w => w.order != c.order then
    let ms ← p.entries.filterMapM fun e => readIf c k e.2 e.1.aux num.trap fun x => upFrom 0 x.count
    modify fun s => s.setWork { s.workOf c k with data := ms.flatMap (·.tiles.toList) }
  let j := p.job ot covered
  let us := p.units
  let w := (← get).workOf c k
  -- a chunk goes on from the one before it
  let go := (← j.pieces c k).foldl (fun acc x => match us[x.tile.unit]? with
    | some (_, _, 0) => acc ++ [x]
    | some _ => if j.whole w (x.tile.unit - 1) || acc.any (fun r => r.tile.unit == x.tile.unit - 1) then acc ++ [x] else acc
    | none => acc) ([] : List Piece)
  let spans (x : Tensor) (per : Nat) : List Nat := (go.flatMap fun g => match us[g.tile.unit]? with
    | some (i, h, q) =>
      let r := (l.map (·.first)).getD i 0 + 128 * q
      x.cover r (r + p.len i q) (h * per) ((h + 1) * per)
    | none => []).eraseDups
  let qm ← readSome c k qr qt num.trap (spans qt dk)
  let km ← readSome c k kr kt num.trap (spans kt dk)
  let vm ← readSome c k vr vt num.trap (spans vt dv)
  let am ← readSome c k ar at_ num.trap (spans at_ 1)
  fld (go.all fun g => match us[g.tile.unit]? with
    | some (i, h, q) => (upFrom ((l.map (·.first)).getD i 0 + 128 * q) (p.len i q)).all fun r => fle 0 (am.f32 0 r h) && fle (am.f32 0 r h) one32
    | none => true) noField
  let stateMat (i : Nat) : Option Mat := (sts.getD i none).map fun x => { t := x, tiles := ((w.data.drop (p.stateBase i)).take x.count).toArray }
  let work := go.foldl (fun (w : Work) g => match us[g.tile.unit]? with
    | none => w
    | some (i, h, q) =>
      let r := (l.map (·.first)).getD i 0 + 128 * q
      let x : Chunk :=
        { q := fun i j => qm.val 0 (r + i) (h * dk + j), k := fun i j => km.val 0 (r + i) (h * dk + j)
          v := fun i j => vm.val 0 (r + i) (h * dv + j), a := fun i => am.f32 0 (r + i) h }
      let st (cc m : Nat) : Nat :=
        if q = 0 then (match stateMat i with
          | some y => y.f32 0 (h * dk + cc) m
          | none => 0)
        else p.stateAt w i h (q - 1) cc m
      { w with tiles := (w.tiles.filter fun x => x.unit != g.tile.unit) ++ [{ unit := g.tile.unit, steps := 1, vals := p.run (p.len i q) x st }] }) w
  j.bank c k (go.filterMap fun g => (work.tileOf g.tile.unit).map fun x => ({ g with anvil := none }, x))
  let outs ← j.ready c k
  let w := (← get).workOf c k
  let plan (fmt : Nat) (sr : Bool) : OutPlan :=
    { fmt, ctl := { (numctlOf ctl).ctl num with sr := sr && (numctlOf ctl).sr }, cfg := num, src := .given 0, t := 0
      slot := none, seed := seed % 2 ^ 64, stream := 0 }
  emitPlain c k or_ ot (plan fmt true) (outs.filter (· < ot.count)) fun _ r m => (coverOf l r).map fun i =>
    let row := r - (l.map (·.first)).getD i 0
    w.acc (p.unit i (m / dv) (row / 128)) (row % 128 * dv + m % dv)
  for i in upFrom 0 n do
    match sts.getD i none with
    | some x =>
      let tiles := (outs.filter (ot.count ≤ ·)).filterMap fun v => (p.stateTile (v - ot.count)).bind fun e => if e.1 = i then some e.2.2 else none
      emitPlain c k ((l.map (·.aux)).getD i 0) x (plan 0 false) tiles fun _ r m => some (p.stateAt w i (r / dk) (p.chunks i - 1) (r % dk) m)
    | none => pure ()
  stageCounts c k [(.linmixChunks, go.length)]
  freeBump k .steps (if go.isEmpty then 0 else 2 ^ 64)
  freeBump k .feedStallCycles (if go.isEmpty then 0 else 2 ^ 64)
  freeBump k .epilogueExposedCycles (if go.isEmpty then 0 else 2 ^ 64)
  j.close c k outs
  pure (.ok, 0)

/-! ### The meanings (08 Table 8.5) -/

def execAttend (c : Cmd) (s : State) : Out := .next (runCmd 0x0510 c s (opAttention false c s))
def execAttendMat (c : Cmd) (s : State) : Out := .next (runCmd 0x0511 c s (opAttention true c s))
def execLinmix (c : Cmd) (s : State) : Out := .next (runCmd 0x0512 c s (opLinmix c s))

end Sys2Proof.Machine
end

