-- ==== Sys2Proof/Machine/Power.lean ====
section
/-! DEFINITION. Power states, levels, bursts, Night and the power commands (15_power_states.md; 18 R637-R647). -/

namespace Sys2Proof.Machine

/-- State codes (15 Table 15.1). -/
def PowerState.code : PowerState → Nat
  | .dawn => 0
  | .noon => 1
  | .highNoon => 2
  | .afternoon => 3
  | .evening => 4
  | .duskServing => 5
  | .duskHolding => 6
  | .night => 7

/-- The state of a code. -/
def stateOf (code : Nat) : PowerState :=
  match code with
  | 0 => .dawn
  | 1 => .noon
  | 2 => .highNoon
  | 3 => .afternoon
  | 4 => .evening
  | 5 => .duskServing
  | 6 => .duskHolding
  | _ => .night

/-- State ceiling of a shedding level, as a code (15 Table 15.3); level 0 leaves Noon, and High Noon in a burst. -/
def ceiling (level : Nat) : Nat := if level = 0 then 1 else level + 2

/-- The state that the levels and the cap allow (15 R545). -/
def State.allowed (s : State) : PowerState :=
  let code := max (max (ceiling s.power.supply) (ceiling s.power.thermal)) s.power.cap
  if code = 1 ∧ s.power.burst.isSome then .highNoon else stateOf code

/-- The basic commands (15 Table 15.2). -/
def isBasic (op : Nat) : Bool :=
  op / 256 ≤ 2 || op / 256 == 0x0A || [0x0801, 0x0802, 0x0803, 0x0804, 0x0805, 0x0806, 0x0812].contains op

/-- A command that may run in Dusk, serving, by its header (15 R538, R539). -/
def State.duskHeader (s : State) (f : Fn) (ring op stream : Nat) : Bool :=
  isBasic op ||
    match f with
    | .pf => false
    | .vf k =>
      (s.comp k).prioRing == some ring && op / 256 != 7 && op / 256 != 0x0B
        && !([0x0601, 0x0611, 0x0612, 0x0613].contains op)
        && (stream == 0 || (s.comp k).pins.contains stream)

/-- Whether the power state runs a command, by its header (15 R538, R539). -/
def State.stateRuns (s : State) (f : Fn) (ring op stream : Nat) : Bool :=
  match s.power.state with
  | .duskServing => s.duskHeader f ring op stream
  | .duskHolding => isBasic op
  | .night => false
  | _ => true

/-- The power state runs an admitted command. -/
def State.admRuns (s : State) (a : Adm) : Bool := s.stateRuns a.cmd.fn a.cmd.ring a.op a.cmd.stream

/-- The kinds of command that are deferred in Afternoon, Evening and Dusk, serving (15 R535). -/
def isDeferrable (op : Nat) : Bool := [0x0720, 0x0721, 0x0722, 0x0723, 0x0724].contains op

/-- Deferral is in force (15 R535). -/
def State.deferring (s : State) : Bool :=
  decide (s.power.state = .afternoon ∨ s.power.state = .evening ∨ s.power.state = .duskServing)

/-- Deferrable commands are held: deferral is in force, or Dusk, holding, keeps what a lower cap held (09 R369; 15 R553). -/
def State.holdsDeferred (s : State) : Bool := s.deferring || decide (s.power.state = .duskHolding)

/-- Complete with SHED what the state does not run (15 R552, Table 15.4). -/
def State.shedNow (s : State) : State := s.endWhere (fun a => !s.admRuns a) .shed

/-- A change to or from this state raises a POWER_STATE notice (15 R546). -/
def noticed (p : PowerState) : Bool :=
  decide (p = .afternoon ∨ p = .evening ∨ p = .duskServing ∨ p = .duskHolding ∨ p = .dawn)

/-- A function has a ring enabled (15 R546). -/
def ringEnabled (x : FnState) : Bool := decide (x.rq.st = .enabled) || x.sq.any fun p => decide (p.2.st = .enabled)

/-- The POWER_STATE notice, kind 5 (15 R546). -/
def State.powerNotice (s : State) (cause : Nat) : State :=
  let n : Notice :=
    { kind := 5, stroke := s.stroke.number, lo := [BitVec.ofNat 8 s.power.state.code, BitVec.ofNat 8 cause, 0, 0], hi := padTo 6 [] }
  allFns.foldl (fun s f => if ringEnabled (s.fnOf f) then s.notice f n else s) s

/-- The power state changes (15 R546, STATE_SINCE of Table 15.9). -/
def State.setState (s : State) (p : PowerState) (cause : Nat) : State :=
  if p = s.power.state then s
  else
    let tell := noticed p || noticed s.power.state
    let s : State := { s with power := { s.power with state := p, since := s.stroke.number } }
    if tell then s.powerNotice cause else s

/-- Strokes a burst lasts: B = floor(50,000 us / P) (15 R547). -/
def burstLen (period : Nat) : Nat := 5000 / period

/-- Time of one stroke, ns: P, and 300 ns more while standalone or UNALIGNED (02 R61). -/
def State.strokeNs (s : State) : Nat := s.stroke.period * 10000 + if s.stroke.align = .aligned then 0 else 300

/-- A burst ends `part` ns into the stroke: its time counts as spent (15 R547, R548). -/
def State.closeBurst (s : State) (early : Bool) (part : Nat) : State :=
  match s.power.burst with
  | none => s
  | some b =>
    let spent := (s.stroke.number - b.start) * s.strokeNs + part
    { s with
      power :=
        { s.power with
          burst := none
          lastBurstEnd := some (s.stroke.number + if part = 0 then 0 else 1)
          bursts := (b.start, spent) :: s.power.bursts
          highNoonNs := sat64 s.power.highNoonNs part
          burstsEndedEarly := if early then sat64 s.power.burstsEndedEarly 1 else s.power.burstsEndedEarly } }

/-- The state follows the levels and the cap: Night is entered, or the state changes and, where `cut`, work it does not run
is shed; a fence keeps Dusk, holding (15 R545, R550; 17 R611). -/
def State.followLevels (s : State) (cause : Nat) (night : NightCause) (cut : Bool) : State :=
  if s.power.main ≠ .service then s
  else if s.allowed = .night then s.enterNight night
  else if s.dawn.fence.isSome then s
  else
    let s := s.setState s.allowed cause
    if cut then s.shedNow else { s with power := { s.power with shedDue := true } }

/-- Supply level of a reading in mV (15 Table 15.3). -/
def supplyLevel (mv : Int) : Nat :=
  if mv < 36000 then 5 else if mv < 38000 then 4 else if mv < 40000 then 3 else if mv < 42000 then 2
  else if mv < 44000 then 1 else 0

/-- Thermal level of a filtered junction temperature in 1/16 degree (15 Table 15.3). -/
def thermalLevel (t : Int) : Nat :=
  if t ≥ 2000 then 5 else if t ≥ 1840 then 3 else if t ≥ 1680 then 2 else if t ≥ 1600 then 1 else 0

/-- The level of a source. -/
def State.level (s : State) : Source → Nat
  | .supply => s.power.supply
  | .thermal => s.power.thermal

/-- Set the level of a source. -/
def State.setLevel (s : State) (src : Source) (l : Nat) : State :=
  match src with
  | .supply => { s with power := { s.power with supply := l } }
  | .thermal => { s with power := { s.power with thermal := l } }

/-- Source numbers of the level events (16 Table 16.7). -/
def srcCode : Source → Nat
  | .supply => 0
  | .thermal => 1

/-- CAUSE of the POWER_STATE notice (15 R546). -/
def srcCause : Source → Nat
  | .supply => 1
  | .thermal => 2

/-- NIGHT_ENTRY cause of a level 5. -/
def srcNight : Source → NightCause
  | .supply => .supply
  | .thermal => .thermal

/-- LEVEL_STEP, when device trace bit 0 is set (16 Table 16.7). -/
def State.traceLevel (s : State) (src : Source) (l : Nat) : State :=
  if bitOf s.watch.budgets.traceMask 0 then s.raise 0x0180 .trace 0x40 (srcCode src) l else s

/-- A time within a stroke that no rule gives (log 6): 0 at a boundary. -/
def State.partNs (s : State) : Nat × State :=
  if s.stroke.phase = .boundary then (0, s) else ((s.draw).1 % s.strokeNs, (s.draw).2)

/-- A level rises `part` ns into the stroke (15 R542, R548, R550): LEVEL_RISE is raised, a burst ends early, the state drops. -/
def State.raiseLevel (s : State) (src : Source) (l : Nat) (cut : Bool) (night : NightCause) (part : Nat) : State :=
  if l ≤ s.level src then s
  else
    let s := s.setLevel src l
    let s := if l ≤ 2 then s.raise 0x0101 .warn 0x40 (srcCode src) l else if l ≤ 4 then s.raise 0x0101 .error 0x40 (srcCode src) l else s
    let s := s.traceLevel src l
    (s.closeBurst true part).followLevels (srcCause src) night cut

/-- Floors of the asserted SHED rules for a source (16 Table 16.5, R573). -/
def ruleFloor (w : WatchSt) (src : Source) : Nat :=
  let action := (srcCode src) + 1
  (w.ruleSt.filterMap fun p => match w.table.rules[p.1]? with
    | some r => if p.2.asserted && r.action == action then some r.arg else none
    | none => none).foldl max 0

/-- More than 8 of one compute die's junction channels are FAULTED (16 R568). -/
def dieBlind (w : WatchSt) : Bool :=
  [0, 16, 32, 48].any fun d => decide (8 < ((upFrom d 16).filter fun i => decide ((w.chan i).st = ChanSt.faulted)).length)

/-- The lowest level that rules and faulted channels allow a source (16 R568, R572). -/
def State.floor (s : State) (src : Source) : Nat :=
  match src with
  | .supply => ruleFloor s.watch .supply
  | .thermal => max (ruleFloor s.watch .thermal) (if dieBlind s.watch then 3 else 0)

/-- Recovery of row L held for its time (15 Table 15.3, R544). Thermal rows without a condition recover at once (log 21). -/
def recovered (src : Source) (l : Nat) (reading : Int) (heldUs : Nat) : Bool :=
  match src, l with
  | .supply, 1 => reading ≥ 45000 && heldUs ≥ 100000
  | .supply, 2 => reading ≥ 43000 && heldUs ≥ 100000
  | .supply, 3 => reading ≥ 41000 && heldUs ≥ 100000
  | .supply, 4 => reading ≥ 39000 && heldUs ≥ 100000
  | .thermal, 1 => reading ≤ 1520 && heldUs ≥ 1000000
  | .thermal, 2 => reading ≤ 1600 && heldUs ≥ 1000000
  | .thermal, 3 => reading ≤ 1760 && heldUs ≥ 1000000
  | .thermal, 4 => true
  | _, _ => false

/-- LEVEL_RISE (15 R542, R550): a crossing at or after offset P - 10 us sheds work from the next stroke. -/
def opLevelRise (src : Source) (reading : Int) (offsetNs : Nat) (s : State) : State :=
  if s.power.main ≠ .service then s
  else
    let l := match src with
      | .supply => supplyLevel reading
      | .thermal => thermalLevel reading
    s.raiseLevel src l (decide (offsetNs + 10000 < s.stroke.period * 10000)) (srcNight src) (min offsetNs s.strokeNs)

/-- LEVEL_FALL (15 R544): one step, at a stroke boundary, once row L's recovery has held. -/
def opLevelFall (src : Source) (reading : Int) (heldUs : Nat) (s : State) : State :=
  let l := s.level src
  if s.power.main ≠ .service ∨ s.stroke.phase ≠ .boundary then s
  else if recovered src l reading heldUs && decide (s.floor src < l) then
    ((s.setLevel src (l - 1)).traceLevel src (l - 1)).followLevels (srcCause src) (srcNight src) true
  else s

/-- Filtered value of a channel under the thermal filter, in its unit. -/
def Chan.therm (c : Chan) : Int := c.yTherm / 2 ^ 16

/-- Highest thermal-filtered junction temperature of the VALID junction channels (16 R565, R569). -/
def tjMax (w : WatchSt) : Option Int :=
  (((upFrom 0 72) ++ [80]).filterMap fun i => if (w.chan i).st = ChanSt.valid then some (w.chan i).therm else none).max?

/-- High Noon time in the 1 s that ends at a boundary, ns, with strokes of `l` ns (15 R547). -/
def burstTime (bursts : List (Nat × Nat)) (l hi : Nat) : Nat :=
  (bursts.map fun b => min (b.1 * l + b.2) hi - max (b.1 * l) (hi - 1000000000)).foldl (· + ·) 0

/-- BURST_START (15 R547). -/
def opBurstStart (s : State) : State :=
  let n := s.stroke.number
  let p := s.stroke.period
  let b := burstLen p
  let rested : Bool := match s.power.lastBurstEnd with
    | none => true
    | some e => decide (e + 4 * b ≤ n)
  let spent := burstTime s.power.bursts s.strokeNs (n * s.strokeNs)
  let cool : Bool := match tjMax s.watch with
    | some t => decide (t < 1600)
    | none => false
  if s.power.main = .service ∧ s.stroke.phase = .boundary ∧ s.stroke.burst ∧ s.power.burst.isNone ∧ s.power.state = .noon
      ∧ s.power.supply = 0 ∧ s.power.thermal = 0 ∧ (s.watch.chan 84).yRule / 2 ^ 16 ≥ 44000 ∧ cool ∧ rested
      ∧ spent + b * p * 10000 ≤ 200000000 then
    ({ s with power := { s.power with burst := some { start := n, length := b } } } : State).setState .highNoon 0
  else s

/-- BURST_END (15 R547): after B whole strokes, at a boundary. -/
def opBurstEnd (s : State) : State :=
  match s.power.burst with
  | none => s
  | some b =>
    if s.stroke.phase = .boundary ∧ b.start + b.length ≤ s.stroke.number then (s.closeBurst false 0).followLevels 0 .cap true else s

/-- THERMAL_TRIP (15 R543, 18 R644): a junction at or above 130 degrees latches the trip and enters Night. -/
def opThermalTrip (ch : Nat) (value : Int) (s : State) : State :=
  if value ≥ 2080 ∧ (ch < 72 ∨ ch = 80) ∧ s.power.main ≠ .unpowered then
    let s := s.raise 0x0081 .alarm 0x40 ch (twos 64 value)
    ({ s with power := { s.power with tripLatch := true, tripInReset := !s.power.resetN } } : State).enterNight .trip
  else s

/-- Whether the exit conditions of Night hold for its cause (15 R558): a held P48_IN, a cool junction, a released
trip; a Night of tamper or of a rule ends by RESET_N, as the cap's does (log 23). -/
def exitHolds (s : State) (p48HeldMs coolHeldMs : Nat) (p48Mv : Int) : Bool :=
  match s.power.nightCause with
  | .supply => decide (1000 ≤ p48HeldMs ∧ 0 < coolHeldMs)
  | .thermal | .trip => decide (1000 ≤ coolHeldMs ∧ p48Mv ≥ 44000) && !s.power.tripLatch
  | .cap | .tamper | .rule => false
  | .restart | .reset | .powerOn => decide (1000 ≤ p48HeldMs)

/-- NIGHT_EXIT (15 R558): the device is ready for Dawn; DAWN_START follows. -/
def opNightExit (p48HeldMs coolHeldMs : Nat) (p48Mv : Int) (s : State) : State :=
  if s.power.main = .night ∧ exitHolds s p48HeldMs coolHeldMs p48Mv then
    { s with power := { s.power with nightCause := .restart } }
  else s

/-- INPUT_UNDERVOLTAGE (18 R639, 15 R556): below 30 V the switch opens and Hearth is not cleared. -/
def opInputUndervoltage (mv : Int) (s : State) : State :=
  if mv < 30000 ∧ s.power.inputSwitch then
    let s := if s.power.main = .service then
        (s.raise 0x0085 .alarm 0x40 0 0).mainOff .night .supply false
      else s
    { s with power := { s.power with inputSwitch := false, hearthCleared := false } }
  else s

/-- REFCLK_LOSS (18 R647). -/
def opRefclkLoss (s : State) : State :=
  if s.power.main = .service then { s with power := { s.power with holdover := true, refclkBack := false } } else s

/-- REFCLK_RESTORE (18 R647): the clocks return at the next stroke boundary. -/
def opRefclkRestore (s : State) : State :=
  if s.power.holdover then { s with power := { s.power with refclkBack := true } } else s

/-- Release of the thermal trip latch at the rising edge of RESET_N (18 R644): not where VSTBY_3V3 was away, or a trip came,
during the assertion. -/
def opResetRelease (lowMs : Nat) (s : State) : State :=
  let cool := fun i => decide ((s.watch.chan i).raw ≤ 1520)
  let ok := decide (10 ≤ lowMs) && !s.power.tripInReset && cool 80 && cool 83
  if s.power.resetN then s
  else if s.power.main = .unpowered then { s with power := { s.power with resetN := true, tripInReset := false } }
  else
    { s with
      power :=
        { s.power with
          resetN := true
          tripLatch := s.power.tripLatch && !ok
          tripInReset := false } }

/-- A recognised assertion of RESET_N (18 R643): it enters Night, and ends a cap's Night or FAILED (15 R558, 17 R604). -/
def State.assertReset (s : State) : State :=
  let entering := decide (s.power.main = .service)
  let s := s.enterNight .reset
  let was := s.power
  let power := { was with resetN := false }
  if entering then { s with power } else
  match was.main with
  | .failed => { s with power := { power with main := .night, nightCause := .reset } }
  | .night =>
    match was.nightCause with
    | .cap => { s with power := { power with nightCause := .reset, cap := 1 } }
    | .tamper | .rule => { s with power := { power with nightCause := .reset } }
    | _ => { s with power }
  | _ => { s with power }

/-- RESET_ASSERT (18 R643): recognised from 10 us, ignored below 1 us; whether a pulse between the two is recognised is a free
value (log 22). Without VSTBY_3V3 only the level counts. -/
def opResetAssert (lowUs : Nat) (s : State) : State :=
  if lowUs = 0 ∨ !s.power.resetN then s
  else if s.power.main = .unpowered then { s with power := { s.power with resetN := decide (lowUs < 10) } }
  else if lowUs < 10 then
    let (v, s) := s.draw
    if v % 2 = 0 then s else s.assertReset
  else s.assertReset

/-! ### The commands of class 0x0A for power (15 R560-R564). -/

/-- POWER.SET (15 R545, R561). -/
def opPowerSet (c : Cmd) (s : State) : Chk Fin := do
  let b := c.block
  blockLen c 16
  let cap := u8 b 0
  let limit := u16 b 2
  field (cap == 1 || (3 ≤ cap && cap ≤ 7)) 0
  field (u8 b 1 == 0) 1
  field (16 ≤ limit) 2
  field (u32 b 4 == (if cap == 7 then 0x4E494748 else 0)) 4
  field (zeroAt b 8 8) 8
  doneWith (s.commit c (.powerSet cap limit))

/-- A POWER.SET settles: it takes effect at the next boundary (15 R561). -/
def State.commitPower (s : State) (cap limit : Nat) : State := { s with power := { s.power with setPending := some (cap, limit) } }

/-- A channel's reporting- or rule-filtered value (16 R569). -/
def Chan.value (c : Chan) (i : Nat) : Int := (if 100 ≤ i ∧ i ≤ 115 then c.yRep else c.yRule) / 2 ^ 16

/-- POWER.QUERY (15 R563, Table 15.9). -/
def opPowerQuery (c : Cmd) (s : State) : Chk Fin := do
  blockLen c 8
  let a := u64 c.block 0
  field (aligned64 a) 0
  let p := s.power
  match c.fn with
  | .pf =>
    let (part, s) := if p.burst.isSome then s.partNs else (0, s)
    doneWith (s.record c.fn a
      (layout 64 [(0, 1, p.state.code), (1, 1, p.supply), (2, 1, p.thermal), (3, 1, p.cap), (4, 1, 0xFF), (5, 1, 0), (6, 2, p.deferLimit),
        (8, 4, twos 32 ((s.watch.chan 84).value 84)), (12, 4, twos 32 ((s.watch.chan 100).value 100)),
        (16, 2, twos 16 ((tjMax s.watch).getD 0)), (24, 8, p.since), (32, 8, sat64 p.highNoonNs part), (40, 8, p.burstsEndedEarly),
        (48, 8, p.shed), (56, 8, p.deferred)]))
  | .vf k =>
    let x := s.comp k
    doneWith (s.record c.fn a
      (layout 64 [(0, 1, p.state.code), (3, 1, p.cap), (4, 1, x.prioRing.getD 0xFF), (5, 1, x.pins.length), (6, 2, p.deferLimit),
        (24, 8, p.since), (48, 8, ctrGet x.ctrs .shedCommands), (56, 8, ctrGet x.ctrs .deferredCommands)]))

/-- Streams pinned after a list of POWER.PINs (ACTION, RING, STREAM) (15 R562). -/
def pinsBy (l : List (Nat × Nat × Nat)) (pins : List Nat) : List Nat :=
  l.foldl (fun l p => if p.1 = 0 then l ++ [p.2.2] else if p.1 = 1 then l.filter (· ≠ p.2.2) else l) pins

/-- POWER.PINs of a compartment that settle in this stroke. -/
def State.pinsDue (s : State) (k : Nat) : List (Nat × Nat × Nat) :=
  s.commits.filterMap fun c => match c.what with
    | .powerPin j action ring stream => if j = k then some (action, ring, stream) else none
    | _ => none

/-- The streams pinned once every POWER.PIN before this one has taken effect (15 R562). -/
def State.pinsAfter (s : State) (k : Nat) : List Nat := pinsBy ((s.comp k).pinsPending ++ s.pinsDue k) (s.comp k).pins

/-- POWER.PIN (15 R561, R562). -/
def opPowerPin (c : Cmd) (s : State) : Chk Fin := do
  let b := c.block
  blockLen c 16
  let action := u8 b 0
  let ring := u8 b 1
  let stream := u32 b 4
  field (action ≤ 2) 0
  field (if action == 2 then ring ≤ 3 || ring == 0xFF else ring == 0) 1
  field (zeroAt b 2 2) 2
  field (action != 2 || stream == 0) 4
  field (zeroAt b 8 8) 8
  match c.fn with
  | .pf => .error ⟨.notPermitted, 0⟩
  | .vf k => do
    need (action == 2 || (s.streamOf k stream c).isSome) .staleGeneration
    let pins := s.pinsAfter k
    if action == 0 && pins.contains stream then doneWith s .okNote
    else if action == 1 && !pins.contains stream then doneWith s .okNote
    else do
      need (action != 0 || pins.length < 16) .noResource
      doneWith (s.commit c (.powerPin k action ring stream))

/-- A POWER.PIN settles: it takes effect at the next boundary (15 R562). -/
def State.commitPin (s : State) (k action ring stream : Nat) : State :=
  s.modComp k fun x => { x with pinsPending := x.pinsPending ++ [(action, ring, stream)] }

/-- Every POWER.PIN takes effect at the boundary (15 R562). -/
def applyPins (x : Comp) : Comp :=
  let ring := x.pinsPending.foldl (fun r p => if p.1 = 2 then (if p.2.1 = 0xFF then none else some p.2.1) else r) x.prioRing
  { x with pins := pinsBy x.pinsPending x.pins, prioRing := ring, pinsPending := [] }

/-- A lower cap takes effect in DRAIN mode: what the new state does not run ends with SHED at the limit, deferred kinds not yet
planned are held, and what a higher cap runs again drains no more (15 R553). -/
def State.drainForCap (s : State) : State :=
  { s with queue := s.queue.map fun a =>
      if s.admRuns a then (if a.drainShed then { a with drainEnd := none, drainShed := false } else a)
      else if a.drainEnd.isSome || (isDeferrable a.op && !a.planned) then a
      else { a with drainEnd := some (s.stroke.number + 3), drainShed := true } }

/-- POWER_CAP_APPLY at a boundary (15 R545, R548, R553). -/
def State.applyCap (s : State) : State :=
  match s.power.setPending with
  | none => s
  | some (cap, limit) =>
    let s : State := { s with power := { s.power with cap, deferLimit := limit, setPending := none } }
    let s := if cap ≠ 1 then s.closeBurst true 0 else s
    if s.allowed = .night then s.enterNight .cap
    else if s.dawn.fence.isSome then s
    else (s.setState s.allowed 0).drainForCap

/-! ### The meanings of this file. -/

def execPowerSet (c : Cmd) (s : State) : Out := .next (runCmd 0x0A01 c s (opPowerSet c s))
def execPowerQuery (c : Cmd) (s : State) : Out := .next (runCmd 0x0A02 c s (opPowerQuery c s))
def execPowerPin (c : Cmd) (s : State) : Out := .next (runCmd 0x0A03 c s (opPowerPin c s))
def execBurstStart (s : State) : Out := .next (opBurstStart s)
def execBurstEnd (s : State) : Out := .next (opBurstEnd s)
def execNightExit (p48HeldMs coolHeldMs : Nat) (p48Mv : Int) (s : State) : Out := .next (opNightExit p48HeldMs coolHeldMs p48Mv s)
def execRefclkLoss (s : State) : Out := .next (opRefclkLoss s)
def execRefclkRestore (s : State) : Out := .next (opRefclkRestore s)
def execResetRelease (lowMs : Nat) (s : State) : Out := .next (opResetRelease lowMs s)

end Sys2Proof.Machine
end

