-- ==== Sys2Proof/Machine/Nightwatch.lean ====
section
/-! DEFINITION. Nightwatch: sensors, filters, rules and their actions, fixed responses, and the telemetry and log commands
(16_nightwatch_and_logs.md). -/

namespace Sys2Proof.Machine

/-! ### EVENT rules and actions -/

/-- A Nightwatch quench, within the stroke (12 R458, R462). -/
def State.watchQuench (s : State) (k : Nat) : State :=
  if !s.exists_ k || decide ((s.comp k).st = .destroying) then s
  else if s.quenchHeld { comp := k, kind := .quench, cause := 2 } then s.addQuench k .quench 2
  else (s.quenchComp k true).quenchNotice k 2

/-- The EVENT rules that match an event, with their indices (16 R571). -/
def eventRules (t : RuleTable) (e : Ev) : List (Nat × Rule) :=
  (t.rules.zipIdx.filter fun p => p.1.source == 3 && p.1.first == e.code).map fun p => (p.2, p.1)

/-- Raise a rule's own event: RULE_ALARM for class 0, else RULE_FIRED with its class (16 R572). -/
def State.ruleEvent (s : State) (idx : Nat) (r : Rule) (scope v : Nat) : State :=
  let alert := bitOf r.flags 0
  match r.cls with
  | 0 => s.raiseAlert alert 0x0086 .alarm scope idx v
  | 1 => s.raiseAlert alert 0x0110 .error scope idx v
  | 2 => s.raiseAlert alert 0x0110 .warn scope idx v
  | _ => s.raiseAlert alert 0x0110 .trace scope idx v

/-- Count an assertion or firing (19 Table 19.12). -/
def State.countRule (s : State) (idx : Nat) : State :=
  let st := Tab.get {} s.watch.ruleSt idx
  { s with watch := { s.watch with ruleSt := Tab.set s.watch.ruleSt idx { st with assertions := min (st.assertions + 1) 0xFFFFFFFF } } }

/-- The combined action of the rules that act on one event or tick (16 Table 16.5, R573): NIGHT subsumes all, DEVICE_QUENCH
subsumes compartment quenches. -/
def State.ruleActions (s : State) (rs : List Rule) (scope : Nat) : State :=
  if rs.any fun r => r.action == 5 then s.enterNight .rule
  else if rs.any fun r => r.action == 4 then (if s.power.main = .service then s.deviceQuench else s)
  else if (rs.any fun r => r.action == 3) && decide (scope < 64) then s.watchQuench scope
  else s

/-- Offer raised events to the EVENT rules, oldest first; a chain of rules that fire on one another's events is cut after
the given number of events, and goes on at the next step that settles rules (log 24). -/
def fireRules : Nat → State → State
  | 0, s => s
  | n + 1, s =>
    match s.watch.raised with
    | [] => s
    | e :: rest =>
      let s : State := { s with watch := { s.watch with raised := rest } }
      let rs := eventRules s.watch.table e
      let s := rs.foldl (fun s p => (s.countRule p.1).ruleEvent p.1 p.2 e.scope 0) s
      fireRules n (s.ruleActions (rs.map (·.2)) e.scope)

/-- Settle the EVENT rules after a step that may raise events (16 R571). -/
def State.watchEvents (s : State) : State := fireRules (s.watch.raised.length + 64) s

/-! ### Conversion and filtering -/

/-- Insert into a rising list. -/
def insertInt (x : Int) : List Int → List Int
  | [] => [x]
  | y :: r => if x ≤ y then x :: y :: r else y :: insertInt x r

/-- The median of five samples (16 R567). -/
def median5 (l : List Int) : Int := (l.foldr insertInt []).getD 2 0

/-- One filter step: y + (((m << 16) - y) >> shift), the first time m << 16 (16 R567). -/
def filterStep (fresh : Bool) (y m : Int) (shift : Nat) : Int :=
  if fresh then m * 2 ^ 16 else y + (m * 2 ^ 16 - y) / 2 ^ shift

/-- One conversion of a channel (16 R567-R569): a bad sample is counted, a good one is filtered. A value outside the window, or
a bad sample of a FAULTED channel, counts for the tamper response; a failed conversion of another channel does not (16 R574). -/
def sampleChan (cfg : ChanCfg) (c : Chan) (x : Option Int) : Chan :=
  if c.st = .off then c
  else
    match x.filter fun v => decide (cfg.vmin ≤ v ∧ v ≤ cfg.vmax) with
    | none =>
      { c with
        badRun := c.badRun + 1
        tamperRun := if x.isSome ∨ c.st = .faulted then c.tamperRun + 1 else 0
        raw := x.getD c.raw }
    | some v =>
      let win := (v :: c.win).take 5
      let c := { c with win := win, badRun := 0, tamperRun := 0, raw := v }
      if win.length < 5 then { c with st := .starting }
      else
        let m := median5 win
        let fresh := decide (c.st ≠ .valid)
        let yRule := filterStep fresh c.yRule m cfg.shift
        { c with
          st := .valid
          yRule := yRule
          yTherm := filterStep fresh c.yTherm m 2
          yRep := filterStep fresh c.yRep m 10 }

/-- PEAK: the highest VALUE since Dawn (16 R595). -/
def peakChan (i : Nat) (c : Chan) : Chan :=
  if c.st = .valid then { c with peak := some (max (c.peak.getD (c.value i)) (c.value i)) } else c

/-- The VALID rule-filtered values of a rule's channels; ENABLE 0 takes a channel out (16 R570, R571). -/
def ruleInputs (w : WatchSt) (r : Rule) : List Int :=
  (upFrom r.first (r.last + 1 - r.first)).filterMap fun i =>
    if (w.chan i).st = ChanSt.valid && (Tab.get ({} : ChanCfg) w.table.chans i).enable then some ((w.chan i).yRule / 2 ^ 16) else none

/-- v of a rule: the maximum or minimum of its inputs (16 R571). -/
def ruleValue (w : WatchSt) (r : Rule) : Option Int :=
  if r.source = 1 then (ruleInputs w r).max? else (ruleInputs w r).min?

/-- A rule's condition (16 R571). -/
def ruleCond (w : WatchSt) (r : Rule) : Bool :=
  match ruleValue w r with
  | some v => if r.below then decide (v < r.threshold) else decide (v ≥ r.threshold)
  | none => bitOf r.flags 1 && (upFrom r.first (r.last + 1 - r.first)).any fun i => decide ((w.chan i).st = ChanSt.faulted)

/-- A rule's clear condition (16 R571). -/
def ruleClearCond (w : WatchSt) (r : Rule) : Bool :=
  match ruleValue w r with
  | some v => if r.below then decide (v ≥ r.clear) else decide (v < r.clear)
  | none => !ruleCond w r

/-- A channel rule. -/
def isChanRule (r : Rule) : Bool := r.source == 1 || r.source == 2

/-- Consecutive ticks of one channel rule toward its assertion, or toward its clearing while asserted (19 Table 19.12). -/
def tickRule (w : WatchSt) (st : RuleSt) (r : Rule) : RuleSt :=
  let c := if st.asserted then ruleClearCond w r else ruleCond w r
  { st with ticks := if c then min (st.ticks + 1) 65535 else 0 }

/-- NIGHTWATCH_TICK (16 R566-R571): every channel is converted and filtered, and every channel rule's ticks are counted. The
rows SENSOR_FAULT, RULE_ASSERT, RULE_CLEAR, TAMPER and LEVEL_RISE carry what the counts then call for (log 25). -/
def opTick (samples : List (Option Int)) (s : State) : State :=
  if s.power.main = .unpowered then s
  else
    let w := s.watch
    let chans := (upFrom 0 256).map fun i =>
      (i, peakChan i (sampleChan (Tab.get ({} : ChanCfg) w.table.chans i) (w.chan i) ((samples[i]?).getD none)))
    let w : WatchSt := { w with chans := chans, ticks := w.ticks + 1 }
    let ruleSt := w.table.rules.zipIdx.foldl
      (fun t p => if isChanRule p.1 then Tab.set t p.2 (tickRule w (Tab.get ({} : RuleSt) t p.2) p.1) else t) w.ruleSt
    { s with watch := { w with ruleSt := ruleSt } }

/-- SENSOR_FAULT (16 R568): 5 consecutive bad samples empty the window and fault the channel; more than 8 faulted junction
channels of one die hold the thermal level at 3. -/
def opSensorFault (ch : Nat) (s : State) : State :=
  let c := s.watch.chan ch
  if c.badRun < 5 ∨ c.st = .faulted ∨ c.st = .off then s
  else
    let s : State := { s with watch := { s.watch with chans := Tab.set s.watch.chans ch { c with st := .faulted, win := [], tamperRun := max c.tamperRun 1 } } }
    let s := s.raise 0x0100 .error 0x40 ch 0
    let s := s.watchEvents
    let (part, s) := s.partNs
    if s.power.main = .service ∧ dieBlind s.watch then s.raiseLevel .thermal 3 true .thermal part else s

/-- v as ARG1. -/
def argOf (v : Option Int) : Nat := twos 64 (v.getD 0)

/-- RULE_ASSERT (16 R571, R572): a channel rule whose HOLD_TICKS are complete asserts, raises its event and acts. -/
def opRuleAssert (idx : Nat) (s : State) : State :=
  match s.watch.table.rules[idx]? with
  | none => s
  | some r =>
    let st := Tab.get {} s.watch.ruleSt idx
    if !isChanRule r || st.asserted || decide (st.ticks < r.holdTicks) then s
    else
      let v := argOf (ruleValue s.watch r)
      let st : RuleSt := { ticks := 0, asserted := true, assertions := min (st.assertions + 1) 0xFFFFFFFF }
      let s : State := { s with watch := { s.watch with ruleSt := Tab.set s.watch.ruleSt idx st } }
      let s := (s.ruleEvent idx r 0x40 v).watchEvents
      if s.power.main ≠ .service then s
      else
        let (part, s) := s.partNs
        match r.action with
        | 1 => s.raiseLevel .supply r.arg true .rule part
        | 2 => s.raiseLevel .thermal r.arg true .rule part
        | _ => s.ruleActions [r] 0x40

/-- RULE_CLEAR (16 R571, R572). -/
def opRuleClear (idx : Nat) (s : State) : State :=
  match s.watch.table.rules[idx]? with
  | none => s
  | some r =>
    let st := Tab.get {} s.watch.ruleSt idx
    if !st.asserted || decide (st.ticks < r.clearTicks) then s
    else
      let st : RuleSt := { st with ticks := 0, asserted := false }
      let s : State := { s with watch := { s.watch with ruleSt := Tab.set s.watch.ruleSt idx st } }
      (s.raise 0x0111 .warn 0x40 idx (argOf (ruleValue s.watch r))).watchEvents

/-- TAMPER (16 R574): a tamper channel outside its window, or FAULTED, for 3 ticks; outside MANUFACTURE it enters Night. The next
3 ticks count anew (log 25). -/
def opTamper (ch : Nat) (s : State) : State :=
  let c := s.watch.chan ch
  if ch < 252 ∨ 255 < ch ∨ c.tamperRun < 3 ∨ s.power.main = .unpowered then s
  else
    let s : State := { s with watch := { s.watch with chans := Tab.set s.watch.chans ch { c with tamperRun := 0 } } }
    let s := (s.raise 0x0080 .alarm 0x40 ch (twos 64 c.raw)).watchEvents
    if s.dawn.lifecycle = 1 then s else s.enterNight .tamper

/-! ### Telemetry and log commands (16 R593-R596) -/

/-- STATE of a channel in TELEM.READ and SENSOR[ch] (16 R595). -/
def ChanSt.code : ChanSt → Nat
  | .valid => 0
  | .starting => 1
  | .faulted => 2
  | .off => 3

/-- The 16 bytes of one channel (16 R595); ENABLE 0 reads as OFF, whatever the channel (16 R570). -/
def telemBytes (w : WatchSt) (i : Nat) : List Byte :=
  let c := w.chan i
  let cfg := Tab.get ({} : ChanCfg) w.table.chans i
  let st := if cfg.enable then c.st.code else 3
  layout 16 [(0, 4, twos 32 (c.value i)), (4, 1, st), (5, 1, cfg.shift), (8, 4, twos 32 (c.peak.getD 0))]

/-- TELEM.READ (16 R594, R595). -/
def opTelemRead (c : Cmd) (s : State) : Chk Fin := do
  let b := c.block
  blockLen c 16
  let first := u16 b 0
  let count := u16 b 2
  field (first ≤ 255) 0
  field (1 ≤ count && first + count ≤ 256) 2
  field (zeroAt b 4 4) 4
  field (aligned64 (u64 b 8)) 8
  doneWith (s.record c.fn (u64 b 8) ((upFrom first count).flatMap (telemBytes s.watch)))

/-- LOG.CONFIG (16 R579, R594): takes effect at the next stroke boundary. -/
def opLogConfig (c : Cmd) (s : State) : Chk Fin := do
  let b := c.block
  blockLen c 16
  field (u8 b 0 ≤ 32) 0
  field (u8 b 1 ≤ 32) 1
  field (u8 b 2 ≤ 64) 2
  field (u8 b 3 ≤ 4) 3
  field (u8 b 4 ≤ 2) 4
  field (u8 b 5 ≤ 3) 5
  field (zeroAt b 6 10) 6
  let n : Budgets :=
    { error := u8 b 0, warn := u8 b 1, trace := u8 b 2, sbError := u8 b 3, sbWarn := u8 b 4, traceMask := u8 b 5 }
  doneWith (s.commit c (.logBudgets n))

/-- A LOG.CONFIG settles (16 R593). -/
def State.commitBudgets (s : State) (n : Budgets) : State := { s with watch := { s.watch with budgetsPending := some n } }

/-- SLOTS in force at the next boundary for a compartment (16 R587). -/
def Comp.slots (x : Comp) : Nat :=
  match x.tracePending with
  | some p => (p.map (·.slots)).getD 0
  | none => (x.trace.map (·.slots)).getD 0

/-- SLOTS of a compartment once the TRACE.CONFIGs of this stroke have settled. -/
def State.slotsAfter (s : State) (k : Nat) : Nat :=
  s.commits.foldl (fun n p => match p.what with
    | .traceSet j t => if j = k then (t.map (·.slots)).getD 0 else n
    | _ => n) (s.comp k).slots

/-- TRACE.CONFIG (16 R587, R594). -/
def opTraceConfig (c : Cmd) (s : State) : Chk Fin := do
  let b := c.block
  blockLen c 16
  let key := u16 b 0
  let slots := u8 b 2
  field (key == 0 || keyHandleKind key == 3) 0
  field (slots ≤ 16 && (slots == 0) == (key == 0)) 2
  field (u8 b 3 ≤ 31) 3
  field (zeroAt b 4 12) 4
  match c.fn with
  | .pf => .error ⟨.notPermitted, 0⟩
  | .vf k => do
    let others := ((s.comps.filter fun p => p.1 != k).map fun p => s.slotsAfter p.1).foldl (· + ·) 0
    if key == 0 then doneWith (s.commit c (.traceSet k none))
    else do
      need ((s.comp k).exportKeyLive key c.order) .keyAbsent
      need (others + slots ≤ 256) .noResource
      doneWith (s.commit c (.traceSet k (some { key, slots, mask := u8 b 3 })))

/-- A TRACE.CONFIG settles (16 R593). -/
def State.commitTrace (s : State) (k : Nat) (t : Option TraceCfg) : State := s.modComp k fun x => { x with tracePending := some t }

/-- FLAGS of a clear record (16 Table 16.6). -/
def alarmFlags (r : AlarmRec) : Nat := 8 * bitNum r.coalesced + 16 * bitNum r.merged + 32 * bitNum r.alert

/-- The ring record of a slot, 64 bytes (16 Table 16.6). -/
def alarmBytes (slot : Nat) (r : AlarmRec) : List Byte :=
  layout 64 [(0, 8, r.stroke), (8, 4, Config.offsetNs r.stroke r.code r.scope r.arg0), (12, 2, r.code), (14, 1, alarmFlags r), (15, 1, r.scope), (16, 4, r.rep), (24, 8, r.arg0),
    (32, 8, r.arg1), (40, 8, r.lastStroke), (48, 2, slot), (62, 1, bitNum r.acked + 2 * bitNum r.hostSent + 4 * bitNum r.sbSent)]

/-- ALARM.READ (16 R594): the selected slots back to back, DETAIL the number written. -/
def opAlarmRead (c : Cmd) (s : State) : Chk Fin := do
  let b := c.block
  blockLen c 24
  let first := u16 b 0
  let count := u16 b 2
  field (first ≤ 4095) 0
  field (1 ≤ count && first + count ≤ 4096) 2
  field (u8 b 4 ≤ 1) 4
  field (zeroAt b 5 3) 5
  field (aligned64 (u64 b 8)) 8
  field (zeroAt b 16 8) 16
  let sel := s.watch.alarms.filter fun p => first ≤ p.1 && p.1 < first + count && (u8 b 4 == 0 || !p.2.acked)
  doneWith (s.record c.fn (u64 b 8) (sel.flatMap fun p => alarmBytes p.1 p.2)) .ok sel.length

/-- The slots that an acknowledgement takes: held, not ACKED, LAST_STROKE not above ACK_STROKE (16 R586). -/
def ackable (first count stroke : Nat) (p : Nat × AlarmRec) : Bool :=
  first ≤ p.1 && p.1 < first + count && !p.2.acked && p.2.lastStroke ≤ stroke

/-- Acknowledge records; an ACKED overflow slot is emptied (16 R585, R586). -/
def WatchSt.ack (w : WatchSt) (first count stroke : Nat) : WatchSt :=
  { w with alarms := w.alarms.filterMap fun p =>
      if ackable first count stroke p then (if p.1 < 4032 then some (p.1, { p.2 with acked := true }) else none) else some p }

/-- Records that an acknowledgement takes. -/
def WatchSt.ackCount (w : WatchSt) (first count stroke : Nat) : Nat := (w.alarms.filter (ackable first count stroke)).length

/-- An ALARM.ACK settles: its DETAIL is the number of records that it acknowledges (16 R594). -/
def State.commitAck (s : State) (order first count stroke : Nat) : State :=
  let n := s.watch.ackCount first count stroke
  { s with
    watch := s.watch.ack first count stroke
    replies := s.replies.map fun r => if r.admitted && r.cmd.order == order then { r with detail := n } else r }

/-- ALARM.ACK (16 R586, R594). -/
def opAlarmAck (c : Cmd) (s : State) : Chk Fin := do
  let b := c.block
  blockLen c 16
  let first := u16 b 0
  let count := u16 b 2
  field (first ≤ 4095) 0
  field (1 ≤ count && first + count ≤ 4096) 2
  field (zeroAt b 4 4) 4
  doneWith (s.commit c (.alarmAck c.order first count (u64 b 8)))

/-- LOG.QUERY (16 R595, Table 16.12). -/
def opLogQuery (c : Cmd) (s : State) : Chk Fin := do
  blockLen c 8
  let a := u64 c.block 0
  field (aligned64 a) 0
  let w := s.watch
  match c.fn with
  | .pf =>
    let unacked := (w.alarms.filter fun p => !p.2.acked).length
    let asserted := (w.ruleSt.filter fun p => p.2.asserted).length
    doneWith (s.record c.fn a
      (layout 64 [(0, 8, w.recordsWritten), (8, 8, w.errorsDropped), (16, 8, w.warnsDropped), (24, 8, w.tracesDropped),
        (32, 8, w.sbDropped), (40, 4, unacked), (44, 2, asserted)]))
  | .vf k =>
    let x := s.comp k
    doneWith (s.record c.fn a
      (layout 64 [(48, 8, ctrGet x.ctrs .traceRecords), (56, 8, ctrGet x.ctrs .traceOverflow)]))

/-! ### The meanings of this file -/

def execTelemRead (c : Cmd) (s : State) : Out := .next (runCmd 0x0A10 c s (opTelemRead c s))
def execLogConfig (c : Cmd) (s : State) : Out := .next (runCmd 0x0A11 c s (opLogConfig c s))
def execTraceConfig (c : Cmd) (s : State) : Out := .next (runCmd 0x0A12 c s (opTraceConfig c s))
def execAlarmRead (c : Cmd) (s : State) : Out := .next (runCmd 0x0A13 c s (opAlarmRead c s))
def execAlarmAckCommand (c : Cmd) (s : State) : Out := .next (runCmd 0x0A14 c s (opAlarmAck c s))
def execLogQuery (c : Cmd) (s : State) : Out := .next (runCmd 0x0A15 c s (opLogQuery c s))
def execNightwatchTick (samples : List (Option Int)) (s : State) : Out := .next (opTick samples s)
def execSensorFault (ch : Nat) (s : State) : Out := .next (opSensorFault ch s).watchEvents
def execRuleAssert (idx : Nat) (s : State) : Out := .next (opRuleAssert idx s).watchEvents
def execRuleClear (idx : Nat) (s : State) : Out := .next (opRuleClear idx s)
def execTamper (ch : Nat) (s : State) : Out := .next (opTamper ch s).watchEvents
def execThermalTrip (ch : Nat) (value : Int) (s : State) : Out := .next (opThermalTrip ch value s).watchEvents
def execLevelRise (src : Source) (reading : Int) (offsetNs : Nat) (s : State) : Out :=
  .next (opLevelRise src reading offsetNs s).watchEvents
def execLevelFall (src : Source) (reading : Int) (heldUs : Nat) (s : State) : Out :=
  .next (opLevelFall src reading heldUs s).watchEvents
def execInputUndervoltage (mv : Int) (s : State) : Out := .next (opInputUndervoltage mv s).watchEvents
def execResetAssert (lowUs : Nat) (s : State) : Out := .next (opResetAssert lowUs s).watchEvents

end Sys2Proof.Machine
end

