-- ==== Sys2Proof/Machine/Crucible.lean ====
section
/-! DEFINITION. The commands of class 0x02 over sessions, claims and keys, LIFECYCLE.ADVANCE, and Crucible's entropy source
(11_crucible_and_keys.md R409-R446). -/

namespace Sys2Proof.Machine

/-! ### Entropy -/

/-- ENTROPY_FAULT (R409): an ALARM is raised and no random value is served until the next Dawn. -/
def opEntropyFault (test : Nat) (s : State) : State :=
  if s.power.main = .unpowered then s
  else ({ s with dawn := { s.dawn with entropyOk := false } } : State).raise 0x0083 .alarm 0x40 test 0

/-- DRBG_RESEED (R409): the CTR_DRBG is reseeded after 2^20 requests. -/
def opDrbgReseed (s : State) : State :=
  if s.power.main = .unpowered ∨ !s.dawn.entropyOk then s
  else { s with dawn := { s.dawn with drbgRequests := 0, reseeds := s.dawn.reseeds + 1 } }

/-! ### Identity (R410) -/

/-- Bytes derived from the unique device secret for an info string, with 48 zero bytes as salt. -/
def State.identity (s : State) (info : String) (n : Nat) : List Byte := hkdf384 (List.replicate 48 0) s.dawn.uds (ascii info) n

/-- The ECDSA P-384 identity key: a big-endian integer modulo n - 1, plus 1. -/
def State.ecdsaKey (s : State) : Nat := beNat (s.identity "KDW-D4 id ecdsa v1" 48) % (p384N - 1) + 1

/-- The seed of the ML-DSA-87 identity key pair. -/
def State.mldsaSeed (s : State) : List Byte := s.identity "KDW-D4 id mldsa v1" 32

/-- The device's ECDSA P-384 signature of a message (R410, R412). -/
def State.ecdsaSign (s : State) (m : List Byte) : List Byte := Config.ecdsaSign s.ecdsaKey m

/-- The device's ML-DSA-87 signature of a message under a context string (R410, R412, R421). -/
def State.mldsaSign (s : State) (context m : List Byte) : List Byte := Config.mldsaSign s.mldsaSeed context m

/-! ### Key slots (R407, R408) -/

/-- The keys that the unwrap unit of each compute die holds in its slots: those of the compartment whose run is under way, or
of the borrower of its time, and the base keys of the slots it is attached to; every switch interval reloads them (R408; 02 R43, R55). -/
def State.keySlots (s : State) : List (List Byte) :=
  match s.stroke.current.map fun k => s.stroke.borrower.getD k with
  | none => []
  | some k =>
    let x := s.comp k
    let own := (x.compKey.toList ++ x.keys.map (·.2)).flatMap fun e => e.gens.map (·.key)
    let base := (x.attached.filterMap fun p => s.keyEntry .pf (Tab.get ({} : BaseSlot) s.bases p.1).key).flatMap fun e => e.gens.map (·.key)
    own ++ x.hearthKey.toList ++ base

/-- A key as it travels to a die: wrapped under the die's transport key (R407). -/
def State.wrapped (s : State) (die : Nat) (key : List Byte) : List Byte := kwWrap (s.transport.getD die []) key

/-! ### CERT.READ, SESSION.QUERY, TENANT.CLAIM -/

/-- CERT.READ (R442). -/
def opCertRead (c : Cmd) (s : State) : Chk Fin := do
  let b := c.block
  blockLen c 16
  let len := u32 b 4
  field (u8 b 0 ≤ 1) 0
  field (zeroAt b 1 3) 1
  field (64 ≤ len && len ≤ 65536 && len % 64 == 0) 4
  field (aligned64 (u64 b 8)) 8
  let chain := Config.certChain (u8 b 0)
  if len < chain.length then doneWith s .okNote chain.length
  else doneWith (s.record c.fn (u64 b 8) chain) .ok chain.length

/-- The compartment of a function. -/
def State.compOf (s : State) : Fn → Comp
  | .pf => {}
  | .vf k => s.comp k

/-- TENANT_KEY_DIGEST of a function's compartment; zero where there is none (Table 11.13). -/
def tenantDigest (x : Comp) : List Byte := padTo 48 ((x.claim.map (·.digest)).getD [])

/-- SESSION.QUERY (R444). -/
def opSessionQuery (c : Cmd) (s : State) : Chk Fin := do
  let b := c.block
  blockLen c 16
  field (zeroAt b 4 4) 4
  field (aligned64 (u64 b 8)) 8
  let x := s.compOf c.fn
  let tail := tenantDigest x ++ [BitVec.ofNat 8 (bitNum x.claimed)]
  match (s.fnOf c.fn).sessions.find? fun y => y.id == u32 b 0 with
  | none => doneWith (s.record c.fn (u64 b 8) (padTo 128 (layout 64 [(0, 4, u32 b 0)] ++ tail))) .okNote
  | some y =>
    let head := layout 16 [(0, 4, y.id), (4, 1, if y.established then 2 else 1),
      (5, 1, bitNum y.mutualAuth + 2 * bitNum y.tenantAuth), (8, 8, y.blobSeq)]
    doneWith (s.record c.fn (u64 b 8) (padTo 128 (head ++ padTo 48 y.th2 ++ tail)))

/-- A claim of the compartment waits for settle: a second one in the stroke finds it claimed (R417; log 75). -/
def State.claimDue (s : State) (k : Nat) : Bool := s.commits.any fun p => match p.what with
  | .claim j _ => j == k
  | _ => false

/-- TENANT.CLAIM (R417, R442). -/
def opTenantClaim (c : Cmd) (s : State) : Chk Fin := do
  let b := c.block
  blockLen c 2752
  field (s.session c.fn (u32 b 0)).isSome 0
  field (zeroAt b 4 4) 4
  field (zeroAt b 105 7) 105
  field (zeroAt b 2704 48) 2704
  let ecdsa := (b.drop 8).take 97
  let mldsa := (b.drop 112).take 2592
  field (p384Point ecdsa) 8
  match c.fn with
  | .pf => .error ⟨.notPermitted, 0⟩
  | .vf k => do
    need (!(s.comp k).claimed && !s.claimDue k) .notPermitted
    doneWith (s.commit c (.claim k { ecdsa, mldsa, digest := sha384 (ecdsa ++ mldsa) }))

/-! ### KEY.DELIVER -/

/-- K_wrap of a session (R426). -/
def wrapKey (y : Session) : List Byte :=
  hkdfExpand (Config.spdmSecret (ascii "exp master") y.secret y.th2) (ascii "KDW-D4 key wrap v1" ++ leBytes y.id 4) 32

/-- The 32-byte key of a blob, where its tag verifies (R426, R427 check 3). -/
def openBlob (y : Session) (blob : List Byte) : Option (List Byte) :=
  gcmOpen (wrapKey y) (beBytes 0x4B570000 4 ++ beBytes (u64 blob 24) 8) (blob.take 64) ((blob.drop 64).take 32) ((blob.drop 96).take 16)

/-- Number of indices of a function's key table (R424). -/
def State.keyCapacity (s : State) : Fn → Nat
  | .pf => 4
  | .vf k => (s.comp k).keyQuota

/-- Indices that deliveries of this stroke take at settle. -/
def State.keysDelivering (s : State) (f : Fn) : List Nat :=
  s.commits.filterMap fun p => match p.what with
    | .keyDeliver i _ => if p.fn = f then some i else none
    | _ => none

/-- The lowest free index of a function's key table (R425). -/
def State.freeKeyIndex (s : State) (f : Fn) : Option Nat :=
  (upFrom 0 (s.keyCapacity f)).find? fun i => (Tab.find? (s.keyTable f) i).isNone && !(s.keysDelivering f).contains i

/-- Replace a session of a function. -/
def State.setSession (s : State) (f : Fn) (y : Session) : State :=
  s.modFn f fun x => { x with sessions := x.sessions.map fun z => if z.id = y.id then y else z }

/-- KIND and COMPARTMENT of a blob match the issuing function (R427 check 5). -/
def blobMatches (f : Fn) (kind comp : Nat) : Bool :=
  match f with
  | .pf => kind == 1 && comp == 0xFF
  | .vf k => (kind == 2 || kind == 3) && comp == k

/-- SEALER_BASE of a blob (Table 11.8). -/
def sealerValid (kind base : Nat) : Bool :=
  if kind == 1 then base == 0 else base % 16 == 0 && base != 0 && base != 0xFFFFFFF0

/-- KEY.DELIVER (R426, R427): the checks of R427 in their order. -/
def opKeyDeliver (c : Cmd) (s : State) : Chk Fin := do
  let b := c.block
  blockLen c 128
  field (aligned64 (u64 b 0)) 0
  field (zeroAt b 8 8) 8
  let blob := b.drop 16
  let kind := u8 blob 1
  need (s.dawn.lifecycle == 2 || s.dawn.lifecycle == 3) .notPermitted
  match s.session c.fn (u32 blob 4) with
  | none => .error ⟨.authFail, 0⟩
  | some y => do
    need (!(kind == 2 || kind == 3) || y.tenantAuth) .authFail
    match openBlob y blob with
    | none => .error ⟨.authFail, 0⟩
    | some key => do
      need (y.blobSeq < u64 blob 24) .authFail
      need (blobMatches c.fn kind (u8 blob 2)) .notPermitted
      field (u8 blob 0 == 1) 16
      field (u8 blob 3 == 0) 19
      field (sealerValid kind (u32 blob 8)) 24
      field (zeroAt blob 12 4) 28
      field (zeroAt blob 32 32) 48
      match s.freeKeyIndex c.fn with
      | none => .error ⟨.noResource, 0⟩
      | some i =>
        let e : KeyEntry := { kind, keyId := u64 blob 16, sealerBase := u32 blob 8, gens := [{ gen := 0, key }] }
        let s := (s.setSession c.fn { y with blobSeq := u64 blob 24 }).commit c (.keyDeliver i e)
        doneWith (s.record c.fn (u64 b 0) (layout 64 [(0, 2, keyHandle kind i), (4, 4, e.sealerBase), (8, 8, e.keyId)]))

/-! ### KEY.QUERY, KEY.POLICY, KEY.ROTATE -/

/-- The kept entries of a KEY.QUERY record (Table 11.13). -/
def genBytes (e : KeyEntry) : List Byte :=
  e.gens.flatMap fun g => layout 16 [(0, 4, g.gen), (4, 4, e.sealerId g.gen), (8, 8, g.live)]

/-- KEY.QUERY (R444). -/
def opKeyQuery (c : Cmd) (s : State) : Chk Fin := do
  let b := c.block
  blockLen c 16
  field (zeroAt b 2 6) 2
  field (aligned64 (u64 b 8)) 8
  let h := u16 b 0
  let e ← s.checkKey c h 0
  let n := e.newest
  let head := layout 64 [(0, 2, h), (2, 1, e.kind), (3, 1, bitNum e.rotate + 2 * bitNum e.destroying.isSome), (4, 4, e.sealerBase),
    (8, 8, e.keyId), (16, 4, n.gen), (20, 1, e.gens.length), (24, 8, n.count), (32, 8, sealLimit), (40, 8, e.rotations),
    (48, 8, e.exhaustions)]
  doneWith (s.record c.fn (u64 b 8) (padTo 128 (head ++ genBytes e)))

/-- KEY.POLICY (R432, R443). -/
def opKeyPolicy (c : Cmd) (s : State) : Chk Fin := do
  let b := c.block
  blockLen c 8
  let h := u16 b 0
  field (keyHandleKind h == 2) 0
  field (u8 b 2 ≤ 1) 2
  field (zeroAt b 3 5) 3
  let _ ← s.checkKey c h 0
  match c.fn with
  | .pf => .error ⟨.notPermitted, 0⟩
  | .vf k => doneWith (s.commit c (.keyPolicy k (keyHandleIndex h) (u8 b 2 == 1)))

/-- KEY.ROTATE (R443, R409). -/
def opKeyRotate (c : Cmd) (s : State) : Chk Fin := do
  let b := c.block
  blockLen c 8
  let h := u16 b 0
  field (h == 0 || keyHandleKind h == 2) 0
  field (zeroAt b 2 6) 2
  let e ← s.checkKey c h 0
  need (e.kind != 0 || s.dawn.entropyOk) .entropyFault
  need (!e.full) .keyExhausted
  match c.fn with
  | .pf => .error ⟨.notPermitted, 0⟩
  | .vf k => doneWith (s.commit c (.keyRotate k h))

/-! ### LIFECYCLE.ADVANCE -/

/-- What is armed once the LIFECYCLE.ADVANCEs before this one have settled. -/
def State.armedSeen (s : State) : Option (Nat × Nat × Nat) :=
  s.commits.foldl (fun x p => match p.what with
    | .armed y => y
    | _ => x) s.dawn.armed

/-- Nothing is armed any more. -/
def State.disarm (s : State) : State :=
  { s with
    dawn := { s.dawn with armed := none }
    commits := s.commits.filter fun p => match p.what with
      | .armed _ => false
      | _ => true }

/-- LIFECYCLE.ADVANCE (R436): ARM draws a challenge, COMMIT within 1,024 strokes starts the transition. A refused COMMIT
disarms. -/
def opLifecycleAdvance (c : Cmd) (s : State) : Chk Fin := do
  let b := c.block
  blockLen c 16
  let target := u8 b 0
  field (1 ≤ target && target ≤ 4) 0
  field (u8 b 1 ≤ 1) 1
  field (zeroAt b 2 2) 2
  field (u8 b 1 == 1 || u32 b 4 == 0) 4
  field (zeroAt b 8 8) 8
  let next := target == s.dawn.lifecycle + 1
  if u8 b 1 == 0 then do
    need next .notPermitted
    need s.dawn.entropyOk .entropyFault
    let (v, s) := s.draw
    let ch := v % 2 ^ 32
    doneWith (s.commit c (.armed (some (target, ch, s.stroke.number)))) .ok ch
  else
    let live : Bool := match s.armedSeen with
      | some a => a.1 == target && a.2.1 == u32 b 4 && c.stroke ≤ a.2.2 + 1024
      | none => false
    if live && next then doneWith ((s.commit c (.armed none)).commit c (.transition target))
    else doneWith s.disarm .notPermitted

/-! ### The meanings of this file -/

def execEntropyFault (test : Nat) (s : State) : Out := .next (opEntropyFault test s).watchEvents
def execDrbgReseed (s : State) : Out := .next (opDrbgReseed s)
def execCertRead (c : Cmd) (s : State) : Out := .next (runCmd 0x0201 c s (opCertRead c s))
def execSessionQuery (c : Cmd) (s : State) : Out := .next (runCmd 0x0203 c s (opSessionQuery c s))
def execTenantClaim (c : Cmd) (s : State) : Out := .next (runCmd 0x0204 c s (opTenantClaim c s))
def execKeyDeliver (c : Cmd) (s : State) : Out := .next (runCmd 0x0210 c s (opKeyDeliver c s))
def execKeyQuery (c : Cmd) (s : State) : Out := .next (runCmd 0x0211 c s (opKeyQuery c s))
def execKeyPolicy (c : Cmd) (s : State) : Out := .next (runCmd 0x0212 c s (opKeyPolicy c s))
def execKeyRotate (c : Cmd) (s : State) : Out := .next (runCmd 0x0213 c s (opKeyRotate c s))
def execLifecycleAdvance (c : Cmd) (s : State) : Out := .next (runCmd 0x0B20 c s (opLifecycleAdvance c s))

end Sys2Proof.Machine
end

