-- ==== Sys2Proof/Machine/Spdm.lean ====
section
/-! DEFINITION. DOE mailboxes: SPDM sessions and the Kenholt profile (11 R413-R418), IDE_KM, TDISP and TDI_BIND
(14 R523-R530). -/

namespace Sys2Proof.Machine

/-- A function that the host can reach (14 R517). -/
def State.enabledFn (s : State) : Fn → Bool
  | .pf => true
  | .vf k => s.host.vfEnable && k < s.host.numVfs && k < 64

/-- A DOE mailbox takes a request: the link is up, the function enabled, and a command processor serves (17 R617). -/
def State.mailbox (s : State) (f : Fn) : Bool := s.serving && s.host.up && s.enabledFn f

/-- Answer a request: any request but GET_PQ_SIGNATURE discards the kept signature (11 R414). -/
def State.answer (s : State) (f : Fn) (r : DoeResp) : State := s.modFn f fun x => { x with doe := some r, keptSig := none }

/-- Answer a signed request and keep the ML-DSA-87 signature over the same message (11 R412, R414). -/
def State.answerSigned (s : State) (f : Fn) (r : DoeResp) (m : List Byte) : State :=
  s.modFn f fun x => { x with doe := some r, keptSig := some (s.mldsaSign [] m) }

/-- Handle a request where the mailbox takes it (log 2). -/
def atMailbox (f : Fn) (s : State) (g : State → State) : State := if s.mailbox f then g s else s

/-- Handle a request that needs the negotiation to be complete (11 R413). -/
def negotiated (f : Fn) (s : State) (g : State → State) : State :=
  atMailbox f s fun s => if (s.fnOf f).spdmStage = 3 then g s else s.answer f (.error .unexpectedRequest)

/-- GET_VERSION (11 Table 11.1). -/
def opGetVersion (f : Fn) (s : State) : State :=
  atMailbox f s fun s => (s.answer f (.version 0x13)).modFn f fun x => { x with spdmStage := 1 }

/-- GET_CAPABILITIES. -/
def opGetCapabilities (f : Fn) (version : Nat) (s : State) : State :=
  atMailbox f s fun s =>
    if (s.fnOf f).spdmStage = 0 then s.answer f (.error .unexpectedRequest)
    else if version ≠ 0x13 then s.answer f (.error .versionMismatch)
    else (s.answer f .capabilities).modFn f fun x => { x with spdmStage := 2 }

/-- NEGOTIATE_ALGORITHMS: the request must offer the algorithms of Table 11.1. -/
def opNegotiateAlgorithms (f : Fn) (offered : Bool) (s : State) : State :=
  atMailbox f s fun s =>
    if (s.fnOf f).spdmStage < 2 then s.answer f (.error .unexpectedRequest)
    else if !offered then s.answer f (.error .invalidRequest)
    else (s.answer f .algorithms).modFn f fun x => { x with spdmStage := 3 }

/-- GET_DIGESTS: slot 0 holds chain 0. -/
def opGetDigests (f : Fn) (s : State) : State :=
  negotiated f s fun s => s.answer f (.digests (sha384 (Config.certChain 0)))

/-- A portion of a chain and what remains after it. -/
def chainPortion (chain : List Byte) (offset len : Nat) : List Byte × Nat :=
  let p := (chain.drop offset).take len
  (p, chain.length - (offset + p.length))

/-- GET_CERTIFICATE. -/
def opGetCertificate (f : Fn) (slot offset len : Nat) (s : State) : State :=
  negotiated f s fun s =>
    if slot ≠ 0 ∨ (Config.certChain 0).length ≤ offset then s.answer f (.error .invalidRequest)
    else
      let p := chainPortion (Config.certChain 0) offset len
      s.answer f (.certificate p.1 p.2)

/-- CHALLENGE: signed with both identity keys over one message (11 R412, R414). -/
def opChallenge (f : Fn) (slot : Nat) (m : List Byte) (s : State) : State :=
  negotiated f s fun s =>
    if slot ≠ 0 then s.answer f (.error .invalidRequest) else s.answerSigned f (.challengeAuth (s.ecdsaSign m)) m

/-- A session of a function, established or not. -/
def State.anySession (s : State) (f : Fn) (id : Nat) : Option Session := (s.fnOf f).sessions.find? fun y => y.id == id

/-- End a session (11 R416). -/
def State.endSession (s : State) (f : Fn) (id : Nat) : State :=
  s.modFn f fun x => { x with sessions := x.sessions.filter fun y => y.id != id }

/-- The device requests mutual authentication in a claimed compartment, never on the physical function (11 R418). -/
def State.mutual (s : State) : Fn → Bool
  | .pf => false
  | .vf k => (s.comp k).claimed

/-- A RspSessionID (free) that no session of the function has (log 6). -/
def freshSessionId (used : List Nat) (req : Nat) : Nat → Nat → Nat
  | 0, v => v % 65536 * 65536 + req % 65536
  | n + 1, v =>
    let id := v % 65536 * 65536 + req % 65536
    if used.contains id then freshSessionId used req n (v + 1) else id

/-- KEY_EXCHANGE (11 R409, R413, R415, R418). -/
def opKeyExchange (f : Fn) (reqId : Nat) (ecdh : List Byte) (mlkem : Option (List Byte)) (m : List Byte) (s : State) : State :=
  negotiated f s fun s =>
    let x := s.fnOf f
    match mlkem with
    | none => s.answer f (.error .invalidRequest)
    | some ek =>
      if ek.length ≠ 1568 then s.answer f (.error .invalidRequest)
      else if 2 ≤ x.sessions.length then s.answer f (.error .sessionLimitExceeded)
      else if !s.dawn.entropyOk then s.answer f (.error .noEntropy)
      else
        let d := s.free
        let (v, s) := s.draw
        let id := freshSessionId (x.sessions.map (·.id)) reqId 2 v
        let ma := s.mutual f
        let y : Session :=
          { id := id, established := false, mutualAuth := ma, tenantAuth := false, secret := Config.sharedSecret d ecdh ek
            th2 := List.replicate 48 0, finishStroke := 0, beat := 0, reqUpdates := 0, rspUpdates := 0, blobSeq := 0 }
        let s := s.modFn f fun x => { x with sessions := x.sessions ++ [y] }
        s.answerSigned f (.keyExchangeRsp id ma (Config.mlkemCiphertext d ek) (s.ecdsaSign m)) m

/-- FINISH (11 R416, R418): the session is established when the requester's verify data and, under mutual authentication,
its signature under the claimed ECDSA key hold; otherwise it ends. -/
def opFinish (f : Fn) (id : Nat) (transcript sig mac : List Byte) (s : State) : State :=
  negotiated f s fun s =>
    match s.anySession f id with
    | none => s.answer f (.error .invalidSession)
    | some y =>
      if y.established then s.answer f (.error .unexpectedRequest)
      else
        let claim := (s.compOf f).claim
        let signed := !y.mutualAuth || (claim.any fun c => Config.ecdsaVerify c.ecdsa transcript sig)
        if signed && Config.spdmSecret (ascii "req finished") y.secret transcript == mac then
          let n := s.stroke.number
          (s.setSession f { y with established := true, th2 := sha384 transcript, finishStroke := n, beat := n }).answer f .finishRsp
        else (s.endSession f id).answer f (.error .decryptError)

/-- Handle a message inside an established session. -/
def inSession (f : Fn) (id : Nat) (s : State) (g : Session → State → State) : State :=
  negotiated f s fun s =>
    match s.session f id with
    | none => s.answer f (.error .invalidSession)
    | some y => g y s

/-- PQ_FINISH (11 R418): more than 64 strokes after FINISH the device has ended the session. -/
def opPqFinish (f : Fn) (id : Nat) (sig : List Byte) (s : State) : State :=
  inSession f id s fun y s =>
    let ok := (s.compOf f).claim.any fun c => Config.mldsaVerify c.mldsa [] y.th2 sig
    if y.mutualAuth && !y.tenantAuth && decide (y.finishStroke + 64 < s.stroke.number) then (s.endSession f id).answer f (.error .invalidSession)
    else if y.mutualAuth && !y.tenantAuth && ok then (s.setSession f { y with tenantAuth := true }).answer f .pqFinishRsp
    else s.answer f (.error .invalidRequest)

/-- PQ_FINISH_TIMEOUT (11 R418): 64 strokes after FINISH the device ends the session. -/
def opPqFinishTimeout (f : Fn) (id : Nat) (s : State) : State :=
  match s.session f id with
  | some y =>
    if y.mutualAuth && !y.tenantAuth && decide (y.finishStroke + 64 < s.stroke.number) then s.endSession f id else s
  | none => s

/-- GET_PQ_SIGNATURE (11 R414). -/
def opGetPqSignature (f : Fn) (s : State) : State :=
  negotiated f s fun s =>
    match (s.fnOf f).keptSig with
    | some g => s.modFn f fun x => { x with doe := some (.pqSignature g) }
    | none => s.answer f (.error .unexpectedRequest)

/-- GET_PQ_CERT: chain 1 (11 Table 11.1). -/
def opGetPqCert (f : Fn) (offset len : Nat) (s : State) : State :=
  negotiated f s fun s =>
    if (Config.certChain 1).length ≤ offset then s.answer f (.error .invalidRequest)
    else
      let p := chainPortion (Config.certChain 1) offset len
      s.answer f (.pqCert p.1 p.2)

/-- END_SESSION (11 R416). -/
def opEndSession (f : Fn) (id : Nat) (s : State) : State :=
  inSession f id s fun _ s => (s.endSession f id).answer f .endSessionAck

/-- HEARTBEAT. -/
def opHeartbeat (f : Fn) (id : Nat) (s : State) : State :=
  inSession f id s fun y s => (s.setSession f { y with beat := s.stroke.number }).answer f .heartbeatAck

/-- HEARTBEAT_MISS (11 R416). -/
def opHeartbeatMiss (f : Fn) (id : Nat) (s : State) : State :=
  if (s.session f id).isSome then s.endSession f id else s

/-- KEY_UPDATE: 1 updates the requester's key, 2 both keys, 3 verifies (SPDM 1.3). -/
def opKeyUpdate (f : Fn) (id op : Nat) (s : State) : State :=
  inSession f id s fun y s =>
    match op with
    | 1 => (s.setSession f { y with reqUpdates := y.reqUpdates + 1 }).answer f .keyUpdateAck
    | 2 => (s.setSession f { y with reqUpdates := y.reqUpdates + 1, rspUpdates := y.rspUpdates + 1 }).answer f .keyUpdateAck
    | 3 => s.answer f .keyUpdateAck
    | _ => s.answer f (.error .invalidRequest)

/-- UNSUPPORTED_SPDM_REQUEST (11 R413): the ERROR response the specification assigns. -/
def opUnsupportedSpdm (f : Fn) (code : Nat) (s : State) : State :=
  atMailbox f s fun s => s.answer f (.error (.other code))

/-! ### IDE_KM and TDISP: only in an established session on the physical function's mailbox (14 R524) -/

/-- Handle an IDE_KM or TDISP message. -/
def onPf (f : Fn) (id : Nat) (s : State) (g : State → State) : State :=
  match f with
  | .pf => inSession .pf id s fun _ s => g s
  | .vf _ => atMailbox f s fun s => s.answer f (.error .unsupportedRequest)

/-- IDE_KM KEY_PROG (14 R525): a stream key into key set 0 or 1 of one of the 65 blocks. -/
def opIdeKmKeyProg (f : Fn) (id block stream first last keySet : Nat) (s : State) : State :=
  onPf f id s fun s =>
    if 65 ≤ block ∨ 256 ≤ stream ∨ 2 ≤ keySet then s.answer .pf (.kpAck 3)
    else
      let old : IdeStream := match Tab.find? s.host.ide block with
        | some x => if x.id = stream ∧ x.first = first ∧ x.last = last then x else { id := stream, first, last }
        | none => { id := stream, first, last }
      let x := if keySet = 0 then { old with key0 := true } else { old with key1 := true }
      let ide := Tab.set s.host.ide block x
      ({ s with host := { s.host with ide } } : State).answer .pf (.kpAck 0)

/-- The key set of a stream block is programmed. -/
def IdeStream.programmed (x : IdeStream) (keySet : Nat) : Bool :=
  match keySet with
  | 0 => x.key0
  | 1 => x.key1
  | _ => false

/-- K_SET_GO (14 R525, R526): the stream switches to a programmed key set and is Secure. -/
def opKSetGo (f : Fn) (id stream keySet : Nat) (s : State) : State :=
  onPf f id s fun s =>
    if s.host.ide.any fun p => p.2.id == stream && p.2.programmed keySet then
      let ide := s.host.ide.map fun p =>
        (p.1, if p.2.id = stream ∧ p.2.programmed keySet then { p.2 with active := some keySet, secure := true } else p.2)
      ({ s with host := { s.host with ide } } : State).answer .pf .kGoStopAck
    else s.answer .pf (.error .invalidRequest)

/-- A Secure stream covers a function (14 R527). -/
def State.covered (s : State) (f : Fn) : Bool := s.host.ide.any fun p => p.2.secure && p.2.covers f

/-- LOCK_INTERFACE_REQUEST (14 R527). -/
def opLock (f : Fn) (id k : Nat) (bar0 : Bool) (s : State) : State :=
  onPf f id s fun s =>
    let x := s.fnOf (.vf k)
    if 64 ≤ k ∨ !(bar0 && s.covered (.vf k) && decide ((s.comp k).st = .active)) then s.answer .pf (.error .invalidRequest)
    else if x.tdi ≠ .unlocked then s.answer .pf (.error .invalidState)
    else if !s.dawn.entropyOk then s.answer .pf (.error .noEntropy)
    else
      let (n, s) := s.drawBytes 32
      (s.modFn (.vf k) fun x => { x with tdi := .locked, nonce := n, bindOk := false }).answer .pf (.lockInterface n)

/-- START_INTERFACE_REQUEST (14 R527, TDISP). -/
def opStartInterface (f : Fn) (id k : Nat) (nonce : List Byte) (s : State) : State :=
  onPf f id s fun s =>
    let x := s.fnOf (.vf k)
    if 64 ≤ k ∨ x.tdi ≠ .locked then s.answer .pf (.error .invalidState)
    else if x.nonce ≠ nonce then s.answer .pf (.error .invalidNonce)
    else (s.modFn (.vf k) fun x => { x with tdi := .run }).answer .pf .startInterface

/-- STOP_INTERFACE (14 R530). -/
def opStopInterface (f : Fn) (id k : Nat) (s : State) : State :=
  onPf f id s fun s =>
    if 64 ≤ k then s.answer .pf (.error .invalidRequest) else (s.tdiLeave k .unlocked).answer .pf .stopInterface

/-- TDI_BIND (14 R529): in a tenant-authenticated session on the virtual function's own mailbox. -/
def opTdiBind (f : Fn) (id : Nat) (nonce : List Byte) (s : State) : State :=
  inSession f id s fun y s =>
    let x := s.fnOf f
    match f with
    | .pf => s.answer f (.error .invalidRequest)
    | .vf _ =>
      if y.tenantAuth && decide (x.tdi = .run) && x.nonce == nonce then
        (s.modFn f fun x => { x with bindOk := true }).answer f .tdiBind
      else s.answer f (.error .invalidRequest)

/-! ### The meanings of this file -/

def execGetVersion (f : Fn) (s : State) : Out := .next (opGetVersion f s)
def execGetCapabilities (f : Fn) (version : Nat) (s : State) : Out := .next (opGetCapabilities f version s)
def execNegotiateAlgorithms (f : Fn) (offered : Bool) (s : State) : Out := .next (opNegotiateAlgorithms f offered s)
def execGetDigests (f : Fn) (s : State) : Out := .next (opGetDigests f s)
def execGetCertificate (f : Fn) (slot offset len : Nat) (s : State) : Out := .next (opGetCertificate f slot offset len s)
def execChallenge (f : Fn) (slot : Nat) (m : List Byte) (s : State) : Out := .next (opChallenge f slot m s)
def execKeyExchange (f : Fn) (reqId : Nat) (ecdh : List Byte) (mlkem : Option (List Byte)) (m : List Byte) (s : State) : Out :=
  .next (opKeyExchange f reqId ecdh mlkem m s)
def execFinish (f : Fn) (id : Nat) (transcript sig mac : List Byte) (s : State) : Out := .next (opFinish f id transcript sig mac s)
def execPqFinish (f : Fn) (id : Nat) (sig : List Byte) (s : State) : Out := .next (opPqFinish f id sig s)
def execPqFinishTimeout (f : Fn) (id : Nat) (s : State) : Out := .next (opPqFinishTimeout f id s)
def execGetPqSignature (f : Fn) (s : State) : Out := .next (opGetPqSignature f s)
def execGetPqCert (f : Fn) (offset len : Nat) (s : State) : Out := .next (opGetPqCert f offset len s)
def execEndSession (f : Fn) (id : Nat) (s : State) : Out := .next (opEndSession f id s)
def execHeartbeat (f : Fn) (id : Nat) (s : State) : Out := .next (opHeartbeat f id s)
def execHeartbeatMiss (f : Fn) (id : Nat) (s : State) : Out := .next (opHeartbeatMiss f id s)
def execKeyUpdate (f : Fn) (id op : Nat) (s : State) : Out := .next (opKeyUpdate f id op s)
def execUnsupportedSpdmRequest (f : Fn) (code : Nat) (s : State) : Out := .next (opUnsupportedSpdm f code s)
def execIdeKmKeyProg (f : Fn) (id block stream first last keySet : Nat) (s : State) : Out :=
  .next (opIdeKmKeyProg f id block stream first last keySet s)
def execKSetGo (f : Fn) (id stream keySet : Nat) (s : State) : Out := .next (opKSetGo f id stream keySet s)
def execLockInterfaceRequest (f : Fn) (id k : Nat) (bar0 : Bool) (s : State) : Out := .next (opLock f id k bar0 s)
def execStartInterfaceRequest (f : Fn) (id k : Nat) (nonce : List Byte) (s : State) : Out := .next (opStartInterface f id k nonce s)
def execStopInterface (f : Fn) (id k : Nat) (s : State) : Out := .next (opStopInterface f id k s)
def execTdiBind (f : Fn) (id : Nat) (nonce : List Byte) (s : State) : Out := .next (opTdiBind f id nonce s)

end Sys2Proof.Machine
end

