-- ==== Sys2Proof/Machine/HostLink.lean ====
section
/-! DEFINITION. The functions' configuration space, the HOST link and the resets of its functions (14 R514-R518, R523, R526,
R531-R533). -/

namespace Sys2Proof.Machine

/-! ### Configuration space (R515-R518, Table 14.1, Table 14.2) -/

/-- The fields of a function's configuration header that the device gives (R515, R516, R518). -/
structure PciHeader where
  vendor : Nat := 0x1F4D
  device : Nat
  classCode : Nat := 0x120000
  revision : Nat := 0xB1
  interruptPin : Nat := 0
  /-- bytes of BAR0, one 64-bit non-prefetchable memory BAR -/
  bar0 : Nat
  bar0Is64 : Bool := true
  bar0Prefetch : Bool := false
  /-- bytes of any other BAR -/
  barN : Nat := 0
  deriving DecidableEq, Repr

/-- The header of a function. A virtual function reports its Device ID through the SR-IOV capability (R516). -/
def pciHeader : Fn → PciHeader
  | .pf => { device := 0xD400, bar0 := 16 * 2 ^ 20 }
  | .vf _ => { device := 0xD401, bar0 := 64 * 2 ^ 10 }

/-- The configuration dwords 0-15 of the header that are fixed: Vendor and Device ID, Revision and Class Code, the type bits of BAR0,
Interrupt Pin; BARs 2-5 read zero. -/
def PciHeader.dword (h : PciHeader) (i : Nat) : Nat :=
  match i with
  | 0 => h.vendor + 2 ^ 16 * h.device
  | 2 => h.revision + 2 ^ 8 * h.classCode
  | 4 => (if h.bar0Is64 then 4 else 0) + (if h.bar0Prefetch then 8 else 0)
  | 15 => 2 ^ 8 * h.interruptPin
  | _ => 0

/-- The SR-IOV capability (R517). -/
structure SriovCap where
  initialVfs : Nat := 64
  totalVfs : Nat := 64
  firstOffset : Nat := 1
  stride : Nat := 1
  vfDevice : Nat := 0xD401
  migration : Bool := false
  numVfs : Nat
  vfEnable : Bool
  deriving DecidableEq, Repr

/-- The SR-IOV capability of the physical function. -/
def State.sriov (s : State) : SriovCap := { numVfs := s.host.numVfs, vfEnable := s.host.vfEnable }

/-- Routing ID of a function, from that of the physical function: virtual function n belongs to compartment n - 1 (R517). -/
def State.routingId (s : State) (pf : Nat) : Fn → Nat
  | .pf => pf
  | .vf k => pf + s.sriov.firstOffset + k * s.sriov.stride

/-- What the device supports of PCI Express 6.0 (Table 14.1); any other feature is an Unsupported Request (R515). -/
structure PciFeatures where
  flitMode : Bool := true
  rates : List Nat := [16, 32, 64]
  widths : List Nat := [8, 16]
  aspm : Bool := false
  d3hot : Bool := true
  maxPayload : List Nat := [128, 256, 512]
  maxRead : List Nat := [128, 256, 512, 1024, 2048, 4096]
  tagBits : Nat := 14
  outstanding : Nat := 4096
  atomics : Bool := false
  ats : Bool := false
  pasid : Bool := false
  noSnoop : Bool := false
  aer : Bool := true
  ari : Bool := true
  msi : Bool := false
  msixPf : Nat := 8
  msixVf : Nat := 4
  linkIde : Bool := false
  selectiveIde : Nat := 65
  teeIo : Bool := true
  /-- Completion Timeout, µs: bounds of ranges A and B, and the value after reset -/
  timeoutMin : Nat := 50
  timeoutMax : Nat := 10000
  timeoutReset : Nat := 10000
  deriving DecidableEq, Repr

/-- The features of every function. -/
def pciFeatures : PciFeatures := {}

/-! ### The link and its resets -/

/-- HOST_LINK_TRAINING (R514): trained in Flit mode the link is in L0; without Flit mode it returns to Detect with an ERROR
event, whose cause is a free value (log 6). Training needs a holder's copy of the logic (17 R601 step 6, R613). -/
def opHostLinkTraining (flit : Bool) (rate width : Nat) (s : State) : State :=
  if !s.serving || s.host.up then s
  else if !flit then
    let (c, s) := s.draw
    s.raise 0x0132 .error 0x40 c 0
  else if rate ∈ pciFeatures.rates ∧ width ∈ pciFeatures.widths then
    { s with host := { s.host with up := true, rate, width } }
  else s

/-- A function reset falls due at the next boundary (R531). -/
def State.dueReset (s : State) (f : Fn) : State := s.modFn f fun x => { x with resetDue := true }

/-- HOST_LINK_DOWN (R526, R531, Table 14.6): hot reset, DL_Down or loss of light. -/
def opHostLinkDown (s : State) : State :=
  if !s.host.up then s
  else
    let (c, s) := s.draw
    let s := (s.raise 0x0132 .error 0x40 c 0).linkDown
    allFns.foldl State.dueReset s

/-- FUNCTION_LEVEL_RESET (R531, Table 14.6). -/
def opFlr (f : Fn) (s : State) : State :=
  match f with
  | .vf k => if s.enabledFn (.vf k) && s.host.up then s.dueReset (.vf k) else s
  | .pf =>
    if s.host.up then
      let s := allFns.foldl State.dueReset s
      { s with host := { s.host with vfEnable := false, numVfs := 0 } }
    else s

/-- D0_TO_D3HOT: the function's rings are treated as disabled while it is in D3hot (Table 14.6). -/
def opD0ToD3 (f : Fn) (s : State) : State :=
  if s.host.up && s.enabledFn f then s.modFn f fun x => { x with d3 := true } else s

/-- D3HOT_TO_D0 (R531, Table 14.6): No_Soft_Reset reads 0, so the function resets. -/
def opD3ToD0 (f : Fn) (s : State) : State :=
  if s.host.up && (s.fnOf f).d3 then (s.modFn f fun x => { x with d3 := false }).dueReset f else s

/-- VF_ENABLE_SET (R517): NumVFs 0-64, written while VF Enable is clear. -/
def opVfEnableSet (n : Nat) (s : State) : State :=
  if s.host.up && !s.host.vfEnable && n ≤ s.sriov.totalVfs then { s with host := { s.host with vfEnable := true, numVfs := n } } else s

/-- VF_ENABLE_CLEAR (R517, Table 14.6): every virtual function resets. -/
def opVfEnableClear (s : State) : State :=
  if s.host.up && s.host.vfEnable then
    let s := (upFrom 0 64).foldl (fun s k => s.dueReset (.vf k)) s
    { s with host := { s.host with vfEnable := false } }
  else s

/-- IDE_INSECURE (R526). -/
def opIdeInsecure (stream cause : Nat) (s : State) : State := s.insecureWhere (fun x => x.id == stream) cause

/-- DOE_ABORT (R523): the mailbox is emptied, no session ends. -/
def opDoeAbort (f : Fn) (s : State) : State :=
  if s.mailbox f then s.modFn f fun x => { x with doe := none, doeError := false } else s

/-- DOE_ERROR (R523): an object larger than 16 KiB is discarded. -/
def opDoeError (f : Fn) (len : Nat) (s : State) : State :=
  if s.mailbox f && 16384 < len then s.modFn f fun x => { x with doeError := true } else s

/-! ### The meanings of this file -/

def execHostLinkTraining (flit : Bool) (rate width : Nat) (s : State) : Out := .next (opHostLinkTraining flit rate width s).watchEvents
def execHostLinkDown (s : State) : Out := .next (opHostLinkDown s).watchEvents
def execFunctionLevelReset (f : Fn) (s : State) : Out := .next (opFlr f s)
def execD0ToD3hot (f : Fn) (s : State) : Out := .next (opD0ToD3 f s)
def execD3hotToD0 (f : Fn) (s : State) : Out := .next (opD3ToD0 f s)
def execVfEnableSet (n : Nat) (s : State) : Out := .next (opVfEnableSet n s)
def execVfEnableClear (s : State) : Out := .next (opVfEnableClear s)
def execIdeInsecure (stream cause : Nat) (s : State) : Out := .next (opIdeInsecure stream cause s).watchEvents
def execDoeAbort (f : Fn) (s : State) : Out := .next (opDoeAbort f s)
def execDoeError (f : Fn) (len : Nat) (s : State) : Out := .next (opDoeError f len s)

end Sys2Proof.Machine
end

