-- ==== Sys2Proof/Machine/Dawn.lean ====
section
/-! DEFINITION. Standby power, Dawn, firmware images, the lease and its fence, and the firmware commands
(17_dawn_reset_faults.md). -/

namespace Sys2Proof.Machine

/-! ### Rule tables and images -/

/-- A channel configuration entry within the ranges of 16 Table 16.3. -/
def parseChan (b : List Byte) : Option ChanCfg :=
  let c : ChanCfg := { enable := u8 b 0 == 1, shift := u8 b 1, vmin := i32 b 4, vmax := i32 b 8 }
  if u8 b 0 ≤ 1 ∧ u8 b 1 ≤ 10 ∧ zeroAt b 2 2 ∧ c.vmin ≤ c.vmax ∧ zeroAt b 12 4 then some c else none

/-- The ranges of 16 Table 16.4, Table 16.5 for a rule. -/
def ruleValid (r : Rule) (compare : Nat) : Bool :=
  let event := r.source == 3
  r.source ≤ 3 && compare ≤ 1 && (!event || compare == 0) && r.action ≤ 5
    && (r.action != 3 || event) && (!(r.action == 1 || r.action == 2) || !event)
    && (if r.action == 1 || r.action == 2 then 1 ≤ r.arg && r.arg ≤ 5 else r.arg == 0)
    && (if event then r.last == 0 else r.first ≤ r.last && r.last ≤ 255)
    && (if r.below then decide (r.threshold ≤ r.clear) else decide (r.clear ≤ r.threshold))
    && 1 ≤ r.holdTicks && 1 ≤ r.clearTicks && (!event || (r.holdTicks == 1 && r.clearTicks == 1))
    && r.cls ≤ 3 && r.flags ≤ 3

/-- A rule entry (16 Table 16.4). -/
def parseRule (b : List Byte) : Option Rule :=
  let r : Rule :=
    { source := u8 b 0, below := u8 b 1 == 1, action := u8 b 2, arg := u8 b 3, first := u16 b 4, last := u16 b 6
      threshold := i32 b 8, clear := i32 b 12, holdTicks := u16 b 16, clearTicks := u16 b 18, cls := u8 b 20, flags := u8 b 21 }
  if (r.source == 0 || ruleValid r (u8 b 1)) && zeroAt b 22 10 then some r else none

/-- Every entry, or none where one breaks a range. -/
def allSome {α : Type} : List (Option α) → Option (List α)
  | [] => some []
  | none :: _ => none
  | some x :: r => (allSome r).map (x :: ·)

/-- A rule-table body (16 R570, Table 16.2). -/
def parseRules (b : List Byte) : Option RuleTable :=
  let n := u16 b 2
  if u16 b 0 = 1 ∧ n ≤ 1024 ∧ u32 b 8 = 4160 + 32 * n ∧ b.length = u32 b 8 ∧ zeroAt b 12 52 then
    match allSome ((upFrom 0 256).map fun i => parseChan ((b.drop (64 + 16 * i)).take 16)),
          allSome ((upFrom 0 n).map fun i => parseRule ((b.drop (4160 + 32 * i)).take 32)) with
    | some cs, some rs => some { format := 1, svn := u32 b 4, chans := (upFrom 0 256).zip cs, rules := rs }
    | _, _ => none
  else none

/-- Length of an image trailer (R605). -/
def trailerLen : Nat := 4928

/-- BODY_LEN within Table 17.4. -/
def bodyLenValid (kind len : Nat) : Bool :=
  if kind == 1 then 4096 ≤ len && len ≤ 15728640 && len % 64 == 0
  else 4160 ≤ len && len ≤ 4160 + 32 * 1024 && (len - 4160) % 32 == 0

/-- Body and trailer of an image. -/
def splitImage (img : List Byte) : List Byte × List Byte := (img.take (img.length - trailerLen), img.drop (img.length - trailerLen))

/-- BODY_DIGEST of an image, the measurement of R605. -/
def imageDigest (img : List Byte) : List Byte := padTo 48 (((splitImage img).2.drop 16).take 48)

/-- The checks of R605 on an image but for the anti-rollback counter. -/
def imageValid (kind : Nat) (img : List Byte) : Bool :=
  let (body, t) := splitImage img
  let tbs := t.take 128
  let format : Bool :=
    if kind == 1 then u16 t 8 == 1
    else match parseRules body with
      | some r => u16 t 8 == r.format && r.svn == u32 t 4
      | none => false
  trailerLen ≤ img.length && u8 t 0 == 1 && u8 t 1 == kind && zeroAt t 2 2 && u32 t 12 == body.length && bodyLenValid kind body.length
    && format && zeroAt t 64 64 && zeroAt t 224 32 && zeroAt t 4883 45 && (t.drop 16).take 48 == sha384 body
    && Config.ecdsaVerify Config.fwKeyEcdsa tbs ((t.drop 128).take 96)
    && Config.mldsaVerify Config.fwKeyMldsa (ascii "KDW-D4 firmware v1") tbs ((t.drop 256).take 4627)

/-- The value of an anti-rollback counter (R607). -/
def Banks.counter (b : Banks) : Nat := b.slots.headD 0

/-- The bank an image fills. -/
def bankOf (kind : Nat) (img : List Byte) : Bank :=
  let t := (splitImage img).2
  { valid := imageValid kind img, svn := u32 t 4, verMajor := u16 t 8, verMinor := u16 t 10, image := img }

/-- A bank is valid under R605. -/
def Banks.bankValid (b : Banks) (i : Nat) : Bool :=
  let x := Tab.get {} b.banks i
  x.valid && b.counter ≤ x.svn

/-- The selection of R606: the banks left, and whether it is a fallback. -/
def Banks.select (b : Banks) : Option (Banks × Bool) :=
  let first := if b.pending then 1 - b.active else b.active
  if b.bankValid first then some ({ b with active := first, pending := false }, false)
  else if b.bankValid (1 - first) then some ({ b with active := 1 - first, pending := false }, true)
  else none

/-- The banks of a kind as step 3 of Dawn leaves them: the pending mark is cleared in every case (R606). -/
def Banks.selected (b : Banks) : Banks := (b.select.map (·.1)).getD { b with pending := false }

/-- The rule table that a bank puts in force. -/
def tableOf (b : Bank) : RuleTable := (parseRules (splitImage b.image).1).getD {}

/-! ### Standby power -/

/-- What survives the loss of VSTBY_3V3 (R598, R599): fuses, firmware store, anti-rollback counters, the trip latch
(18 R644) and the level of RESET_N, which the board drives. -/
def State.standbyLost (s : State) (m : MainSt) : State :=
  { pending := s.pending
    free := s.free
    hostMem := s.hostMem
    dawn :=
      { fuseA := s.dawn.fuseA, fuseB := s.dawn.fuseB, lifecycle := s.dawn.lifecycle, serial := s.dawn.serial, dawnResult := 0
        dawns := 0, fences := 0, fw := s.dawn.fw, rule := s.dawn.rule, holder := none, leaseCounter := 0, entropyOk := false
        uds := s.dawn.uds, jtagOff := s.dawn.jtagOff }
    power :=
      { main := m, nightCause := .powerOn, state := .night, resetN := s.power.resetN, tripLatch := s.power.tripLatch
        tripInReset := !s.power.resetN, cap := 0, pwrGood := false, inputSwitch := false }
    quench := { hbmAwaiting := [] }
    watch := { chans := ((upFrom 0 256).filter fun i => !chanPowered i).map fun i => (i, chanOff) }
    host := { up := false, lit := false } }

/-- STANDBY_POWER_LOSS (R599). -/
def opStandbyPowerLoss (s : State) : State := if s.power.main = .unpowered then s else s.standbyLost .unpowered

/-- STANDBY_POWER_ON (R598; 18 R641): Night, then Dawn under R600. -/
def opStandbyPowerOn (s : State) : State := if s.power.main = .unpowered then s.standbyLost .night else s

/-! ### Dawn -/

/-- The lifecycle state from the two fuse copies, and copy B as left (11 R438). -/
def readFuses (a b : Nat) : Nat × Nat :=
  let ok := fun x => 1 ≤ x && x ≤ 4
  if ok a && a == b then (a, b) else if ok a && ok b && a == b + 1 then (a, a) else (4, b)

/-- What one fuse copy reads back: a burnt code is one-time and never reads as another code of Table 0.4; a pattern outside the
table is what it is (00 R14, R16; log 8). -/
def readCopy (burnt back : Nat) : Nat := if 1 ≤ back ∧ back ≤ 4 then burnt else back

/-- Every condition of R600, and an exit from the Night the device is in (15 R558). -/
def dawnReady (d : DawnIn) (s : State) : Bool :=
  decide (s.power.main = .night)
    && decide (s.power.nightCause = .restart ∨ s.power.nightCause = .reset ∨ s.power.nightCause = .powerOn)
    && s.power.resetN && !s.power.tripLatch && 1000 ≤ d.p48HeldMs && decide (d.crucibleTemp ≤ 1520 ∧ d.substrateTemp ≤ 1520)

/-- A Dawn that fails (R604): FAILED behaves as Night, and dies without power have their channels OFF (16 R568). -/
def State.dawnFails (s : State) (code : Nat) : State :=
  { s with
    transport := []
    watch := nightWatch s.watch
    dawn := { s.dawn with dawnResult := code }
    power := { s.power with main := .failed, state := .night, pwrGood := false, inputSwitch := false } }

/-- What a Dawn clears in Nightwatch: peaks, rule counts, path numbers, device counters, budgets (16 Table 16.6, Table 16.12,
R595; 17 R602); channels whose power returns start (16 R568). -/
def WatchSt.dawn (w : WatchSt) (t : RuleTable) : WatchSt :=
  { w with
    chans := w.chans.map fun p => (p.1, if p.2.st = .off then {} else { p.2 with peak := none })
    table := t
    ruleSt := []
    budgets := {}
    budgetsPending := none
    eq := {}
    hostSeq := 0
    sbSeq := 0
    recordsWritten := 0
    errorsDropped := 0
    warnsDropped := 0
    tracesDropped := 0
    sbDropped := 0
    periods := 0 }

/-- Crucible grants the lease: the holder, and one more grant (R609). -/
def DawnSt.grant (d : DawnSt) (holder : Cp) : DawnSt := { d with holder := some holder, leaseCounter := d.leaseCounter + 1 }

/-- The main domain at the end of Dawn (R602): stroke 0 begins. -/
def State.mainStart (s : State) (result : Nat) : State :=
  let (tags, s) := s.freshRange
  let (inc, s) := s.draw
  let p := s.power
  let s : State :=
    { pending := s.pending
      free := s.free
      hostMem := s.hostMem
      transport := s.transport
      watch := s.watch
      fns := [(0, { tags := tags })]
      link := { incarnation := inc % 2 ^ 64 }
      dawn :=
        { s.dawn with dawnResult := result, dawns := sat64 s.dawn.dawns 1, leaseFor := 0, fence := none, armed := none, transition := none }
      power :=
        { main := .service, nightCause := p.nightCause, resetN := p.resetN, tripLatch := p.tripLatch, hearthCleared := p.hearthCleared
          supply := p.supply, thermal := p.thermal }
      host := { up := false, lit := true, rate := s.host.rate, width := s.host.width } }
  s.setState s.allowed 3

/-- Draw the die transport keys: four compute dies and two Bellows dies (11 R407). -/
def State.drawTransport (s : State) : Nat → State
  | 0 => s
  | n + 1 =>
    let (b, s) := s.drawBytes 32
    ({ s with transport := s.transport ++ [b] } : State).drawTransport n

/-- In MANUFACTURE Crucible draws the unique device secret and fuses it, once (11 R410; log 118). -/
def State.fuseSecret (s : State) : State :=
  if s.dawn.lifecycle = 1 ∧ s.dawn.uds = [] ∧ s.dawn.entropyOk then
    let (b, s) := s.drawBytes 32
    { s with dawn := { s.dawn with uds := b } }
  else s

/-- Step 1: the lifecycle fuses as read back, the entropy start-up tests, the transport keys (R601; 11 R407, R409, R438; 00 R17). -/
def dawnKeys (d : DawnIn) (s : State) : State :=
  let a := readCopy s.dawn.fuseA d.fuseA
  let (code, b) := readFuses a (readCopy s.dawn.fuseB d.fuseB)
  let s : State :=
    { s with
      dawn :=
        { s.dawn with
          fuseA := a, fuseB := b, lifecycle := code, jtagOff := s.dawn.jtagOff || decide (3 ≤ code), entropyOk := d.entropyOk, drbgRequests := 0 }
      transport := [] }
  if d.entropyOk then s.fuseSecret.drawTransport 6
  else
    let (t, s) := s.draw
    s.raise 0x0083 .alarm 0x40 t 0

/-- Dawn stops at once and the device enters Night: a level says so in NIGHT_ENTRY, RESET_N does not (R603; 15 R556; log 20). -/
def State.dawnStops (s : State) (x : DawnStop) : State :=
  let cleared := decide ((s.watch.chan 84).raw ≥ 30000)
  match x with
  | .level src =>
    let s := (s.setLevel src 5).raise 0x0085 .alarm 0x40 (srcCode src) 0
    s.mainOff .night (srcNight src) cleared
  | .reset => ({ s with power := { s.power with resetN := false } } : State).mainOff .night .reset cleared

/-- Step `n` of Dawn, unless Dawn stops during it (R603). -/
def dawnThen (d : DawnIn) (n : Nat) (s : State) (g : State → State) : State :=
  match d.stop with
  | some (m, x) => if m ≤ n then s.dawnStops x else g s
  | none => g s

/-- A lower level that is reached during Dawn sets the state in which it ends (R603; 15 R542). -/
def State.dawnLevel (s : State) (src : Source) (l : Nat) : State :=
  if l = 0 then s else s.raiseLevel src l false (srcNight src) 0

/-- Steps 5-7: the lease, the HOST port logic, stroke 0 (R601, R602, R609). -/
def dawnServe (d : DawnIn) (result : Nat) (s : State) : State :=
  dawnThen d 5 s fun s =>
    let s : State := { s with dawn := s.dawn.grant (if d.cpA then .a else .b) }
    dawnThen d 6 s fun s =>
      let s : State := { s with host := { s.host with lit := true } }
      dawnThen d 7 s fun s => ((s.dawnLevel .supply d.supply).dawnLevel .thermal d.thermal).mainStart result

/-- Step 4: the self-tests (R604). -/
def dawnTest (d : DawnIn) (result : Nat) (s : State) : State :=
  dawnThen d 4 s fun s =>
    if !d.selfTest then s.dawnFails 0x12
    else if !d.cpA && !d.cpB then s.dawnFails 0x13
    else dawnServe d result s

/-- Step 3: the images are selected and verified (R604-R606). -/
def dawnLoad (d : DawnIn) (s : State) : State :=
  let chosen := (s.dawn.fw.select, s.dawn.rule.select)
  let s : State := { s with dawn := { s.dawn with fw := s.dawn.fw.selected, rule := s.dawn.rule.selected } }
  match chosen with
  | (none, _) => s.dawnFails 0x10
  | (some _, none) => s.dawnFails 0x11
  | (some fw, some rule) =>
    dawnTest d (bitNum fw.2 + 2 * bitNum rule.2) { s with watch := s.watch.dawn (tableOf rule.1.activeBank) }

/-- Dawn starts: the input switch closes, and the conditions of R600 leave both levels at 0 (log 13). -/
def State.dawnBegins (s : State) : State :=
  { s with
    watch := { s.watch with periods := 0 }
    power := { s.power with inputSwitch := true, state := .dawn, supply := 0, thermal := 0 } }

/-- DAWN_START (R600-R606; 11 R407, R409, R410, R438; 18 R647). -/
def opDawnStart (d : DawnIn) (s : State) : State :=
  if !dawnReady d s then s
  else
    dawnThen d 1 s.dawnBegins fun s =>
      dawnThen d 2 (dawnKeys d s) fun s =>
        if !d.refclk then s.dawnFails 0x12
        else dawnThen d 3 { s with power := { s.power with pwrGood := true } } (dawnLoad d)

/-! ### The lease -/

/-- LEASE_HOLDER: 0 CP-A, 1 CP-B, 0xFF none. -/
def cpCode : Option Cp → Nat
  | some .a => 0
  | some .b => 1
  | none => 0xFF

/-- A lease message is a double claim (R610). -/
def State.doubleClaim (s : State) (cp : Cp) (count stroke : Nat) : Bool :=
  s.dawn.holder.isSome
    && !(decide (s.dawn.holder = some cp) && count == s.dawn.leaseCounter && stroke == s.stroke.number + 1)

/-- A fence `part` ns into the stroke: a burst ends with it (R611). -/
def State.fenceAt (s : State) (cause part : Nat) : State := (s.closeBurst true part).fenceNow cause

/-- A lease message (R610): a renewal in its window, or a double claim that fences. -/
def opLeaseMessage (cp : Cp) (count stroke offsetNs : Nat) (s : State) : State :=
  let p := s.stroke.period * 10000
  if s.power.main ≠ .service then s
  else if s.doubleClaim cp count stroke then s.fenceAt 0 (min offsetNs s.strokeNs)
  else if s.dawn.holder = some cp ∧ p ≤ offsetNs + 10000 ∧ offsetNs + 1000 ≤ p then { s with dawn := { s.dawn with leaseFor := stroke } }
  else s

/-- DOUBLE_CLAIM (R610, R611). -/
def opDoubleClaim (cp : Cp) (count stroke : Nat) (s : State) : State :=
  if s.power.main = .service ∧ s.doubleClaim cp count stroke then
    let (part, s) := s.partNs
    s.fenceAt 0 part
  else s

/-- LEASE_LAPSE (R610, R611): at offset 0 of a stroke for which no renewal was accepted. -/
def opLeaseLapse (s : State) : State :=
  if s.power.main = .service ∧ s.dawn.holder.isSome ∧ s.stroke.phase = .boundary ∧ s.dawn.leaseFor ≠ s.stroke.number then s.fenceAt 1 0
  else s

/-- The other command processor. -/
def otherCp : Cp → Cp
  | .a => .b
  | .b => .a

/-- A command processor passed its self-test. -/
def passed (cpA cpB : Bool) : Cp → Bool
  | .a => cpA
  | .b => cpB

/-- Who is granted the lease after a fence (R613). -/
def regrantTo (f : Fence) (cpA cpB : Bool) : Option Cp :=
  let former := f.former.getD .a
  let first := if f.cause = 1 then otherCp former else former
  if passed cpA cpB first then some first else if passed cpA cpB (otherCp first) then some (otherCp first) else none

/-- LEASE_REGRANT (R613): at a stroke boundary after both self-tests have ended. What the landing areas hold is discarded
(R612). -/
def opLeaseRegrant (cpA cpB : Bool) (s : State) : State :=
  match s.dawn.fence with
  | none => s
  | some f =>
    match regrantTo f cpA cpB with
    | none => s
    | some cp =>
      if s.power.main = .service ∧ s.stroke.phase = .boundary then
        let s : State :=
          { s with
            link := { s.link with landed := [] }
            dawn :=
              { s.dawn with holder := some cp, leaseCounter := s.dawn.leaseCounter + 1, leaseFor := s.stroke.number, fence := none } }
        s.setState s.allowed (if s.power.supply ≥ s.power.thermal then 1 else 2)
      else s

/-- FENCE_ROUND_FAIL (R613): LEASE_FENCE with cause 2; after the third failed round a device quench and FAILED. -/
def opFenceRoundFail (s : State) : State :=
  match s.dawn.fence with
  | none => s
  | some f =>
    let s := s.raise 0x0084 .alarm 0x40 (2 + 256 * cpCode f.former) s.dawn.leaseCounter
    if f.rounds + 1 < 3 then { s with dawn := { s.dawn with fence := some { f with rounds := f.rounds + 1 } } }
    else (s.deviceQuench.mainOff .failed s.power.nightCause true).dawnFails 0x13

/-! ### The commands of class 0x0B for firmware -/

/-- The banks of a kind: 1 firmware, 2 rule table. -/
def DawnSt.banks (d : DawnSt) (kind : Nat) : Banks := if kind = 1 then d.fw else d.rule

/-- Replace the banks of a kind. -/
def State.setBanks (s : State) (kind : Nat) (b : Banks) : State :=
  { s with dawn := if kind = 1 then { s.dawn with fw := b } else { s.dawn with rule := b } }

/-- The previous content of the inactive bank of a kind, and a pending mark on it, are lost (R620). -/
def State.loseBank (s : State) (kind : Nat) : State :=
  let x := s.dawn.banks kind
  s.setBanks kind { x with pending := false, banks := Tab.set x.banks (1 - x.active) {} }

/-- From its admission a FW.STAGE of a kind that exists loses the bank it is to fill (R620). -/
def State.admitStage (s : State) (c : Cmd) : State :=
  let kind := u8 c.block 0
  if kind = 1 ∨ kind = 2 then s.loseBank kind else s

/-- FW.STAGE (R619, R620), its image read with the given outcome. -/
def opFwStage (fault : RunFault) (c : Cmd) (s : State) : Chk Fin := do
  let b := c.block
  blockLen c 32
  let kind := u8 b 0
  let len := u32 b 16
  field (1 ≤ kind && kind ≤ 2) 0
  field (zeroAt b 1 7) 1
  field (aligned64 (u64 b 8)) 8
  field (trailerLen ≤ len && bodyLenValid kind (len - trailerLen)) 16
  field (zeroAt b 20 12) 20
  let s := s.loseBank kind
  match fault with
  | .ide => doneWith s .authFail
  | .hostAccess | .window => doneWith s .fwReadFault
  | _ =>
    let bank := bankOf kind (s.hostRead c.fn (u64 b 8) len)
    if !bank.valid then doneWith s .fwImageInvalid
    else if bank.svn < (s.dawn.banks kind).counter then doneWith s .fwRollback
    else doneWith (s.commit c (.fwStage kind bank))

/-- The kinds a KIND_MASK names. -/
def kindsOf (mask : Nat) : List Nat := (if bitOf mask 0 then [1] else []) ++ (if bitOf mask 1 then [2] else [])

/-- FW.ACTIVATE (R619, R621). -/
def opFwActivate (c : Cmd) (s : State) : Chk Fin := do
  let b := c.block
  blockLen c 16
  let mask := u8 b 0
  let now := u8 b 1
  field (mask ≤ 3 && (now == 1 || mask != 0)) 0
  field (now ≤ 1) 1
  field (zeroAt b 2 2) 2
  field (u32 b 4 == (if now == 1 then 0x52455354 else 0)) 4
  field (zeroAt b 8 8) 8
  let ks := kindsOf mask
  need (ks.all fun k => (s.dawn.banks k).inactiveBank.valid) .fwImageInvalid
  need (ks.all fun k => (s.dawn.banks k).counter ≤ (s.dawn.banks k).inactiveBank.svn) .fwRollback
  doneWith (s.commit c (.fwPending ks (now == 1)))

/-- A FW.ACTIVATE settles: the banks are pending, and a restart falls due at the next boundary (R621). -/
def State.commitActivate (s : State) (ks : List Nat) (restart : Bool) : State :=
  let s := ks.foldl (fun s k => s.setBanks k { s.dawn.banks k with pending := true }) s
  { s with power := { s.power with restartDue := s.power.restartDue || restart } }

/-- The kinds whose counter is below the SVN of the running image (R622). -/
def State.lowKinds (s : State) (ks : List Nat) : List Nat := ks.filter fun k => (s.dawn.banks k).counter < (s.dawn.banks k).activeBank.svn

/-- Kinds whose counter a FW.COMMIT before this one raises at settle. -/
def State.raising (s : State) : List Nat :=
  s.commits.flatMap fun p => match p.what with
    | .fwRaise ks => ks
    | _ => []

/-- A FW.COMMIT settles: each counter below its running SVN takes a slot (R607, R622). -/
def State.commitRaise (s : State) (ks : List Nat) : State :=
  (s.lowKinds ks).foldl (fun s k =>
    let x := s.dawn.banks k
    s.setBanks k { x with slots := x.activeBank.svn :: x.slots }) s

/-- FW.COMMIT (R607, R622). -/
def opFwCommit (c : Cmd) (s : State) : Chk Fin := do
  let b := c.block
  blockLen c 8
  let mask := u8 b 0
  field (1 ≤ mask && mask ≤ 3) 0
  field (zeroAt b 1 7) 1
  let low := (s.lowKinds (kindsOf mask)).filter fun k => !s.raising.contains k
  if low.isEmpty then doneWith s .okNote
  else do
    need (low.all fun k => (s.dawn.banks k).slots.length < 255) .svnSlotsExhausted
    doneWith (s.commit c (.fwRaise low))

/-- SVN of a bank in FW.QUERY: 0 where it is not valid. -/
def inactiveSvn (b : Banks) : Nat := if b.bankValid (1 - b.active) then b.inactiveBank.svn else 0

/-- FW.QUERY (R623). -/
def opFwQuery (c : Cmd) (s : State) : Chk Fin := do
  blockLen c 8
  let a := u64 c.block 0
  field (aligned64 a) 0
  let d := s.dawn
  let banks := bitNum (d.fw.bankValid (1 - d.fw.active)) + 2 * bitNum (d.rule.bankValid (1 - d.rule.active))
    + 4 * bitNum d.fw.pending + 8 * bitNum d.rule.pending
  doneWith (s.record c.fn a
    (layout 64 [(0, 1, d.fw.active), (1, 1, d.rule.active), (2, 1, banks), (3, 1, d.dawnResult), (4, 4, d.fw.activeBank.svn),
      (8, 4, d.rule.activeBank.svn), (12, 4, d.fw.counter), (16, 4, d.rule.counter), (20, 1, 255 - d.fw.slots.length),
      (21, 1, 255 - d.rule.slots.length), (24, 4, inactiveSvn d.fw), (28, 4, inactiveSvn d.rule), (32, 8, d.leaseCounter),
      (40, 1, cpCode d.holder), (48, 8, d.fences), (56, 8, d.dawns)]))

/-! ### The meanings of this file -/

def execStandbyPowerOn (s : State) : Out := .next (opStandbyPowerOn s)
def execStandbyPowerLoss (s : State) : Out := .next (opStandbyPowerLoss s)
def execDawnStart (d : DawnIn) (s : State) : Out := .next (opDawnStart d s).watchEvents
def execLeaseRenewal (cp : Cp) (count stroke offsetNs : Nat) (s : State) : Out :=
  .next (opLeaseMessage cp count stroke offsetNs s).watchEvents
def execLeaseLapse (s : State) : Out := .next (opLeaseLapse s).watchEvents
def execDoubleClaim (cp : Cp) (count stroke : Nat) (s : State) : Out := .next (opDoubleClaim cp count stroke s).watchEvents
def execLeaseRegrant (cpA cpB : Bool) (s : State) : Out := .next (opLeaseRegrant cpA cpB s)
def execFenceRoundFail (s : State) : Out := .next (opFenceRoundFail s).watchEvents
def execFwStage (c : Cmd) (s : State) : Out := .next (runCmd 0x0B01 c s (opFwStage .none c s))
def execFwActivate (c : Cmd) (s : State) : Out := .next (runCmd 0x0B02 c s (opFwActivate c s))
def execFwCommit (c : Cmd) (s : State) : Out := .next (runCmd 0x0B03 c s (opFwCommit c s))
def execFwQuery (c : Cmd) (s : State) : Out := .next (runCmd 0x0B04 c s (opFwQuery c s))

end Sys2Proof.Machine
end

