-- ==== Sys2Proof/Machine/Registers.lean ====
section
/-! DEFINITION. BAR0 registers and doorbells (19_register_map.md; 03 R78-R80; 14 R528). -/

namespace Sys2Proof.Machine

/-! ### Reaching a register -/

/-- BAR0 of a function takes an access (14 R517, R528, Table 14.6): the link is up, the function enabled and in D0, and a
locked TDI of a claimed compartment takes only the TEE attribute on its covering stream. -/
def State.mmio (s : State) (f : Fn) (tee : Bool) : Bool :=
  let guarded := match f with
    | .pf => false
    | .vf k => (s.comp k).claimed && decide ((s.fnOf f).tdi = .locked ∨ (s.fnOf f).tdi = .run)
  decide (s.power.main = .service) && s.host.up && s.enabledFn f && !(s.fnOf f).d3 && (!guarded || (tee && s.covered f))

/-- Modulus of the free-running counts (03 R78). -/
def count32 : Nat := 2 ^ 32

/-- Distance from one free-running count to another. -/
def ahead (upto from_ : Nat) : Nat := (upto + count32 - from_) % count32

/-- A submission ring of a function. -/
def FnState.ring (x : FnState) (n : Nat) : SqRing := Tab.get {} x.sq n

/-- Change a submission ring. -/
def State.modRing (s : State) (f : Fn) (n : Nat) (g : SqRing → SqRing) : State :=
  s.modFn f fun x => { x with sq := Tab.set x.sq n (g (x.ring n)) }

/-- A ring fault (03 R80): the ring-fault bit and an ERROR event, whose cause is a free value (log 6). -/
def State.ringFault (s : State) (f : Fn) (ring : Nat) : State :=
  let (c, s) := s.draw
  ((s.modRing f ring fun r => { r with faultDue := true }).setInt f 1).raise 0x0130 .error (fnScope f) ring c

/-- A reply-ring fault: reply writing of the function stops (03 R80); how the event names the ring is free (log 6). -/
def State.replyFault (s : State) (f : Fn) : State :=
  let (c, s) := s.draw
  let (n, s) := s.draw
  let s := s.modFn f fun x => { x with rqStopped := true, rq := { x.rq with faultDue := true } }
  (s.setInt f 1).raise 0x0130 .error (fnScope f) n c

/-! ### Doorbells -/

/-- The host's own stores to its memory (log 4). -/
def State.hostStores (s : State) (f : Fn) (l : List HostStore) : State := l.foldl (fun s x => s.hostWrite f x.addr x.bytes) s

/-- A tail doorbell (03 R78, R80; R662). -/
def State.writeTail (s : State) (f : Fn) (ring tail : Nat) : State :=
  let r := (s.fnOf f).ring ring
  let tail := tail % count32
  if r.st ≠ .enabled ∨ tail = r.tail then s
  else
    let s := s.modRing f ring fun r => { r with tail := tail }
    if 2 ^ r.sizeLog < ahead tail r.head then s.ringFault f ring else s

/-- The reply ring's host head (03 R79, R80; R662). -/
def State.writeReplyHead (s : State) (f : Fn) (head : Nat) : State :=
  let r := (s.fnOf f).rq
  let head := head % count32
  if r.st ≠ .enabled then s
  else
    let s := s.modFn f fun x => { x with rq := { x.rq with head := head } }
    if ahead r.tail r.head < ahead head r.head then s.replyFault f else s

/-- The event ring's host head (R662, R664). -/
def State.writeEventHead (s : State) (head : Nat) : State :=
  let r := s.watch.eq
  let head := head % count32
  if r.st ≠ .enabled then s
  else
    let s : State := { s with watch := { s.watch with eq := { r with head := head } } }
    if ahead r.tail r.head < ahead head r.head then
      let (c, s) := s.draw
      let (n, s) := s.draw
      let s : State := { s with watch := { s.watch with eq := { s.watch.eq with faultDue := true } } }
      (s.setInt .pf 1).raise 0x0130 .error 0x41 n c
    else s

/-! ### Ring control and geometry (R658, R661, Table 19.4) -/

/-- A CTRL write to a submission ring. -/
def State.writeSqCtrl (s : State) (f : Fn) (ring value : Nat) : State :=
  let r := (s.fnOf f).ring ring
  if r.st = .disabling ∧ bitOf value 0 then s.configError f
  else s.modRing f ring fun r => { r with enable := bitOf value 0, abortMode := bitOf value 1 }

/-- A CTRL write to a reply or event ring. -/
def OutRing.writeCtrl (r : OutRing) (value : Nat) : OutRing := { r with enable := bitOf value 0 }

/-- RING_CTRL_WRITE on an accepted access. -/
def State.writeCtrl (s : State) (f : Fn) (r : RingName) (value : Nat) : State :=
  match r with
  | .sq n => if n < 4 then s.writeSqCtrl f n value else s
  | .rq => s.modFn f fun x => { x with rq := x.rq.writeCtrl value }
  | .eq => if f = .pf then { s with watch := { s.watch with eq := s.watch.eq.writeCtrl value } } else s

/-- Replace one 32-bit half of a 64-bit register. -/
def setHalf (old : Nat) (high : Bool) (v : Nat) : Nat :=
  if high then old % 2 ^ 32 + v % 2 ^ 32 * 2 ^ 32 else old / 2 ^ 32 * 2 ^ 32 + v % 2 ^ 32

/-- A geometry register: the size, or a half of the base. -/
inductive GeomPart where
  | size
  | base (v : Nat)
  | half (high : Bool)
  deriving DecidableEq, Repr

/-- The base after a write. -/
def GeomPart.newBase (g : GeomPart) (old v : Nat) : Nat :=
  match g with
  | .size => old
  | .base w => w % 2 ^ 64
  | .half h => setHalf old h v

/-- SIZE_LOG2 after a write. -/
def GeomPart.newSize (g : GeomPart) (old v : Nat) : Nat :=
  match g with
  | .size => v % 32
  | _ => old

/-- A geometry write: discarded with CONFIG_ERROR unless the ring is DISABLED (R658). -/
def State.writeGeom (s : State) (f : Fn) (r : RingName) (g : GeomPart) (v : Nat) : State :=
  match r with
  | .sq n =>
    if 4 ≤ n then s
    else if ((s.fnOf f).ring n).st ≠ .disabled then s.configError f
    else s.modRing f n fun r => { r with base := g.newBase r.base v, sizeLog := g.newSize r.sizeLog v }
  | .rq =>
    if (s.fnOf f).rq.st ≠ .disabled then s.configError f
    else s.modFn f fun x => { x with rq := { x.rq with base := g.newBase x.rq.base v, sizeLog := g.newSize x.rq.sizeLog v } }
  | .eq =>
    if f ≠ .pf then s
    else
      let r := s.watch.eq
      if r.st ≠ .disabled then s.configError f
      else { s with watch := { s.watch with eq := { r with base := g.newBase r.base v, sizeLog := g.newSize r.sizeLog v } } }

/-! ### Interrupt registers and MSI-X -/

/-- Vector control of an MSI-X entry: masked after reset. -/
def FnState.vecMasked (x : FnState) (v : Nat) : Bool := bitOf (Tab.get 1 x.msixTable (4 * v + 3)) 0

/-- Send an MSI-X message, or leave it pending while its vector is masked (14 R519). -/
def State.sendMsix (s : State) (f : Fn) (v : Nat) : State :=
  s.modFn f fun x =>
    if x.vecMasked v then { x with msixPending := x.msixPending ||| 2 ^ v } else { x with msix := Tab.modify 0 x.msix v (· + 1) }

/-- A write to the MSI-X table: unmasking a vector sends its pending message (14 R519). All 32 bits of a vector-control word are stored
and read back, the reserved ones too (log 126). -/
def State.writeMsix (s : State) (f : Fn) (word v : Nat) : State :=
  let s := s.modFn f fun x => { x with msixTable := Tab.set x.msixTable word (v % 2 ^ 32) }
  let vec := word / 4
  if word % 4 = 3 ∧ v % 2 = 0 ∧ bitOf (s.fnOf f).msixPending vec then
    (s.modFn f fun x => { x with msixPending := x.msixPending - 2 ^ vec }).sendMsix f vec
  else s

/-- INT_STATUS, write one to clear: a bit that an event set in this stroke stays (R660). -/
def State.writeIntStatus (s : State) (f : Fn) (v : Nat) : State :=
  s.modFn f fun x =>
    { x with intStatus := (((upFrom 0 4).filter fun i => bitOf x.intStatus i && !(bitOf v i && !bitOf x.intEvents i)).map (2 ^ ·)).foldl (· + ·) 0 }

/-- INT_MASK: unmasking a bit that is already 1 counts as it becoming set (R660). -/
def State.writeIntMask (s : State) (f : Fn) (v : Nat) : State :=
  s.modFn f fun x =>
    let due := (upFrom 0 4).any fun i => bitOf x.intStatus i && bitOf x.intMask i && !bitOf v i
    { x with intMask := v % 16, statusDue := x.statusDue || due }

/-! ### A 32-bit write by offset (R654-R658, R665, R666) -/

/-- Ring and word offset of the submission-ring block. -/
def sqWord (off : Nat) : Nat × Nat := ((off - 0x100) / 0x40, (off - 0x100) % 0x40)

/-- A 32-bit write of a function register (Table 19.1). -/
def State.write32 (s : State) (f : Fn) (off v : Nat) : State :=
  if off = 0x0008 then s.writeIntStatus f v
  else if off = 0x000C then s.writeIntMask f v
  else if 0x0100 ≤ off ∧ off < 0x0200 then
    let (n, w) := sqWord off
    match w with
    | 0x00 => s.writeGeom f (.sq n) (.half false) v
    | 0x04 => s.writeGeom f (.sq n) (.half true) v
    | 0x08 => s.writeGeom f (.sq n) .size v
    | 0x0C => s.writeCtrl f (.sq n) v
    | 0x10 => s.writeTail f n v
    | _ => s
  else
    match off with
    | 0x0200 => s.writeGeom f .rq (.half false) v
    | 0x0204 => s.writeGeom f .rq (.half true) v
    | 0x0208 => s.writeGeom f .rq .size v
    | 0x020C => s.writeCtrl f .rq v
    | 0x0210 => s.writeReplyHead f v
    | 0x0400 => s.writeGeom f .eq (.half false) v
    | 0x0404 => s.writeGeom f .eq (.half true) v
    | 0x0408 => s.writeGeom f .eq .size v
    | 0x040C => s.writeCtrl f .eq v
    | 0x0410 => if f = .pf then s.writeEventHead v else s
    | _ =>
      let (table, len) := match f with
        | .pf => (0x10000, 0x80)
        | .vf _ => (0x8000, 0x40)
      if table ≤ off ∧ off < table + len then s.writeMsix f ((off - table) / 4) v
      else if f = .pf ∧ 0x800000 ≤ off ∧ off < 0x1000000 then s.configError f
      else s

/-- REGISTER_WRITE (R654-R656): naturally aligned 32-bit and 64-bit writes, any other discarded. -/
def opRegisterWrite (f : Fn) (tee : Bool) (off width v : Nat) (s : State) : State :=
  if !s.mmio f tee then s
  else if width = 4 ∧ off % 4 = 0 then s.write32 f off (v % 2 ^ 32)
  else if width = 8 ∧ off % 8 = 0 then (s.write32 f off (v % 2 ^ 32)).write32 f (off + 4) (v / 2 ^ 32 % 2 ^ 32)
  else if f = .pf ∧ 0x800000 ≤ off ∧ off < 0x1000000 then s.configError f
  else s

/-! ### Reads: what the registers show (the table has no row for a read) -/

/-- STATE of Table 19.4. -/
def RingSt.code : RingSt → Nat
  | .disabled => 0
  | .enabling => 1
  | .enabled => 2
  | .disabling => 3

/-- SQ_CTRL (Table 19.4). -/
def SqRing.ctrl (r : SqRing) : Nat := bitNum r.enable + 2 * bitNum r.abortMode + 16 * r.st.code + 64 * bitNum r.faulted

/-- RQ_CTRL and EQ_CTRL (Table 19.4). -/
def OutRing.ctrl (r : OutRing) : Nat := bitNum r.enable + 16 * r.st.code + 64 * bitNum r.faulted

/-- A virtual function is BOUND (14 R528). -/
def State.bound (s : State) : Fn → Bool
  | .pf => false
  | .vf k => (s.comp k).claimed && decide ((s.fnOf (.vf k)).tdi = .run) && (s.fnOf (.vf k)).bindOk

/-- FUNC_INFO (Table 19.2). -/
def State.funcInfo (s : State) (f : Fn) : Nat := fnCode f + 2 ^ 16 * bitNum (s.compOf f).claimed + 2 ^ 17 * bitNum (s.bound f)

/-- DEVICE_STATE (Table 19.9). -/
def State.deviceState (s : State) : Nat :=
  let p := s.power
  let code := if p.main = .service then p.state.code else 7
  code + 2 ^ 4 * p.supply + 2 ^ 8 * p.thermal + 2 ^ 12 * s.stroke.align.code + 2 ^ 16 * bitNum p.holdover
    + 2 ^ 17 * bitNum s.dawn.entropyOk + 2 ^ 18 * bitNum s.dawn.fence.isSome + 2 ^ 19 * bitNum (decide (p.main = .failed)) + 2 ^ 20 * p.cap

/-- LEASE (Table 19.10). -/
def State.leaseReg (s : State) : Nat :=
  match s.dawn.holder with
  | some .a => 0
  | some .b => 1
  | none => 3

/-- IDENT (Table 19.8). -/
def State.ident (s : State) : Nat :=
  0x00B1 + 2 ^ 16 * s.dawn.fw.activeBank.verMajor + 2 ^ 32 * s.dawn.fw.activeBank.verMinor + 2 ^ 48 * s.watch.table.format

/-- IDENT_EXT (Table 19.8). -/
def State.identExt (s : State) : Nat := s.dawn.lifecycle + 2 ^ 8 * s.dawn.dawnResult

/-- RULE_STATUS of a rule (Table 19.12). -/
def State.ruleStatus (s : State) (i : Nat) : Nat :=
  match s.watch.table.rules[i]? with
  | none => 0
  | some r =>
    let st := Tab.get {} s.watch.ruleSt i
    bitNum st.asserted + 2 * bitNum (isChanRule r && !(ruleInputs s.watch r).isEmpty) + 2 ^ 16 * st.ticks + 2 ^ 32 * st.assertions

/-- A 64-bit function register (Table 19.1), reads of the ring counters in a claimed compartment needing the TEE attribute
(R659). -/
def State.read64 (s : State) (f : Fn) (tee : Bool) (off : Nat) : Option Nat :=
  let x := s.fnOf f
  if 0x0100 ≤ off ∧ off < 0x0200 then
    let (n, w) := sqWord off
    match w with
    | 0x00 => some (x.ring n).base
    | 0x18 => some (x.ring n).nextSeq
    | _ => none
  else if off = 0x0200 then some x.rq.base
  else if 0x0300 ≤ off ∧ off < 0x0340 ∧ off % 8 = 0 then
    some (if f = .pf || (tee && s.covered f && (s.compOf f).claimed) then Tab.get 0 x.counters ((off - 0x300) / 8) else 0)
  else if off = 0x0400 ∧ f = .pf then some s.watch.eq.base
  else if f ≠ .pf then none
  else
    match off with
    | 0x100000 => some s.ident
    | 0x100010 => some s.dawn.serial
    | 0x100018 => some s.stroke.number
    | 0x100028 => some s.dawn.leaseCounter
    | 0x100038 => some s.stroke.configEpoch
    | _ => if 0x820000 ≤ off ∧ off < 0x822000 ∧ off % 8 = 0 then some (s.ruleStatus ((off - 0x820000) / 8)) else none

/-- A 32-bit register (Table 19.1, Table 19.7, Table 19.11, the MSI-X structures); unlisted offsets read zero. -/
def State.read32 (s : State) (f : Fn) (off : Nat) : Nat :=
  let x := s.fnOf f
  if 0x0100 ≤ off ∧ off < 0x0200 then
    let (n, w) := sqWord off
    match w with
    | 0x08 => (x.ring n).sizeLog
    | 0x0C => (x.ring n).ctrl
    | 0x10 => (x.ring n).tail
    | 0x14 => (x.ring n).head
    | _ => 0
  else
    match off with
    | 0x0000 => s.funcInfo f
    | 0x0008 => x.intStatus
    | 0x000C => x.intMask
    | 0x0208 => x.rq.sizeLog
    | 0x020C => x.rq.ctrl
    | 0x0210 => x.rq.head
    | 0x0214 => x.rq.tail
    | _ =>
      match f with
      | .vf _ =>
        if 0x8000 ≤ off ∧ off < 0x8040 then Tab.get (if off % 16 = 12 then 1 else 0) x.msixTable ((off - 0x8000) / 4)
        else if off = 0xC000 then x.msixPending else 0
      | .pf =>
        match off with
        | 0x0408 => s.watch.eq.sizeLog
        | 0x040C => s.watch.eq.ctrl
        | 0x0410 => s.watch.eq.head
        | 0x0414 => s.watch.eq.tail
        | 0x18000 => x.msixPending
        | 0x100008 => s.identExt
        | 0x100020 => s.deviceState
        | 0x100030 => s.leaseReg
        | _ =>
          if 0x10000 ≤ off ∧ off < 0x10080 then Tab.get (if off % 16 = 12 then 1 else 0) x.msixTable ((off - 0x10000) / 4)
          else if 0x800000 ≤ off ∧ off < 0x810000 then u32 s.dawn.rule.activeBank.image (off - 0x800000)
          else if 0x810000 ≤ off ∧ off < 0x820000 then u32 s.dawn.rule.inactiveBank.image (off - 0x810000)
          else 0

/-- A 32-bit half of any register, with the latch of R654. -/
def State.readHalf (s : State) (f : Fn) (tee : Bool) (off : Nat) : Nat × State :=
  match s.read64 f tee off with
  | some v => (v % 2 ^ 32, s.modFn f fun x => { x with latch := Tab.set x.latch (off + 4) (v / 2 ^ 32) })
  | none =>
    match s.read64 f tee (off - 4) with
    | some v =>
      if off < 4 then (s.read32 f off, s)
      else ((Tab.find? (s.fnOf f).latch off).getD (v / 2 ^ 32), s.modFn f fun x => { x with latch := Tab.del x.latch off })
    | none => (s.read32 f off, s)

/-- What a host read of BAR0 returns and latches (R654). -/
def State.readReg (s : State) (f : Fn) (tee : Bool) (off width : Nat) : Nat × State :=
  if !s.mmio f tee then (0, s)
  else if width = 4 ∧ off % 4 = 0 then s.readHalf f tee off
  else if width = 8 ∧ off % 8 = 0 then
    match s.read64 f tee off with
    | some v => (v, s)
    | none => (s.read32 f off + 2 ^ 32 * s.read32 f (off + 4), s)
  else (0, s)

/-! ### The meanings of this file -/

def execSqTail (f : Fn) (tee : Bool) (ring tail : Nat) (stores : List HostStore) (s : State) : Out :=
  let s := s.hostStores f stores
  .next (if s.mmio f tee && ring < 4 then s.writeTail f ring tail else s).watchEvents
def execRqHead (f : Fn) (tee : Bool) (head : Nat) (s : State) : Out :=
  .next (if s.mmio f tee then s.writeReplyHead f head else s).watchEvents
def execEqHead (head : Nat) (s : State) : Out := .next (if s.mmio .pf false then s.writeEventHead head else s).watchEvents
def execRingCtrlWrite (f : Fn) (tee : Bool) (r : RingName) (value : Nat) (s : State) : Out :=
  .next (if s.mmio f tee then s.writeCtrl f r value else s)
def execRingGeometryWrite (f : Fn) (tee : Bool) (r : RingName) (size : Bool) (value : Nat) (s : State) : Out :=
  .next (if s.mmio f tee then s.writeGeom f r (if size then .size else .base value) value else s)
def execIntStatus (f : Fn) (tee : Bool) (value : Nat) (s : State) : Out :=
  .next (if s.mmio f tee then s.writeIntStatus f value else s)
def execIntMask (f : Fn) (tee : Bool) (value : Nat) (s : State) : Out := .next (if s.mmio f tee then s.writeIntMask f value else s)
def execRegisterWrite (f : Fn) (tee : Bool) (offset width value : Nat) (s : State) : Out :=
  .next (opRegisterWrite f tee offset width value s).watchEvents

end Sys2Proof.Machine
end

