-- ==== Sys2Proof/Machine/Attest.lean ====
section
/-! DEFINITION. Measurements, attestation reports and KEY.DESTROY (11 R420, R421, R435; 02 R57; 07 R270). -/

namespace Sys2Proof.Machine

/-! ### Measurement blocks (11 R420) -/

/-- A block in the DMTF layout. -/
def measBlock (index type : Nat) (v : List Byte) : List Byte :=
  [BitVec.ofNat 8 index, 1] ++ leBytes (v.length + 3) 2 ++ [BitVec.ofNat 8 type] ++ leBytes v.length 2 ++ v

/-- LEASE_HOLDER. -/
def holderCode : Option Cp → Nat
  | some .b => 1
  | _ => 0

/-- Block 5, the device state (11 Table 11.4). -/
def State.deviceBlock (s : State) : List Byte :=
  let fw := s.dawn.fw.activeBank
  layout 64 [(0, 2, 0x00B1), (2, 2, fw.verMajor), (4, 2, fw.verMinor), (6, 2, s.watch.table.format), (8, 1, s.dawn.lifecycle),
    (9, 1, holderCode s.dawn.holder), (10, 2, s.stroke.period), (12, 1, bitNum s.stroke.burst), (13, 1, s.stroke.align.code),
    (16, 8, s.stroke.configEpoch), (24, 8, s.stroke.number), (32, 4, s.dawn.fw.counter), (36, 4, s.dawn.rule.counter),
    (40, 1, bitNum s.dawn.entropyOk)]

/-- Image identifier and digest of a slot that a compartment is attached to; zero otherwise (07 R270). -/
def State.slotBlock (s : State) (x : Comp) (slot : Nat) : Nat × List Byte :=
  if (x.aliases slot).isEmpty then (0, padTo 48 []) else ((s.baseSlot slot).imageId, padTo 48 (s.baseSlot slot).digest)

/-- Block 6, the state of a compartment (11 Table 11.5; 02 R57). -/
def State.compBlock (s : State) (k : Nat) : List Byte :=
  let x := s.comp k
  let g := s.groupOf k
  let (i0, d0) := s.slotBlock x 0
  let (i1, d1) := s.slotBlock x 1
  let members := (g.map fun p => p.2.members).getD 0
  let consent (j : Nat) : List Byte :=
    padTo 48 (((g.bind fun p => p.2.consents.find? fun y => y.comp == j && y.members == members).map (·.hash)).getD [])
  layout 80 [(0, 1, k), (1, 1, bitNum x.slice.openFill), (2, 2, x.slice.first), (4, 2, x.slice.count), (6, 1, (g.map (·.1)).getD 0xFF),
      (7, 1, bitNum ((g.map fun p => p.2.active).getD false)), (8, 8, members), (16, 8, s.stroke.configEpoch), (24, 2, x.tagQuota),
      (26, 2, x.streamQuota), (28, 4, x.domainQuota), (32, 2, x.residentQuota), (34, 2, x.keyQuota), (40, 8, x.hearthUnits * 2 ^ 26),
      (48, 8, x.hbmGib * 2 ^ 30), (56, 1, x.policy.cap), (60, 4, x.policy.window), (64, 4, x.policy.hot), (68, 4, x.policy.cold),
      (72, 1, bitNum (!(x.aliases 0).isEmpty) + 2 * bitNum (!(x.aliases 1).isEmpty)), (73, 1, bitNum x.claimed)]
    ++ tenantDigest x ++ leBytes i0 4 ++ leBytes i1 4 ++ d0 ++ d1 ++ leBytes x.tenancy 8 ++ padTo 16 []
    ++ (bitList members 64).flatMap consent

/-- The value of block i for a function, with its DMTF type; none where the block is absent (11 Table 11.3). -/
def State.measValue (s : State) (f : Fn) (i : Nat) : Option (Nat × List Byte) :=
  let fw := imageDigest s.dawn.fw.activeBank.image
  match i with
  | 1 => some (0x00, sha384 Config.bootRoms)
  | 2 => some (0x01, fw)
  | 3 => some (0x01, fw)
  | 4 => some (0x03, imageDigest s.dawn.rule.activeBank.image)
  | 5 => some (0x82, s.deviceBlock)
  | 6 => match f with
    | .pf => none
    | .vf k => some (0x83, s.compBlock k)
  | _ => none

/-- The blocks with the given indices that a function receives. -/
def State.measBlocks (s : State) (f : Fn) (l : List Nat) : List (List Byte) :=
  l.filterMap fun i => (s.measValue f i).map fun p => measBlock i p.1 p.2

/-- The report of a function: every block (11 R420). -/
def State.report (s : State) (f : Fn) : List Byte := (s.measBlocks f [1, 2, 3, 4, 5, 6]).flatten

/-- GET_MEASUREMENTS (11 R413, R420): index 0 asks for the count, 0xFF for every block; a signed answer keeps its ML-DSA-87
signature (R414). -/
def opGetMeasurements (f : Fn) (index : Nat) (sign : Bool) (m : List Byte) (s : State) : State :=
  negotiated f s fun s =>
    let all := s.measBlocks f [1, 2, 3, 4, 5, 6]
    let sig := if sign then s.ecdsaSign m else []
    let give (blocks : List Byte) (n : Nat) : State :=
      if sign then s.answerSigned f (.measurements n blocks sig) m else s.answer f (.measurements n blocks sig)
    if index = 0 then give [] all.length
    else if index = 0xFF then give all.flatten all.length
    else match s.measValue f index with
      | some p => give (measBlock index p.1 p.2) 1
      | none => s.answer f (.error .invalidRequest)

/-- An attestation record (11 R421). -/
def State.attestRecord (s : State) (f : Fn) (nonce blocks : List Byte) : List Byte :=
  let body := padTo (64 * ceilDiv blocks.length 64) blocks
  let total := 64 + body.length + 128 + 4672
  let hdr := layout 16 [(0, 1, 1), (1, 1, fnCode f), (2, 2, blocks.length), (4, 4, total), (8, 8, s.stroke.number)] ++ padTo 32 nonce ++ padTo 16 []
  let m := hdr ++ body
  m ++ padTo 128 (s.ecdsaSign m) ++ padTo 4672 (s.mldsaSign (ascii "KDW-D4 report v1") m)

/-- ATTEST.REPORT (11 R420, R421, R442). -/
def opAttestReport (c : Cmd) (s : State) : Chk Fin := do
  let b := c.block
  blockLen c 48
  field (aligned64 (u64 b 32)) 32
  let len := u32 b 40
  field (64 ≤ len && len ≤ 65536 && len % 64 == 0) 40
  field (u32 b 44 == 0) 44
  let r := s.attestRecord c.fn (b.take 32) (s.report c.fn)
  if len < r.length then doneWith s .okNote r.length
  else doneWith (s.record c.fn (u64 b 32) r) .ok r.length

/-! ### KEY.DESTROY (11 R435) -/

/-- A result that waits for settle names a key handle. -/
def Commit.usesKey (k h : Nat) : Commit → Bool
  | .tensorNew j _ t => j == k && t.base.isNone && t.keyRef == h
  | .varNew j _ v => j == k && v.keyHandle == h
  | _ => false

/-- Something of the function names a key handle, or will at this stroke's settle. -/
def State.keyInUse (s : State) (f : Fn) (h : Nat) : Bool :=
  match f with
  | .pf => s.bases.any fun p => decide (p.2.st ≠ .empty) && p.2.key == h
  | .vf k => (s.comp k).tensors.any (fun p => p.2.base.isNone && p.2.keyRef == h) || (s.comp k).variants.any (fun p => p.2.keyHandle == h)
    || s.commits.any fun p => p.what.usesKey k h

/-- Where a command's block names a key handle. -/
def keyFieldOf (op : Nat) : Option Nat :=
  match op with
  | 0x0211 => some 0
  | 0x0212 => some 0
  | 0x0213 => some 0
  | 0x0214 => some 0
  | 0x0302 => some 18
  | 0x0601 => some 4
  | 0x0610 => some 0
  | 0x0723 => some 6
  | 0x0724 => some 6
  | 0x0A12 => some 0
  | _ => none

/-- An admitted command names a key handle. -/
def namesKey (f : Fn) (h : Nat) (a : Adm) : Bool :=
  admOfFn f a && match keyFieldOf a.op with
    | some o => u16 a.cmd.block o == h
    | none => false

/-- Mark a key as being destroyed from an admission order, or no longer. -/
def State.markKey (s : State) (f : Fn) (h : Nat) (order : Option Nat) : State :=
  match s.keyEntry f h with
  | some e => s.setKey f h { e with destroying := order }
  | none => s

/-- From the destroy's admission the handle holds no live key (11 R435). -/
def State.admitDestroy (s : State) (c : Cmd) : State :=
  let h := u16 c.block 0
  match s.keyEntry c.fn h with
  | some e => if h != 0 && e.destroying.isNone then s.markKey c.fn h (some c.order) else s
  | none => s

/-- KEY.DESTROY (11 R435): it waits for commands admitted earlier that name the handle. -/
def opKeyDestroy (c : Cmd) (s : State) : Chk Fin := do
  let b := c.block
  blockLen c 8
  let h := u16 b 0
  field (1 ≤ keyHandleKind h && keyHandleKind h ≤ 3) 0
  field (zeroAt b 2 6) 2
  need (kindAllowed c.fn (keyHandleKind h)) .notPermitted
  match s.keyEntry c.fn h with
  | none => .error ⟨.keyAbsent, 0⟩
  | some e =>
    if !(e.destroying.isNone || e.destroying == some c.order) then .error ⟨.keyAbsent, 0⟩
    else
      let s := s.markKey c.fn h (some c.order)
      if s.queue.any fun a => a.cmd.order < c.order && namesKey c.fn h a then .ok (.wait s)
      else if s.keyInUse c.fn h then doneWith (s.markKey c.fn h none) .keyInUse
      else doneWith (s.commit c (.keyDestroy h))

/-- The erasure commits: the key is gone, and tracing under it ends (11 R435; 16 R590). -/
def State.commitDestroy (s : State) (f : Fn) (h : Nat) : State :=
  let s := s.setKeyTable f (Tab.del (s.keyTable f) (keyHandleIndex h))
  match f with
  | .pf => s
  | .vf k => s.modComp k fun x => match x.trace with
    | some t => if t.key = h then { x with traceEnd := some 2 } else x
    | none => x

/-- A destroy that is no longer admitted is given up. -/
def State.keyCleanup (s : State) (f : Fn) : State :=
  let here (o : Nat) : Bool := s.queue.any fun a => a.cmd.order == o
  s.setKeyTable f ((s.keyTable f).map fun p => (p.1, { p.2 with destroying := p.2.destroying.filter here }))

/-! ### The meanings -/

def execGetMeasurements (f : Fn) (index : Nat) (sign : Bool) (message : List Byte) (s : State) : Out :=
  .next (opGetMeasurements f index sign message s)
def execAttestReport (c : Cmd) (s : State) : Out := .next (runCmd 0x0202 c s (opAttestReport c s))
def execKeyDestroy (c : Cmd) (s : State) : Out := .next (runCmd 0x0214 c s (opKeyDestroy c s))

/-- Check 4 on a diagnostic command (00 R10): NOT_PERMITTED in DEPLOYED and RETIRED and from a virtual function; a permitted
one completes with BAD_OPCODE, as R10 lets a part do for every one. -/
def diagnosticStatus (lifecycle : Nat) (f : Fn) : Status :=
  if lifecycle = 3 ∨ lifecycle = 4 ∨ f ≠ .pf then .notPermitted else .badOpcode

/-- DIAGNOSTIC_COMMAND (00 R10, Table 0.3). -/
def execDiagnosticCommand (c : Cmd) (s : State) : Out :=
  .next (if s.serving then s.reply c 0xF000 (diagnosticStatus s.dawn.lifecycle c.fn) 0 else s)

end Sys2Proof.Machine
end

