-- ==== Sys2Proof/Machine/Links.lean ====
section
/-! DEFINITION. Optical ports: training, flits, messages, keys, alignment and peer memory (13 R474-R499), with the commands
LINK.CONFIG, LINK.ENABLE, LINK.QUERY, CELL.SET, ROUTE.SET and SPAN.SET. -/

namespace Sys2Proof.Machine

/-! ### Completion of LINK.ENABLE and the loss of a link -/

/-- Complete the LINK.ENABLE that waits on a port (13 R485). -/
def State.finishLink (s : State) (p : Nat) (st : Status) (detail : Nat := 0) : State :=
  let o := (s.port p).order
  let s := s.modPort p fun x => { x with order := none }
  match o.bind s.admOf with
  | some a => s.reply a.cmd a.op st detail
  | none => s

/-- What a port keeps when it leaves training or service: its counts, its limits and the command that waits. -/
def Port.idle (x : Port) (st : PortSt) : Port :=
  { st, maxLanes := x.maxLanes, lastDown := x.lastDown, probes := x.probes, corrected := x.corrected, uncorrectable := x.uncorrectable
    corrupt := x.corrupt, downs := x.downs, order := x.order, timeoutMs := x.timeoutMs }

/-- LAST_DOWN (13 Table 13.10). -/
inductive Down where
  | disabled
  | light
  | retry
  | keyEnd
  | rejected
  | refused
  | timeout
  deriving DecidableEq, Repr

/-- Its code. -/
def Down.code : Down → Nat
  | .disabled => 1
  | .light => 2
  | .retry => 3
  | .keyEnd => 4
  | .rejected => 5
  | .refused => 6
  | .timeout => 7

/-- Messages not wholly acknowledged on a port, each once (13 R490). -/
def Port.unsent (x : Port) : List LinkMsg :=
  ((x.retry.map (·.msg) ++ x.outbox.map fun o => o.2.2.2).filter fun m => !m.isMembers).eraseDups

/-- The newest MEMBERSHIP message not wholly acknowledged on a port. -/
def Port.unsentMembers (x : Port) : Option LinkMsg := ((x.retry.map (·.msg) ++ x.outbox.map fun o => o.2.2.2).filter (·.isMembers)).getLast?

/-- With no UP port left the device is standalone and its own reference (13 R492); ALIGN_OFFSET, without a new measurement, is then 0
(log 123). -/
def State.leaveSet (s : State) : State :=
  if s.link.ports.any fun p => decide (p.2.st = .up) then s
  else
    { s with
      link := { s.link with members := [], ref := none }
      stroke := { s.stroke with align := .standalone, alignOffset := 0, refMissing := 0 } }

/-- A port leaves its state for another: keys and segment state go, LAST_DOWN is noted, and what was not acknowledged takes
another route or is dropped (13 R488, R490). -/
def State.portLeave (s : State) (p : Nat) (dst : PortSt) (why : Down) : State :=
  let x := s.port p
  let s := s.setPort p { x.idle dst with lastDown := why.code }
  (x.unsent.foldl State.routeMsg s).leaveSet

/-- A port goes DOWN (13 R490; 19 Table 19.3): it counts, LINK_OR_TDI is set and an ERROR event is raised; the port returns to
PROBE, or is DARK after a rejection, a refused join, a limit or a disable (log 95). -/
def State.portDown (s : State) (p : Nat) (why : Down) (dst : PortSt := .probe) : State :=
  let s := s.portLeave p dst why
  ((s.modPort p fun x => { x with downs := sat64 x.downs 1 }).setInt .pf 3).raise 0x0122 .error 0x40 p why.code

/-! ### Training (13 R485, R489; 18 R649) -/

/-- Change the state in a port state only (log 2). -/
def atPort (p : Nat) (l : List PortSt) (s : State) (f : State → State) : State := if p < 16 ∧ l.contains (s.port p).st then f s else s

/-- LINK_PROBE_BURST: a burst of training pattern (13 Table 13.4). -/
def opProbeBurst (p : Nat) (s : State) : State := atPort p [.probe] s fun s => s.modPort p fun x => { x with probes := x.probes + 1 }

/-- LIGHT_DETECT: light on at least two lanes takes PROBE to LOCK (13 Table 13.4). -/
def opLightDetect (p lanes : Nat) (s : State) : State :=
  atPort p [.probe] s fun s => if 2 ≤ lanes then s.modPort p fun x => { x with st := .lock } else s

/-- The largest width that a limit and a number of lanes allow (13 R475). -/
def widthOf (limit n : Nat) : Nat := if 8 ≤ min limit n then 8 else if 4 ≤ min limit n then 4 else if 2 ≤ min limit n then 2 else 0

/-- LANE_LOCK: the width is chosen and the link enters IDENTIFY, both flit counters at 0; fewer than two lanes fail (13 R475,
R476). -/
def opLaneLock (p : Nat) (lanes : List Nat) (s : State) : State :=
  atPort p [.lock] s fun s =>
    let ls := (upFrom 0 8).filter fun i => lanes.contains i
    let w := widthOf (s.port p).maxLanes ls.length
    if w = 0 then s.modPort p fun x => x.idle .probe
    else s.modPort p fun x => { x.idle .identify with width := w, lanes := ls.take w }

/-- LOCK_TIMEOUT: 20 ms in LOCK (13 Table 13.4). -/
def opLockTimeout (p : Nat) (s : State) : State := atPort p [.lock] s fun s => s.modPort p fun x => x.idle .probe

/-- IDENTIFY_TIMEOUT: 50 ms in IDENTIFY (13 Table 13.4). -/
def opIdentifyTimeout (p : Nat) (s : State) : State := atPort p [.identify] s fun s => s.modPort p fun x => x.idle .probe

/-- ALIGN_TIMEOUT: 64 strokes in ALIGN (13 Table 13.4). -/
def opAlignTimeout (p : Nat) (s : State) : State :=
  atPort p [.align] s fun s =>
    if s.stroke.number ≥ (s.port p).alignSince + 64 then (s.portDown p .timeout .dark).finishLink p .linkTrainTimeout else s

/-- LINK_TRAIN_TIMEOUT: TIMEOUT_MS expires in PROBE (13 Table 13.4); the port stops probing (log 37). -/
def opLinkTrainTimeout (p : Nat) (s : State) : State :=
  atPort p [.probe] s fun s =>
    if (s.port p).order.isSome ∧ (s.port p).timeoutMs ≠ 0 then (s.portDown p .timeout .dark).finishLink p .linkTrainTimeout else s

/-- LOSS_OF_LIGHT: no light on any lane for 50 us (13 R489). -/
def opLossOfLight (p : Nat) (s : State) : State := atPort p [.lock, .identify, .align, .up] s fun s => s.portDown p .light

/-! ### Peer admission and keys (13 R486-R488, R491, R492) -/

/-- A port refuses its peer and goes DARK (13 R486, R490, R494). -/
def State.refuseLink (s : State) (p : Nat) (why : Down) (st : Status) (detail : Nat := 0) : State := (s.portDown p why .dark).finishLink p st detail

/-- The peer passes R486 but for its NODE_ID. -/
def State.peerAdmitted (s : State) (m : IdentMsg) : Bool :=
  m.chainsOk && m.reportsOk && m.blocks == (s.measBlocks .pf [1, 2, 3, 4]).flatten && m.stepping == 0x00B1 && m.lifecycle == s.dawn.lifecycle

/-- A NODE_ID stands in a set for another device: the same node with another incarnation (13 R486, R491; log 38). -/
def nodeClash (l : List Member) (m : Member) : Bool := l.any fun x => x.node == m.node && x.incarnation != m.incarnation

/-- A device stands in a set's list, with its incarnation. -/
def listed (l : List Member) (m : Member) : Bool := l.any fun x => x.node == m.node && x.incarnation == m.incarnation

/-- This device as a member. -/
def State.self (s : State) : Member := { node := s.link.node.getD 0xFFFF, incarnation := s.link.incarnation, priority := s.link.priority }

/-- The better reference of a split part: higher ALIGN_PRIORITY, then lower NODE_ID (13 R492). -/
def betterRef (a b : Member) : Member := if a.priority > b.priority ∨ (a.priority = b.priority ∧ a.node ≤ b.node) then a else b

/-- The reference elected from a member list (13 R492). -/
def electRef (l : List Member) : Option Nat :=
  match l with
  | [] => none
  | a :: r => some (r.foldl betterRef a).node

/-- The reference after a link joins this device and a peer (13 R492). -/
def State.joinRef (s : State) (m : IdentMsg) : Option Nat :=
  match s.link.ref, m.ref with
  | some r, _ => some r
  | none, some r => some r
  | none, none =>
    if s.stroke.number > m.stroke then some s.self.node
    else if s.stroke.number < m.stroke then some m.peer.node
    else some (betterRef s.self m.peer).node

/-- Union of member lists by NODE_ID, the later entry in force. -/
def unionMembers (l : List Member) : List Member := l.foldl (fun acc m => (acc.filter fun x => x.node != m.node) ++ [m]) []

/-- IDENTIFY_MESSAGE (a device that would be a set's 8,193rd member is refused before its NODE_ID, which 13 bits make a clash, is looked
at: 13 R491; 13 R486, R487, R491, R492): the peer is admitted with keys installed, or refused. A side that is its
set's reference, or already aligned, is UP; the joining side stays in ALIGN for STROKE_JOIN. -/
def opIdentify (p : Nat) (m : IdentMsg) (s : State) : State :=
  atPort p [.identify] s fun s =>
    let reject (s : State) : State := (s.refuseLink p .rejected .linkPeerRejected).raise 0x0123 .error 0x40 p m.peer.node
    let same := s.link.members.any fun x => x.node == m.peer.node
    if !s.peerAdmitted m then reject s
    else if s.link.members.isEmpty ∧ 8192 ≤ m.members.length ∧ !listed m.members s.self then s.refuseLink p .refused .noResource
    else if nodeClash m.members s.self then s.refuseLink p .rejected .nodeConflict
    else if nodeClash s.link.members m.peer ∨ m.peer.node = s.self.node then reject s
    else if !same ∧ !s.link.members.isEmpty ∧ !m.members.isEmpty then s.refuseLink p .refused .joinRefused 4
    else if (unionMembers (s.link.members ++ m.members ++ [s.self, m.peer])).length > 8192 then s.refuseLink p .refused .noResource
    else
      let (d, s) := s.draw
      let z := Config.sharedSecret d m.ecdh m.mlkem
      let ref := s.joinRef m
      let member := !s.link.members.isEmpty
      let up := ref == some s.self.node || (member && decide (s.stroke.align = .aligned))
      let (t, s) := s.draw
      let s := s.modPort p fun x =>
        { x with st := if up then .up else .align, alignSince := s.stroke.number, peer := some m.peer.node
                 rttNs := t % 2601, initiator := s.self.node < m.peer.node, prk := hkdfExtract (sha384 m.transcript) z, keyEpoch := 0 }
      let s : State :=
        { s with
          link := { s.link with ref, members := unionMembers (s.link.members ++ m.members ++ [s.self, m.peer]) }
          stroke := if up then { s.stroke with align := .aligned } else s.stroke }
      if up then (s.tellMembers none).finishLink p .ok else s

/-- Key and LINK_SALT of a direction in a key epoch (13 R487). -/
def linkKey (prk : List Byte) (dir epoch : Nat) : List Byte × List Byte :=
  let k := hkdfExpand prk (ascii "KDW-D4 link v1" ++ leBytes dir 1 ++ leBytes epoch 4) 36
  (k.take 32, k.drop 32)

/-- The keys of a direction (0 initiator to responder) at a flit counter: the next epoch's from its start (13 R488). -/
def Port.keyAt (x : Port) (dir count : Nat) : List Byte × List Byte :=
  match x.nextPrk with
  | some (start, prk) => if start ≤ count then linkKey prk dir (x.keyEpoch + 1) else linkKey x.prk dir x.keyEpoch
  | none => linkKey x.prk dir x.keyEpoch

/-- Directions as this side sees them. -/
def Port.txDir (x : Port) : Nat := if x.initiator then 0 else 1
def Port.rxDir (x : Port) : Nat := if x.initiator then 1 else 0

/-- Both directions have passed the start of the next epoch: it is the current one (13 R488). -/
def Port.settleEpoch (x : Port) : Port :=
  match x.nextPrk with
  | some (start, prk) =>
    if start ≤ x.txCount ∧ start ≤ x.rxCount then { x with prk, keyEpoch := x.keyEpoch + 1, epochStart := start, nextPrk := none } else x
  | none => x

/-- REKEY (13 R488): after 2^36 slots of an epoch fresh values are exchanged; the next epoch starts at the counter that the
initiator names, at least 4,096 slots ahead. -/
def opRekey (p : Nat) (ecdh mlkem messages : List Byte) (start : Nat) (s : State) : State :=
  atPort p [.up] s fun s =>
    let x := s.port p
    let n := max x.txCount x.rxCount
    if x.epochStart + 2 ^ 36 ≤ n ∧ x.nextPrk.isNone ∧ n + 4096 ≤ start then
      let (d, s) := s.draw
      let prk := hkdfExtract (sha384 messages) (Config.sharedSecret d ecdh mlkem ++ x.prk)
      s.modPort p fun x => { x with nextPrk := some (start, prk) }
    else s

/-- KEY_END (13 R488): a key reaches 2^40 slots. -/
def opKeyEnd (p : Nat) (s : State) : State :=
  atPort p [.up] s fun s =>
    let x := s.port p
    if x.epochStart + 2 ^ 40 ≤ max x.txCount x.rxCount then s.portDown p .keyEnd else s

/-! ### Flits (13 R476-R482) -/

/-- The four header bytes (13 Table 13.2). -/
def flitHeader (kind vc : Nat) (last nak seg ackSeg : Bool) (ack seq : Nat) : List Byte :=
  leBytes (kind * 2 ^ 30 + vc * 2 ^ 28 + bitNum last * 2 ^ 27 + bitNum nak * 2 ^ 26 + bitNum seg * 2 ^ 25 + bitNum ackSeg * 2 ^ 24 + ack * 4096 + seq) 4

/-- Encrypt one flit at the sender's counter (13 R477, R478). -/
def Port.seal (x : Port) (hdr payload : List Byte) : List Byte :=
  let (key, salt) := x.keyAt x.txDir x.txCount
  let (ct, tag) := gcmSeal key (salt ++ beBytes x.txCount 8) hdr (padTo 240 payload)
  hdr ++ ct ++ tag.take 12

/-- Send a flit: the counter advances by one (13 R476). -/
def Port.send (x : Port) (kind vc : Nat) (last : Bool) (seq : Nat) (payload : List Byte) : Port :=
  let hdr := flitHeader kind vc last x.nak (kind == 1 && x.txSeg) x.rxSeg x.rxSeq seq
  { x with sent := if x.prk.isEmpty then [] else x.seal hdr payload, txCount := x.txCount + 1 }.settleEpoch

/-- Cumulative credits granted to the peer per VC: 2,048 flits and those delivered (13 R482). -/
def Port.credits (x : Port) : List Byte := (upFrom 0 4).flatMap fun v => leBytes ((2048 + Tab.get 0 x.given v) % 2 ^ 32) 4

/-- The first flit waiting on a VC that holds credit; the counts are modulo 2^32, and at most 2,048 apart (13 R482). -/
def Port.ready (x : Port) : Option (Nat × Bool × List Byte × LinkMsg) :=
  x.outbox.find? fun o => (Tab.get 0 x.granted o.1 + 2 ^ 32 - Tab.get 0 x.spent o.1 % 2 ^ 32) % 2 ^ 32 != 0

/-- Take a waiting flit away. -/
def eraseFirst {α : Type} [DecidableEq α] (a : α) : List α → List α
  | [] => []
  | b :: r => if a = b then r else b :: eraseFirst a r

/-- Send a new DATA flit: the first of a run starts a segment (13 R479, R480). -/
def Port.sendNew (x : Port) (o : Nat × Bool × List Byte × LinkMsg) : Port :=
  let x := if x.newSeg then { x with txSeg := !x.txSeg, txSeq := 0, retry := [], resend := none, newSeg := false } else x
  let f : Flit := { seq := x.txSeq, vc := o.1, last := o.2.1, payload := o.2.2.1, sends := 0, msg := o.2.2.2 }
  let x := { x with outbox := eraseFirst o x.outbox, retry := x.retry ++ [f], txSeq := (x.txSeq + 1) % 4096
                    spent := Tab.modify 0 x.spent o.1 (· + 1) }
  x.send 1 f.vc f.last f.seq f.payload

/-- Resend the flit at a SEQ, then the next one (13 R479). -/
def Port.sendAgain (x : Port) (f : Flit) : Port :=
  let retry := x.retry.map fun g => if g.seq = f.seq then { g with sends := g.sends + 1 } else g
  let next := (f.seq + 1) % 4096
  let resend := if retry.any fun g => g.seq == next then some next else none
  { x with retry, resend }.send 1 f.vc f.last f.seq f.payload

/-- Fiber of a lane within its direction, and its wavelength in nm (13 R474). -/
def laneFiber (i : Nat) : Nat := i / 2
def laneWavelength (i : Nat) : Nat := if i % 2 = 0 then 1271 else 1291

/-- What each active lane carries of the flit just sent: its W parts, on the lanes in ascending order (13 R475). -/
def Port.onLanes (x : Port) : List (Nat × List Byte) :=
  let lanes := x.lanes.take x.width
  lanes.zip (chunks (256 / x.width) x.width x.sent)

/-- One slot of a port: LCTRL in every 256th slot and before UP; else a resent flit, a new one where credit, window, segment
and power state allow, or NULL (13 R476, R479, R480, R482; 15 Table 15.1). -/
def Port.slot (x : Port) (holding : Bool) : Port :=
  if x.st ≠ .up ∨ x.txCount % 256 = 0 then x.send 2 0 false 0 x.credits
  else
    let again := x.resend.bind fun n => x.retry.find? fun f => f.seq == n
    match again, x.ready with
    | some f, _ => x.sendAgain f
    | none, some o =>
      if x.draining || holding || x.retry.length ≥ 2047 then x.send 0 0 false 0 []
      else x.sendNew o
    | none, none => x.send 0 0 false 0 []

/-- FLIT_SLOT (13 R476). -/
def opFlitSlot (p : Nat) (s : State) : State :=
  atPort p [.identify, .align, .up] s fun s => s.modPort p fun x => x.slot (decide (s.power.state = .duskHolding))

/-- ACK and NAK of a received header (13 R479): flits up to ACK leave the retry buffer; a NAK resends from ACK + 1, and a resend
under way goes on (log 94). -/
def Port.acked (x : Port) (ack : Nat) (seg nak : Bool) : Port :=
  if seg ≠ x.txSeg then x
  else
    let retry := x.retry.filter fun f => (ack + 4096 - f.seq) % 4096 ≥ 2048
    let going := x.resend.filter fun n => retry.any fun f => f.seq == n
    { x with retry, resend := if nak then going.or ((retry.head?).map (·.seq)) else going }

/-- A DATA flit is accepted when its SEQ is the next expected of its segment; another SEG starts a new segment (13 R479,
R480). -/
def Port.data (x : Port) (vc seq : Nat) (last seg : Bool) (payload : List Byte) : Port :=
  let x := if seg ≠ x.rxSeg then { x with rxSeg := seg, rxSeq := 0xFFF, nak := false, partial_ := [] } else x
  if seq ≠ (x.rxSeq + 1) % 4096 then { x with nak := true }
  else
    let bytes := Tab.get [] x.partial_ vc ++ payload
    let x := { x with rxSeq := seq, nak := false, given := Tab.modify 0 x.given vc (· + 1) }
    if last then { x with partial_ := Tab.del x.partial_ vc, whole := x.whole ++ [(vc, bytes)] } else { x with partial_ := Tab.set x.partial_ vc bytes }

/-- FLIT_RECEIVE (13 R475, R478-R482): codeword counts, decryption, ACK, credits and data; a corrupt slot sets NAK. -/
def Port.receive (x : Port) (flit : List Byte) (corrected uncorrectable : Nat) : Port :=
  let (key, salt) := x.keyAt x.rxDir x.rxCount
  let hdr := flit.take 4
  let iv := salt ++ beBytes x.rxCount 8
  let ct := (flit.drop 4).take 240
  let keys := aesKeys key
  let ok := uncorrectable == 0 && flit.length == 256 && !x.prk.isEmpty && (gcmTag keys iv hdr ct).take 12 == flit.drop 244
  let x := { x with rxCount := x.rxCount + 1, corrected := sat64 x.corrected corrected, uncorrectable := sat64 x.uncorrectable uncorrectable }.settleEpoch
  if !ok then { x with corrupt := sat64 x.corrupt 1, nak := true }
  else
    let h := u32 hdr 0
    let body := gcmCtr keys iv ct
    let x := x.acked (bitsOf h 23 12) (bitOf h 24) (bitOf h 26)
    match bitsOf h 31 30 with
    | 1 => x.data (bitsOf h 29 28) (bitsOf h 11 0) (bitOf h 27) (bitOf h 25) body
    | 2 => { x with granted := (upFrom 0 4).foldl (fun t v => Tab.set t v (u32 body (4 * v))) x.granted }
    | _ => x

/-- FLIT_RECEIVE. -/
def opFlitReceive (p : Nat) (flit : List Byte) (corrected uncorrectable : Nat) (s : State) : State :=
  atPort p [.identify, .align, .up] s fun s => s.modPort p fun x => x.receive flit corrected uncorrectable

/-- RETRY_LIMIT (13 R479): a flit has been resent 32 times. -/
def opRetryLimit (p : Nat) (s : State) : State :=
  atPort p [.up] s fun s => if (s.port p).retry.any fun f => f.sends ≥ 32 then s.portDown p .retry else s

/-- DRAIN_POINT (13 R480): no new DATA flit of the run. -/
def opDrainPoint (p : Nat) (s : State) : State := atPort p [.up] s fun s => s.modPort p fun x => { x with draining := true }

/-- A run ends on a port: what is not wholly acknowledged is sent again, whole, in its compartment's next run (13 R480). -/
def State.endSegments (s : State) : State :=
  s.link.ports.foldl (fun s p =>
    let x := s.port p.1
    let s := s.setPort p.1 { x with retry := [], outbox := [], resend := none, newSeg := true, draining := false }
    let s : State := { s with link := { s.link with waiting := s.link.waiting ++ x.unsent } }
    x.unsentMembers.elim s fun m => s.queueFlits p.1 m) s

/-! ### Messages (13 R480-R484, R505) -/

/-- The compartment of this device in a span. -/
def State.spanComp (s : State) (span : Nat) : Option Nat := (s.comps.find? fun p => (p.2.span.map (·.id)) == some span).map (·.1)

/-- Change a collective group. -/
def State.modGroup (s : State) (k g : Nat) (f : CollGroup → CollGroup) : State :=
  s.modComp k fun x => match Tab.find? x.groups g with
    | some y => { x with groups := Tab.set x.groups g (f y) }
    | none => x

/-- A collective group by INDEX. -/
def State.collGroup (s : State) (k g : Nat) : Option CollGroup := Tab.find? (s.comp k).groups g

/-- TYPE codes of group and device messages on VC 3 (log 36). -/
def typeCreated : Nat := 1
def typeReset : Nat := 2
def typeSpan : Nat := 3
def typeBroken : Nat := 4
def typeStale : Nat := 5

/-- Send a message to one rank of a group. -/
def State.toRank (s : State) (k gi : Nat) (g : CollGroup) (vc type rank key : Nat) (payload : List Byte) : State :=
  s.sendMsg k vc type (g.members.getD rank 0xFFFF) gi g.gen key payload

/-- Send a message to every other rank of a group. -/
def State.toRanks (s : State) (k gi : Nat) (g : CollGroup) (vc type key : Nat) (payload : List Byte) : State :=
  ((upFrom 0 g.members.length).filter (· != g.rank)).foldl (fun s r => s.toRank k gi g vc type r key payload) s

/-- A message older than the group's generation is dropped and counts; rank 0 returns a stale notice (13 R505). -/
def State.staleMsg (s : State) (k : Nat) (m : LinkMsg) : Option State :=
  match s.collGroup k m.groupIndex with
  | none => none
  | some g =>
    if m.groupIndex ≠ 0xFFFF ∧ m.gen < g.gen then
      let s := s.modGroup k m.groupIndex fun g => { g with staleDropped := sat64 g.staleDropped 1 }
      some (if g.rank = 0 then s.sendMsg k 3 typeStale m.src m.groupIndex g.gen m.seqKey [] else s)
    else none

/-- This device's report to the other members of a compartment's span: F, C and the digest of its claim (13 R495, R496). -/
def State.spanReport (s : State) (k : Nat) : State :=
  match (s.comp k).span with
  | none => s
  | some sp =>
    let x := s.comp k
    let body := leBytes x.slice.first 2 ++ leBytes x.slice.count 2 ++ tenantDigest x
    (sp.members.filter fun m => s.link.node != some m.1).foldl (fun s m => s.sendMsg k 3 typeSpan m.1 0xFFFF 0 0 body) s

/-- Forward a message in the run of the compartment of its span, or drop it (13 R484). -/
def State.forward (s : State) (k : Nat) (m : LinkMsg) : State :=
  if m.hops ≤ 1 then { s with link := { s.link with routeDrops := sat64 s.link.routeDrops 1 } }
  else
    let m := { m with hops := m.hops - 1 }
    if s.inRunOf k then s.routeMsg m else { s with link := { s.link with waiting := s.link.waiting ++ [m] } }

/-- A whole message for this device: delivered in MSG_ID order to the landing area (13 R480, R482); true when it is. -/
def State.deliver (s : State) (m : LinkMsg) : State × Bool :=
  let key := (m.src, m.span, m.vc)
  if m.msgId = assocGet s.link.gotIds key + 1 then
    ({ s with link := { s.link with gotIds := assocSet s.link.gotIds key m.msgId, landed := s.link.landed ++ [m] } }, true)
  else (s, false)

/-! ### Peer memory (13 R498, R499) -/

/-- The key under which a stored form is held for an owner. -/
def peerKey (q : PeerReq) : Nat × Nat × Nat × Nat × Nat := (q.node, q.comp, q.epoch, q.tensorId, q.tile)

/-- A stored form fits the holder's HBM share, those it replaces given up (06 R209; log 114). -/
def State.holdsPeer (s : State) (k : Nat) (q : PeerReq) (b : List Byte) : Bool :=
  let old := ((s.comp k).peerHeld.filter fun p => decide (p.1 = peerKey q)).foldl (fun n p => n + p.2.length) 0
  (s.spaceUsed k (2 ^ 64)).2.1 + b.length ≤ (s.comp k).hbmGib * 2 ^ 30 + old

/-- MREQ (13 R498): the holder stores a sealed stored form exactly as received, or returns it exactly; one that its share cannot hold
gets no completion (log 114). -/
def opMreq (k : Nat) (q : PeerReq) (s : State) : State :=
  if !s.exists_ k then s
  else match q.store with
    | some b =>
      if !s.holdsPeer k q b then s
      else
      let s := s.modComp k fun x => { x with peerHeld := (x.peerHeld.filter fun p => decide (p.1 ≠ (peerKey q))) ++ [((peerKey q), b)] }
      s.sendMsg k 2 1 q.node 0xFFFF 0 q.tile (leBytes q.tensorId 8 ++ leBytes q.tile 4)
    | none => match (s.comp k).peerHeld.find? fun p => decide (p.1 = (peerKey q)) with
      | some p => s.sendMsg k 2 0 q.node 0xFFFF 0 q.tile (leBytes q.tensorId 8 ++ leBytes q.tile 4 ++ p.2)
      | none => s

/-- MCPL (13 R498): the completion of a peer move arrives, a read's with the stored form exactly as the holder returned it. -/
def opMcpl (k tensorId : Nat) (tile : PeerTile) (s : State) : State :=
  let moves := s.link.moves.map fun m =>
    if m.comp = k ∧ m.id = tensorId ∧ m.tile = tile.index then { m with got := true, form := tile.form } else m
  { s with link := { s.link with moves } }

/-- PEER_TIMEOUT (13 R498): no completion within 16 strokes ends the command with nothing committed. -/
def opPeerTimeout (order : Nat) (s : State) : State :=
  if s.link.moves.any fun m => m.order == order && !m.got && m.since + 16 ≤ s.stroke.number then
    let s : State :=
      { s with
        link := { s.link with moves := s.link.moves.filter fun m => m.order != order }
        commits := s.commits.filter fun c => c.order != order }
    match s.admOf order with
    | some a => s.reply a.cmd a.op .peerUnreachable 0
    | none =>
      { s with replies := s.replies.map fun r => if r.cmd.order = order then { r with status := Status.peerUnreachable.code, detail := 0 } else r }
  else s

/-- Lines of an owner of an ended or older EPOCH (12 R457, 13 R499): EPOCHs count modulo 256. -/
def releasedBy (node comp epoch : Nat) (q : Nat × Nat × Nat × Nat × Nat) : Bool := q.1 == node && q.2.1 == comp && (epoch + 256 - q.2.2.1) % 256 < 128

/-- PEER_RELEASE (13 R499): the holder zeroes every line it holds for the owner and an older EPOCH. -/
def opPeerRelease (node comp epoch : Nat) (s : State) : State :=
  { s with comps := s.comps.map fun p => (p.1, { p.2 with peerHeld := p.2.peerHeld.filter fun q => !releasedBy node comp epoch q.1 }) }

/-- Releases owed are sent in the first run with a route (13 R499). -/
def State.sendReleases (s : State) (k : Nat) : State :=
  let go := s.link.releases.filter fun r => r.2.1 == k
  let s : State := { s with link := { s.link with releases := s.link.releases.filter fun r => r.2.1 != k } }
  go.foldl (fun s r => s.sendMsg k 3 relType r.1 0xFFFF 0 0 (leBytes r.2.1 1 ++ leBytes r.2.2 1)) s

/-! ### Alignment and membership (13 R491-R494; 02 R59-R62) -/

/-- The parent port: the neighbour of lowest DEPTH, ties to the lower port (13 R493). -/
def State.parent (s : State) : Option (Nat × Nat) :=
  (s.link.ports.filterMap fun p => if p.2.st = .up then p.2.peerDepth.map fun d => (p.1, d) else none).foldl
    (fun best q => match best with
      | some b => if q.2 < b.2 then some q else some b
      | none => some q) none

/-- DEPTH of this device: 0 at the reference and alone, otherwise the parent's and one more (13 R493). -/
def State.depth (s : State) : Nat :=
  if s.link.ref = s.link.node then 0
  else match s.parent with
    | some q => q.2 + 1
    | none => 0

/-- The TIMING record that a port sends (13 R493). -/
def State.timingOut (s : State) (p : Nat) (tx : Int) : TimingRec :=
  let last := (s.port p).timing.getD (0, 0)
  { stroke := s.stroke.number, tx, lastTx := last.1, lastRx := last.2, depth := s.depth, offset := s.stroke.alignOffset
    refNode := s.link.ref.getD 0xFFFF, count := s.link.members.length }

/-- TIMING_SEND (13 R493): the record of this device's stroke and estimate. -/
def opTimingSend (p : Nat) (tx : Int) (s : State) : State :=
  atPort p [.up] s fun s => s.modPort p fun x => { x with timingSent := some (s.timingOut p tx) }

/-- The device becomes UNALIGNED and an ERROR event is raised (02 R60). -/
def State.unalign (s : State) (missing : Nat) : State :=
  if s.stroke.align = .aligned then
    ({ s with stroke := { s.stroke with align := .unaligned } } : State).raise 0x0121 .error 0x40 (twos 32 s.stroke.alignOffset) missing
  else s

/-- An offset measured (02 R60): beyond 20 ns a WARN event, beyond 200 ns UNALIGNED. -/
def State.offsetIs (s : State) (o : Int) : State :=
  let s : State := { s with stroke := { s.stroke with alignOffset := o, refMissing := 0 } }
  let s := if o.natAbs > 20000 then s.raise 0x0120 .warn 0x40 (twos 32 o) 0 else s
  if o.natAbs > 200000 then s.unalign 0 else s

/-- TIMING_RECORD (13 R493): the offset is taken across the last exchange with the parent, by floor division by 2. -/
def opTimingRecord (p : Nat) (r : TimingRec) (rx : Int) (s : State) : State :=
  atPort p [.align, .up] s fun s =>
    let s := s.modPort p fun x => { x with timing := some (r.tx, rx), peerDepth := some r.depth, peerOffset := r.offset, depth := r.depth + 1 }
    if s.link.ref = s.link.node ∨ (s.parent.map (·.1)) ≠ some p then s
    else
      let theta : Int := ((r.lastRx - r.lastTx) - (rx - r.tx)) / 2
      let s := s.offsetIs (r.offset - theta)
      if r.depth + 1 > 8 then s.unalign 0 else s

/-- REFERENCE_MISSING (02 R60): 16 consecutive strokes. -/
def opReferenceMissing (s : State) : State := if s.stroke.refMissing ≥ 16 then s.unalign s.stroke.refMissing else s

/-- STROKE_JOIN (02 R62, 13 R494): the device takes the reference's stroke number at its next boundary, or the join is
refused; a member that is UNALIGNED realigns without a refusal. The number set here is the one before it, so that
STROKE_BOUNDARY counts to the reference's. Until the next measurement ALIGN_OFFSET is 0 (log 123). -/
def opStrokeJoin (refStroke refPeriod : Nat) (s : State) : State :=
  let ports := (s.link.ports.filter fun p => decide (p.2.st = .align)).map (·.1)
  let back := decide (s.stroke.align = .unaligned) && !s.link.members.isEmpty
  if s.link.ref = s.link.node ∨ (ports.isEmpty ∧ !back) ∨ s.stroke.phase ≠ .report then s
  else
    let depth := (ports.map fun p => (s.port p).depth).foldl max (if back then s.depth else 0)
    let refuse (d : Nat) : State :=
      let s : State := if d ≤ 2 then { s with link := { s.link with refused := some d } } else s
      ports.foldl (fun s p => s.refuseLink p .refused .joinRefused d) s
    if refStroke ≤ s.stroke.number then (if back then s else refuse 1)
    else if refPeriod ≠ s.stroke.period then (if back then s else refuse 2)
    else if depth > 8 then (if back then s else refuse 3)
    else
      let s : State := { s with stroke := { s.stroke with number := refStroke - 1, align := .aligned, alignOffset := 0, refMissing := 0 } }
      (ports.foldl (fun s p => (s.modPort p fun x => { x with st := .up }).finishLink p .ok) s).tellMembers none

/-- MEMBERSHIP (13 R481, R491, R492): the list and incarnations; receivers start again for a source with a new incarnation,
and a part that has lost its reference elects one. A list that is new
is told to the other neighbours. -/
def opMembership (p : Nat) (members : List Member) (ref : Nat) (s : State) : State :=
  atPort p [.align, .up] s fun s =>
    let restarted (n : Nat) : Bool := members.any fun m => m.node == n && s.link.members.any fun o => o.node == n && o.incarnation != m.incarnation
    let l := unionMembers (members ++ [s.self])
    let read (w : Nat × List Byte) : Bool := (msgOf w.1 w.2).any (·.isMembers)
    let s := s.modPort p fun x => { x with whole := (x.whole.find? read).elim x.whole fun w => eraseFirst w x.whole }
    let news := decide (l ≠ s.link.members)
    let s : State := { s with
      link :=
        { s.link with
          members := l
          ref := if l.any fun m => m.node == ref then some ref else electRef l
          gotIds := s.link.gotIds.filter fun q => !restarted q.1.1 } }
    if news then s.tellMembers (some p) else s

/-! ### Commands -/

/-- LINK.CONFIG (13 R491, R508). -/
def opLinkConfig (c : Cmd) (s : State) : Chk Fin := do
  let b := c.block
  blockLen c 8
  field (u16 b 0 ≤ 8191) 0
  field (zeroAt b 3 5) 3
  need ((upFrom 0 16).all fun p => decide ((s.port p).st = .dark)) .notPermitted
  doneWith (s.commit c (.linkConfig (u16 b 0) (u8 b 2)))

/-- A LINK.CONFIG settles (13 R491). -/
def State.commitLink (s : State) (node priority : Nat) : State := { s with link := { s.link with node := some node, priority } }

/-- NODE_ID once the LINK.CONFIGs before this command have settled (log 109). -/
def State.nodeSeen (s : State) : Option Nat :=
  s.commits.foldl (fun x p => match p.what with
    | .linkConfig n _ => some n
    | _ => x) s.link.node

/-- A disable of a port settles (13 R490). -/
def State.commitDisable (s : State) (p from_ : Nat) (abort : Bool) : State := s.modPort p fun x => { x with disable := some (from_, abort) }

/-- A disable of a port that settles in this stroke. -/
def State.disabling (s : State) (p : Nat) : Bool := s.commits.any fun x => match x.what with
  | .portDisable q _ _ => q == p
  | _ => false

/-- Start training a port, or wait for the training under way (13 R485). -/
def State.enablePort (s : State) (c : Cmd) (p lanes ms : Nat) : State :=
  s.modPort p fun x => { x with st := if x.st = .dark then .probe else x.st, maxLanes := lanes, order := some c.order, timeoutMs := ms }

/-- LINK.ENABLE (13 R485, R490, R491, R494): a disable takes effect at the next boundary (03 R109). -/
def opLinkEnable (c : Cmd) (s : State) : Chk Fin := do
  let b := c.block
  blockLen c 8
  let p := u8 b 0
  let act := u8 b 1
  let lanes := u8 b 2
  field (p ≤ 15) 0
  field (act ≤ 2) 1
  field (if act = 0 then lanes == 2 || lanes == 4 || lanes == 8 else lanes == 0) 2
  field (u8 b 3 == 0) 3
  field (u16 b 4 ≤ 60000) 4
  field (u16 b 6 == 0) 6
  let x := s.port p
  if act ≠ 0 then
    doneWith (if x.st = .dark then s else s.commit c (.portDisable p (s.stroke.number + 1) (act == 2)))
  else do
    need s.nodeSeen.isSome .notPermitted
    need s.link.refused.isNone .joinRefused (s.link.refused.getD 0)
    if x.order = some c.order then .ok (.wait s)
    else if x.st = .up ∧ x.disable.isNone ∧ !s.disabling p then doneWith s
    else do
      field (x.order.isNone && x.disable.isNone && !s.disabling p) 0
      .ok (.wait (s.enablePort c p lanes (u16 b 4)))

/-- STATE of LINK.QUERY. -/
def PortSt.code : PortSt → Nat
  | .dark => 0
  | .probe => 1
  | .lock => 2
  | .identify => 3
  | .align => 4
  | .up => 5

/-- LINK.QUERY (13 R509). -/
def opLinkQuery (c : Cmd) (s : State) : Chk Fin := do
  let b := c.block
  blockLen c 16
  field (u8 b 0 ≤ 15) 0
  field (zeroAt b 1 7) 1
  field (aligned64 (u64 b 8)) 8
  let x := s.port (u8 b 0)
  let shown := [(0, 1, x.st.code), (1, 1, x.width), (2, 2, x.peer.getD 0xFFFF)]
  let more := [(4, 1, x.lastDown), (5, 1, s.depth), (8, 4, x.rttNs), (12, 4, x.keyEpoch), (16, 8, x.corrected), (24, 8, x.uncorrectable),
    (32, 8, x.corrupt), (40, 8, x.downs), (48, 8, s.link.routeDrops)]
  doneWith (s.record c.fn (u64 b 8) (layout 64 (if c.fn = .pf then shown ++ more else shown)))

/-- The cell as CELL.SETs admitted earlier leave it: what they set shows from settle (01 R25), but for a later CELL.SET's checks
(02 R35; log 109). -/
def State.cellSeen (s : State) : Option (Nat × Nat × List Nat) :=
  s.commits.foldl (fun x p => match p.what with
    | .cellSet y => y
    | _ => x) s.link.cell

/-- CELL.SET (13 R497). -/
def opCellSet (c : Cmd) (s : State) : Chk Fin := do
  let b := c.block
  blockLen c 48
  let act := u8 b 4
  let size := u8 b 5
  field (act ≤ 1) 4
  field (if act = 0 then 2 ≤ size && size ≤ 16 else size == 0) 5
  field (act == 1 || u8 b 6 < size) 6
  field (u8 b 7 == 0) 7
  let nodes := (upFrom 0 16).map fun i => u16 b (8 + 2 * i)
  field ((nodes.take size).all (· ≤ 8191) && (nodes.drop size).all (· == 0xFFFF)) 8
  field (zeroAt b 40 8) 40
  if act = 0 then do
    field (nodes.getD (u8 b 6) 0xFFFF == s.nodeSeen.getD 0x10000) 6
    field (match s.cellSeen with
      | some (id, _, _) => id == u32 b 0
      | none => true) 0
    doneWith ((s.commit c (.cellSet (some (u32 b 0, u8 b 6, nodes.take size)))).commit c .epochUp)
  else do
    field (match s.cellSeen with
      | some (id, _, _) => id == u32 b 0
      | none => false) 0
    need (!s.bases.any fun p => decide (p.2.st ≠ .empty) && p.2.cellSize > 1) .notPermitted
    doneWith ((s.commit c (.cellSet none)).commit c .epochUp)

/-- ROUTE.SET (13 R484). -/
def opRouteSet (c : Cmd) (s : State) : Chk Fin := do
  let b := c.block
  blockLen c 8
  field (u16 b 0 ≤ 8191) 0
  field (u32 b 4 == 0) 4
  doneWith ((s.commit c (.routeSet (u16 b 0) (u16 b 2))).commit c .epochUp)

/-- A route takes effect; a mask of 0 removes it (13 R484). -/
def State.setRoute (s : State) (dest mask : Nat) : State :=
  { s with link := { s.link with routes := if mask = 0 then Tab.del s.link.routes dest else Tab.set s.link.routes dest mask } }

/-- A definition or dissolution of a span starts its MSG_IDs again (13 R481). -/
def State.resetSpanIds (s : State) (span : Nat) : State :=
  { s with link := { s.link with sentIds := s.link.sentIds.filter fun q => q.1.2.1 != span, gotIds := s.link.gotIds.filter fun q => q.1.2.1 != span } }

/-- A holder releases the tiles it holds for owners no longer in its span (13 R499). -/
def Comp.releaseOwners (x : Comp) (members : List (Nat × Nat)) : Comp :=
  { x with peerHeld := x.peerHeld.filter fun q => members.contains (q.1.1, q.1.2.1) }

/-- Strictly rising. -/
def rising : List Nat → Bool
  | a :: b :: r => a < b && rising (b :: r)
  | _ => true

/-- A span is defined, or the compartment's span dissolves (13 R481, R495, R499). -/
def State.setSpan (s : State) (k id : Nat) (x : Option Span) : State :=
  match x with
  | some sp => ((s.resetSpanIds id).modComp k fun y => { y.releaseOwners sp.members with span := some sp }).spanReport k
  | none => (s.resetSpanIds id).modComp k fun y => { y with span := none, peerHeld := [] }

/-- The span of a compartment as SPAN.SETs admitted earlier leave it (02 R35; log 109). -/
def State.spanSeen (s : State) (k : Nat) : Option Span :=
  s.commits.foldl (fun x p => match p.what with
    | .spanSet j _ y => if j = k then y else x
    | _ => x) (s.comp k).span

/-- SPAN.SET (13 R481, R495, R499, R508). -/
def opSpanSet (c : Cmd) (s : State) : Chk Fin := do
  let b := c.block
  blockLen c 24
  let id := u16 b 0
  let k := u8 b 2
  let act := u8 b 3
  let n := u32 b 4
  field (s.exists_ k) 2
  field (act ≤ 1) 3
  field (if act = 0 then 2 ≤ n && n ≤ 8192 else n == 0) 4
  field (aligned64 (u64 b 8)) 8
  field (zeroAt b 16 8) 16
  if act = 0 then do
    let e := s.hostRead c.fn (u64 b 8) (4 * n)
    let l := (upFrom 0 n).map fun i => (u16 e (4 * i), u8 e (4 * i + 2))
    field (l.all (fun m => m.1 ≤ 8191 && m.2 < 64) && (upFrom 0 n).all (fun i => u8 e (4 * i + 3) == 0) && rising (l.map (·.1))) noField
    field (match s.link.node with
      | some me => l.contains (me, k)
      | none => false) noField
    field (match s.spanSeen k with
      | some sp => sp.id == id
      | none => ((upFrom 0 64).all fun j => (s.spanSeen j).all fun sp => sp.id != id)) 0
    doneWith ((s.commit c (.spanSet k id (some { id, members := l }))).commit c .epochUp)
  else do
    field ((s.spanSeen k).map (·.id) == some id) 0
    doneWith ((s.commit c (.spanSet k id none)).commit c .epochUp)

/-- At a boundary each spanned compartment is MISMATCHED while any member's F or C differs, and a change of this device's
run is reported (13 R495). -/
def State.checkSpan (s : State) (k : Nat) : State :=
  s.modComp k fun x => match x.span with
    | some sp => { x with span := some { sp with mismatched := !s.spanEstablished k } }
    | none => x

/-- Lanes that a power state allows (15 Table 15.1). -/
def laneLimit : PowerState → Nat
  | .evening => 4
  | .duskServing => 2
  | .duskHolding => 2
  | .night => 0
  | _ => 8

/-- WIDTH exchanges at a boundary (13 R475; 15 Table 15.4), flits not acknowledged being resent, each traced under device trace bit 1 (16 Table 16.7). -/
def State.applyWidths (s : State) : State :=
  (upFrom 0 16).foldl (fun s p =>
    let x := s.port p
    let w := widthOf (laneLimit s.power.state) x.lanes.length
    if x.st = .up ∧ w ≠ x.width then
      let s := s.modPort p fun x => { x with width := w, resend := ((x.retry.head?).map (·.seq)).or x.resend }
      if bitOf s.watch.budgets.traceMask 1 then s.raise 0x0181 .trace 0x40 p w else s
    else s) s

/-- Disables of ports at a boundary (13 R490): ABORT darkens at stroke s; DRAIN when the retry buffer is empty, or after
stroke s + 3. A LINK.ENABLE that waits ends with ABORTED_BY_DISABLE. -/
def State.applyPortDisables (s : State) : State :=
  (upFrom 0 16).foldl (fun s p =>
    let x := s.port p
    match x.disable with
    | none => s
    | some (from_, abort) =>
      if x.st ≠ .dark ∧ from_ ≤ s.stroke.number ∧ (abort ∨ x.st ≠ .up ∨ (x.retry.isEmpty ∧ x.outbox.isEmpty) ∨ from_ + 4 ≤ s.stroke.number) then
        (s.portDown p .disabled .dark).finishLink p .aborted
      else s) s

/-! ### The meanings -/

def execLinkProbeBurst (p : Nat) (s : State) : Out := .next (opProbeBurst p s)
def execLightDetect (p lanes : Nat) (s : State) : Out := .next (opLightDetect p lanes s)
def execLaneLock (p : Nat) (lanes : List Nat) (s : State) : Out := .next (opLaneLock p lanes s)
def execLockTimeout (p : Nat) (s : State) : Out := .next (opLockTimeout p s)
def execIdentifyMessage (p : Nat) (m : IdentMsg) (s : State) : Out := .next (opIdentify p m s).watchEvents
def execIdentifyTimeout (p : Nat) (s : State) : Out := .next (opIdentifyTimeout p s)
def execAlignTimeout (p : Nat) (s : State) : Out := .next (opAlignTimeout p s).watchEvents
def execLinkTrainTimeout (p : Nat) (s : State) : Out := .next (opLinkTrainTimeout p s).watchEvents
def execFlitSlot (p : Nat) (s : State) : Out := .next (opFlitSlot p s)
def execFlitReceive (p : Nat) (flit : List Byte) (corrected uncorrectable : Nat) (s : State) : Out := .next (opFlitReceive p flit corrected uncorrectable s)
def execRetryLimit (p : Nat) (s : State) : Out := .next (opRetryLimit p s).watchEvents
def execDrainPoint (p : Nat) (s : State) : Out := .next (opDrainPoint p s)
def execRekey (p : Nat) (ecdh mlkem messages : List Byte) (start : Nat) (s : State) : Out := .next (opRekey p ecdh mlkem messages start s)
def execKeyEnd (p : Nat) (s : State) : Out := .next (opKeyEnd p s).watchEvents
def execLossOfLight (p : Nat) (s : State) : Out := .next (opLossOfLight p s).watchEvents
def execTimingSend (p : Nat) (tx : Int) (s : State) : Out := .next (opTimingSend p tx s)
def execTimingRecord (p : Nat) (r : TimingRec) (rx : Int) (s : State) : Out := .next (opTimingRecord p r rx s).watchEvents
def execReferenceMissing (s : State) : Out := .next (opReferenceMissing s).watchEvents
def execStrokeJoin (refStroke refPeriod : Nat) (s : State) : Out := .next (opStrokeJoin refStroke refPeriod s).watchEvents
def execMembership (p : Nat) (members : List Member) (ref : Nat) (s : State) : Out := .next (opMembership p members ref s)
def execMreq (k : Nat) (q : PeerReq) (s : State) : Out := .next (opMreq k q s)
def execMcpl (k tensorId : Nat) (tile : PeerTile) (s : State) : Out := .next (opMcpl k tensorId tile s)
def execPeerTimeout (order : Nat) (s : State) : Out := .next (opPeerTimeout order s)
def execPeerRelease (node comp epoch : Nat) (s : State) : Out := .next (opPeerRelease node comp epoch s)
def execLinkConfig (c : Cmd) (s : State) : Out := .next (runCmd 0x0801 c s (opLinkConfig c s))
def execLinkEnable (c : Cmd) (s : State) : Out := .next (runCmd 0x0802 c s (opLinkEnable c s))
def execLinkQuery (c : Cmd) (s : State) : Out := .next (runCmd 0x0803 c s (opLinkQuery c s))
def execCellSet (c : Cmd) (s : State) : Out := .next (runCmd 0x0804 c s (opCellSet c s))
def execRouteSet (c : Cmd) (s : State) : Out := .next (runCmd 0x0805 c s (opRouteSet c s))
def execSpanSet (c : Cmd) (s : State) : Out := .next (runCmd 0x0806 c s (opSpanSet c s))

end Sys2Proof.Machine
end

