-- ==== Sys2Proof/Machine/Collectives.lean ====
section
/-! DEFINITION. Collective groups and collectives (13 R500-R511), the delivery of messages (13 R480-R484), and the fixed tree
that combines the values of ranks and of replicas (09 R359). -/

namespace Sys2Proof.Machine

/-! ### The fixed tree (09 R359) -/

/-- One level of the tree: neighbours combine, a missing one is passed over. -/
def treeLevel (f : Nat → Nat → Nat) : List (Option Nat) → List (Option Nat)
  | some a :: some b :: r => some (f a b) :: treeLevel f r
  | some a :: none :: r => some a :: treeLevel f r
  | none :: b :: r => b :: treeLevel f r
  | [a] => [a]
  | [] => []

/-- The tree over a list; `fuel` levels at most. -/
def treeOf (f : Nat → Nat → Nat) : Nat → List (Option Nat) → Option Nat
  | _, [] => none
  | _, [a] => a
  | 0, a :: _ => a
  | n + 1, l => treeOf f n (treeLevel f l)

/-- The value of the tree, +0 where nothing is present. -/
def treeSum (f : Nat → Nat → Nat) (l : List (Option Nat)) : Nat := (treeOf f l.length l).getD 0

/-- IEEE 754 maximum with +0 above -0 and NaN canonical (13 R502). -/
def fmax (a b : Nat) : Nat :=
  if isNan a || isNan b then nan32
  else if flt a b then b
  else if flt b a then a
  else if bitOf a 31 then b else a

/-- IEEE 754 minimum, likewise. -/
def fmin (a b : Nat) : Nat :=
  if isNan a || isNan b then nan32
  else if flt a b then a
  else if flt b a then b
  else if bitOf a 31 then a else b

/-- The combining operation of REDOP. -/
def redOp (n a b : Nat) : Nat := if n = 0 then fadd a b else if n = 1 then fmax a b else fmin a b

/-! ### Groups -/

/-- What is held of a collective is keyed by group generation and COLL_SEQ. -/
def collKey (gen seq : Nat) : Nat := gen * 2 ^ 64 + seq

/-- TYPE codes of a group's further messages (log 36). -/
def typeDescriptor : Nat := 6
def typeReady : Nat := 7
def typeCommit : Nat := 8
def typeAbandon : Nat := 9

/-- The group of a handle, live for a command (13 R500). -/
def State.groupAt (s : State) (k h : Nat) : Option (Nat × CollGroup) :=
  let i := h % 65536
  match s.collGroup k i with
  | some g => if g.handle = h then some (i, g) else none
  | none => none

/-- The group of a handle, or STALE_GENERATION. -/
def collAt (k h : Nat) : Run (Nat × CollGroup) := do
  let s ← get
  some! (s.groupAt k h) .staleGeneration

/-- This member's creation is sent to another rank. -/
def State.sendCreated (s : State) (k gi : Nat) (g : CollGroup) (rank : Nat) : State :=
  s.toRank k gi g 3 typeCreated rank 0 (g.members.flatMap (fun n => leBytes n 2) ++ tenantDigest (s.comp k))

/-- This member's reset is sent to another rank. -/
def State.sendReset (s : State) (k gi : Nat) (g : CollGroup) (rank : Nat) : State :=
  s.toRank k gi g 3 typeReset rank 0 (leBytes (g.gen + 1) 2)

/-- Other ranks of a group. -/
def CollGroup.others (g : CollGroup) : List Nat := (upFrom 0 g.members.length).filter (· != g.rank)

/-- The COLL.GROUP record (13 Table 13.10). -/
def groupRecord (g : CollGroup) : List Byte := layout 64 [(0, 4, g.handle), (4, 2, g.gen)]

/-- Complete the COLL.GROUP that waits on a group. -/
def State.groupDone (s : State) (k gi : Nat) (st : Status) : State :=
  match s.collGroup k gi with
  | none => s
  | some g =>
    let s := s.modGroup k gi fun g => { g with order := none, heard := [] }
    match g.order.bind s.admOf with
    | some a =>
      let s := if st = .ok then s.record a.cmd.fn (u64 a.cmd.block 24) (groupRecord g) else s
      s.reply a.cmd a.op st 0
    | none => s

/-- A group forms, or its reset completes, when every member is heard (13 R500). -/
def State.groupProgress (s : State) (k gi : Nat) : State :=
  match s.collGroup k gi with
  | none => s
  | some g =>
    if (upFrom 0 g.members.length).all (g.heard.contains ·) then
      if g.st = .forming then (s.modGroup k gi fun g => { g with st := .formed, gen := 1 }).groupDone k gi .ok
      else if g.st = .resetting then
        (s.modGroup k gi fun g =>
          { g with st := .formed, gen := g.gen + 1, issued := 0, running := none
                   data := g.data.filter fun x => collKey (g.gen + 1) 0 ≤ x.1, descs := g.descs.filter fun x => collKey (g.gen + 1) 0 ≤ x.1
                   ready := g.ready.filter fun x => collKey (g.gen + 1) 0 ≤ x.1 }).groupDone k gi .ok
      else s
    else s

/-- A member is heard; a member heard for the first time is answered, since it may have created its group later. -/
def State.hear (s : State) (k gi rank : Nat) (answer : State → State) : State :=
  match s.collGroup k gi with
  | none => s
  | some g =>
    if g.heard.contains rank then s
    else (answer (s.modGroup k gi fun g => { g with heard := g.heard ++ [rank] })).groupProgress k gi

/-- Free a group and its index. -/
def State.dropGroup (s : State) (k gi : Nat) : State :=
  s.modComp k fun x => { x with groups := Tab.del x.groups gi, groupIdx := x.groupIdx.free gi }

/-- COLL.GROUP, create (13 R496, R500). -/
def groupCreate (c : Cmd) (k : Nat) : Run (Status × Nat) := do
  let b := c.block
  let n := u16 b 6
  let (_, buf, off) ← bufferAt c k (u64 b 16) (2 * n) 16
  let bytes ← readBuffer k buf off (2 * n)
  let nodes := (upFrom 0 n).map fun i => u16 bytes (2 * i)
  let s ← get
  match (s.comp k).groups.find? fun p => p.2.order == some c.order with
  | some _ => throw .wait
  | none => pure ()
  fld (nodes.eraseDups.length == n && nodes.all fun m => match (s.comp k).span with
    | some sp => sp.members.any fun q => q.1 == m
    | none => false) 16
  fld (s.link.node == some (nodes.getD (u16 b 8) 0xFFFF)) 8
  req (s.spanClaimed k nodes) .notPermitted
  let (i, gen, r) ← some! ((s.comp k).groupIdx.assign 0 64) .noResource
  let g : CollGroup := { handle := handleOf gen i, members := nodes, rank := u16 b 8, order := some c.order, since := s.stroke.number, heard := [u16 b 8] }
  let s := s.modComp k fun x => { x with groups := Tab.set x.groups i g, groupIdx := r }
  set (g.others.foldl (fun (s : State) r => s.sendCreated k i g r) s)
  throw .wait

/-- COLL.GROUP (13 R500, R508). -/
def opCollGroup (c : Cmd) (s : State) : Chk Fin := runWork s do
  let b := c.block
  let k ← vfOf c
  chk (blockLen c 32)
  let act := u8 b 4
  let n := u16 b 6
  fld (act != 0 || u32 b 0 == 0) 0
  fld (act ≤ 2) 4
  fld (u8 b 5 == 0) 5
  fld (if act = 0 then 2 ≤ n && n ≤ 4096 else n == 0) 6
  fld (if act = 0 then u16 b 8 < n else u16 b 8 == 0) 8
  fld (zeroAt b 10 6) 10
  fld (aligned64 (u64 b 16)) 16
  fld (aligned64 (u64 b 24)) 24
  if act = 0 then groupCreate c k
  else
    let (i, g) ← collAt k (u32 b 0)
    if act = 1 then
      stage c (.groupFree k i)
      pure (.ok, 0)
    else if g.order = some c.order then throw .wait
    else if g.order.isSome ∨ g.running.isSome then throw .wait
    else
      let s ← get
      let g : CollGroup := { g with st := .resetting, order := some c.order, since := s.stroke.number, heard := [g.rank] }
      let s := s.modGroup k i fun _ => g
      set (g.others.foldl (fun (s : State) r => s.sendReset k i g r) s)
      throw .wait

/-- COLL_GROUP_TIMEOUT (13 R500): a member that does not form or reset within 4,096 strokes; an unformed group is freed, one not
reset stays BROKEN. -/
def opCollGroupTimeout (k gi : Nat) (s : State) : State :=
  match s.collGroup k gi with
  | none => s
  | some g =>
    if g.order.isSome ∧ g.since + 4096 ≤ s.stroke.number then
      let s := (s.modGroup k gi fun g => { g with timeouts := sat64 g.timeouts 1 }).groupDone k gi .collTimeout
      if g.st = .forming then s.dropGroup k gi else s.modGroup k gi fun g => { g with st := .broken }
    else s

/-! ### Collectives -/

/-- Rows of a block of row tiles of a tensor. -/
def rowsOf (t : Tensor) (a b : Nat) : Nat := min t.rows (128 * b) - 128 * a

/-- Row tiles of rank r's part (13 R503). -/
def partOf (rt n r : Nat) : Nat × Nat := (r * rt / n, (r + 1) * rt / n)

/-- The shape of a tensor. -/
def Tensor.dims (t : Tensor) : Nat × Nat × Nat := (t.rows, t.cols, t.batch)

/-- The shapes that OP allows (13 R502, R503). -/
def collShapes (op n rank : Nat) (src dst : Tensor) : Bool :=
  let copy := src.fmt == dst.fmt && src.axis == dst.axis
  let part (full piece : Tensor) : Bool :=
    let (a, b) := partOf full.rt n rank
    piece.cols == full.cols && piece.batch == full.batch && a < b && piece.rows == rowsOf full a b
  match op with
  | 1 => part src dst
  | 2 => copy && part dst src
  | 3 => copy && src.dims == dst.dims
  | 5 => copy && src.dims == dst.dims && src.rows % n == 0 && src.rows / n % 128 == 0
  | _ => src.dims == dst.dims

/-- The descriptor of a command: the shapes are those of the full tensors, so that members' parts compare equal (13 R501). -/
def collDesc (b : List Byte) (src dst : Tensor) : CollDesc :=
  let op := u8 b 4
  { op, redop := u8 b 5, root := u16 b 6, srcShape := if op = 2 then dst.dims else src.dims, srcFmt := src.fmt
    dstShape := if op = 1 then src.dims else dst.dims, dstFmt := dst.fmt, numctl := u32 b 32 }

/-- Descriptor indices of the tiles of a rank's SRC that rank `dst` needs (13 R503). -/
def tilesFor (op n : Nat) (src : Tensor) (root dst : Nat) : List Nat :=
  let rows (a b : Nat) : List Nat := (upFrom 0 src.count).filter fun i => let (_, r, _) := src.place i; a ≤ r && r < b
  match op with
  | 1 => let (a, b) := partOf src.rt n dst; rows a b
  | 4 => if dst = root then upFrom 0 src.count else []
  | 5 => rows (dst * src.rt / n) ((dst + 1) * src.rt / n)
  | _ => upFrom 0 src.count

/-- Ranks whose tiles a rank waits for (13 R502, R503). -/
def ranksFor (op n root rank : Nat) : List Nat :=
  match op with
  | 3 => [root]
  | 4 => if rank = root then upFrom 0 n else []
  | _ => upFrom 0 n

/-- What a collective has received from a rank. -/
def CollGroup.tilesOf (g : CollGroup) (key rank : Nat) : Option (List (Nat × TileData)) :=
  (g.data.find? fun x => x.1 == key && x.2.1 == rank).map (·.2.2)

/-- A rank's tiles as a matrix of the source's shape. -/
def matOf (t : Tensor) (l : List (Nat × TileData)) : Mat :=
  let blank := ((upFrom 0 t.count).map fun n => unwrittenTile t.fmt (t.shape n)).toArray
  { t, tiles := l.foldl (fun a p => a.setIfInBounds p.1 p.2) blank }

/-- The work of a member whose data is complete: DST is computed and held uncommitted (13 R502-R504). -/
def collWork (c : Cmd) (k key : Nat) (g : CollGroup) : Run Unit := do
  let b := c.block
  let op := u8 b 4
  let n := g.members.length
  let src ← tensorAt c k (u64 b 16) 16
  let dst ← tensorAt c k (u64 b 24) 24
  let from_ (r : Nat) : List (Nat × TileData) := (g.tilesOf key r).getD []
  match op with
  | 2 =>
    let part (r : Nat) : Tensor := let (a, b) := partOf dst.rt n r; { dst with rows := rowsOf dst a b }
    writeTiles c k (u64 b 24) dst ((upFrom 0 n).flatMap fun r => (from_ r).map fun p =>
      let (q, i, u) := (part r).place p.1
      (dst.index q (i + (partOf dst.rt n r).1) u, p.2))
  | 3 => writeTiles c k (u64 b 24) dst (from_ (u16 b 6))
  | 5 =>
    let h := src.rt / n
    writeTiles c k (u64 b 24) dst ((upFrom 0 n).flatMap fun r => (from_ r).map fun p =>
      let (q, i, u) := src.place p.1
      (dst.index q (i - g.rank * h + r * h) u, p.2))
  | _ =>
    if op = 4 ∧ g.rank ≠ u16 b 6 then pure ()
    else
      let ms := ((upFrom 0 n).map fun r => matOf src (from_ r)).toArray
      let row0 := if op = 1 then 128 * (partOf src.rt n g.rank).1 else 0
      let o ← outPlan k dst.fmt (u32 b 32) (u32 b 36) (u64 b 40) (u64 b 48)
      let _ ← emit c k (u64 b 24) dst o (upFrom 0 dst.count) fun p i j => some (treeSum (redOp (u8 b 5)) (ms.toList.map fun m => some (m.f32 p (row0 + i) j)))

/-- The payload of collective data: tile index and tile image of each tile (log 36). -/
def tilesPayload (t : Tensor) (l : List (Nat × TileData)) : List Byte :=
  l.flatMap fun p => leBytes p.1 4 ++ tileImage t.fmt (t.shape p.1) p.2

/-- A descriptor's bytes. -/
def descPayload (d : CollDesc) : List Byte :=
  leBytes d.op 1 ++ leBytes d.redop 1 ++ leBytes d.root 2 ++ leBytes d.srcFmt 1 ++ leBytes d.dstFmt 1 ++ leBytes d.numctl 4
    ++ leBytes d.srcShape.1 4 ++ leBytes d.srcShape.2.1 4 ++ leBytes d.srcShape.2.2 2
    ++ leBytes d.dstShape.1 4 ++ leBytes d.dstShape.2.1 4 ++ leBytes d.dstShape.2.2 2

/-- Why a collective ended, as a byte and as a status (13 Table 13.6). -/
def Abandon.code : Abandon → Nat
  | .mismatch => 0
  | .notAligned => 1
  | .runMismatch => 2
  | .aborted => 3

/-- The status of the members that an ABANDON reaches. -/
def abandonStatus : Abandon → Status
  | .mismatch => .collMismatch
  | .notAligned => .collNotAligned
  | .runMismatch => .collRunMismatch
  | .aborted => .aborted

/-- ABANDON leaves a member: from rank 0 to every other, from another rank to rank 0 (13 R505). -/
def State.sendAbandon (s : State) (k gi seq : Nat) (why : Abandon) : State :=
  match s.collGroup k gi with
  | none => s
  | some g =>
    let body := leBytes (Abandon.code why) 1
    if g.rank = 0 then s.toRanks k gi g 3 typeAbandon seq body else s.toRank k gi g 3 typeAbandon 0 seq body

/-- The collective under way ends on this member without a commit (13 R505): its tiles and its reservation go. -/
def State.failColl (s : State) (k gi : Nat) (st : Status) (detail : Nat) (broken : Bool) : State :=
  match s.collGroup k gi with
  | none => s
  | some g => match g.running with
    | none => s
    | some r =>
      let s := s.modGroup k gi fun g =>
        { g with running := none, abandoned := sat64 g.abandoned 1, st := if broken then .broken else g.st
                 data := g.data.filter fun x => x.1 != collKey g.gen r.seq }
      let s : State := { s with commits := s.commits.filter fun c => c.order != r.order }
      match s.admOf r.order with
      | some a => s.reply a.cmd a.op st detail
      | none => s

/-- A member that has every part it waits for computes, holds the result and is READY (13 R504). -/
def State.collProgress (s : State) (k gi : Nat) : State :=
  match s.collGroup k gi with
  | none => s
  | some g => match g.running with
    | none => s
    | some r =>
      let key := collKey g.gen r.seq
      if r.done || !(ranksFor r.desc.op g.members.length r.desc.root g.rank).all fun j => (g.tilesOf key j).isSome then s
      else match s.admOf r.order with
        | none => s
        | some a => match (ExceptT.run (collWork a.cmd k key g)).run { s with act := { order := some r.order, snap := a.snap } } with
          | (.ok _, s) =>
            let s := s.flushWindow.modGroup k gi fun g =>
              { g with running := g.running.map fun r => { r with done := true }
                       ready := if g.rank = 0 then g.ready ++ [(key, 0)] else g.ready
                       data := g.data.filter fun x => x.1 != key }
            if g.rank = 0 then s else s.toRank k gi g 3 typeReady 0 r.seq []
          | (.error (.fail e), t) => ({ t with commits := s.commits, records := s.records, resv := s.resv, act := {} } : State).failColl k gi e.st e.detail false
          | (.error _, t) => { t with commits := s.commits, records := s.records, resv := s.resv, act := {} }

/-- Rank 0 compares the descriptors once every member's is here (13 R501). -/
def State.compareDescs (s : State) (k gi : Nat) : State :=
  match s.collGroup k gi with
  | none => s
  | some g => match g.running with
    | none => s
    | some r =>
      let l := (g.descs.filter fun x => x.1 == collKey g.gen r.seq).map (·.2)
      if g.rank = 0 ∧ (upFrom 0 g.members.length).all (fun j => l.any fun x => x.1 == j) ∧ l.any (fun x => decide (x.2 ≠ r.desc)) then
        (s.sendAbandon k gi r.seq .mismatch).failColl k gi .collMismatch 0 false
      else s

/-- COLL.RUN (13 R501-R505, R508): the first quantum sends the descriptor and the data; the command then waits. -/
def opCollRun (c : Cmd) (s : State) : Chk Fin := runWork s do
  let b := c.block
  let k ← vfOf c
  chk (blockLen c 64)
  let (gi, g) ← collAt k (u32 b 0)
  let mine := match g.running with
    | some r => r.order == c.order
    | none => false
  if mine then throw .wait
  let op := u8 b 4
  let n := g.members.length
  fld (op ≤ 5) 4
  fld (if [2, 3, 5].contains op then u8 b 5 == 0 else u8 b 5 ≤ 2) 5
  fld (if op = 3 ∨ op = 4 then u16 b 6 < n else u16 b 6 == 0) 6
  if g.running.isSome then throw .wait
  let seq := u64 b 8
  req (decide (g.st = .formed)) .collBroken
  fld (seq == g.issued + 1) 8
  fld (refOk (u64 b 16) true) 16
  fld (refOk (u64 b 24) true) 24
  let src ← tensorAt c k (u64 b 16) 16
  let dst ← tensorAt c k (u64 b 24) 24
  let s ← get
  fldPlan (s.ctlOk k dst.fmt (u32 b 32)) 32
  fld (outScaleOk dst.fmt (u32 b 32) (u32 b 36)) 36
  fld (1 ≤ u16 b 56) 56
  fld (zeroAt b 58 6) 58
  oneDomain [src, dst]
  fld (collShapes op n g.rank src dst) noField
  fld (u64 b 16 != u64 b 24) 24
  let writes := op != 4 || g.rank == u16 b 6
  if writes then mayWrite dst (upFrom 0 dst.count)
  reserve c k (if writes then slotSpace dst dst.count else (0, 0, 0))
  endPlan
  let s ← get
  let d := collDesc b src dst
  let run : CollRunning := { order := c.order, seq, desc := d, start := s.stroke.number, timeout := u16 b 56 }
  let issue (s : State) : State := s.modGroup k gi fun g => { g with issued := g.issued + 1 }
  if s.stroke.align = .unaligned then
    set ((((issue s).sendAbandon k gi seq .notAligned).modGroup k gi fun g => { g with st := .broken, abandoned := sat64 g.abandoned 1 }))
    failWith .collNotAligned
  if !s.spanEstablished k then
    set (((issue s).sendAbandon k gi seq .runMismatch).modGroup k gi fun g => { g with abandoned := sat64 g.abandoned 1 })
    failWith .collRunMismatch
  let l ← readTiles c k (u64 b 16) src (if op = 2 ∨ op = 3 ∨ op = 5 then false else (numctlOf (u32 b 32)).ctl (s.numOf k) |>.trap) (upFrom 0 src.count)
  let own := (upFrom 0 src.count).zip l
  let key := collKey g.gen seq
  let keep := own.filter fun p => (tilesFor op n src (u16 b 6) g.rank).contains p.1
  modify fun s =>
    let s := (issue s).modGroup k gi fun g =>
      { g with running := some run, data := g.data ++ [(key, g.rank, keep)], descs := if g.rank = 0 then g.descs ++ [(key, 0, d)] else g.descs }
    let s := if g.rank = 0 then s else s.toRank k gi g 3 typeDescriptor 0 seq (descPayload d)
    g.others.foldl (fun (s : State) r =>
      if (ranksFor op n (u16 b 6) r).contains g.rank then
        s.toRank k gi g 0 0 r seq (tilesPayload src (own.filter fun p => (tilesFor op n src (u16 b 6) r).contains p.1))
      else s) s
  throw .wait

/-- A message of a group that bears an older generation is dropped and counts; rank 0 returns a stale notice (13 R505). -/
def State.olderGen (s : State) (k gi gen rank seq : Nat) : Option State :=
  match s.collGroup k gi with
  | none => none
  | some g =>
    if gen < g.gen then
      let s := s.modGroup k gi fun g => { g with staleDropped := sat64 g.staleDropped 1 }
      some (if g.rank = 0 then s.toRank k gi g 3 typeStale rank seq [] else s)
    else none

/-- A message of a collective reaches a group of the compartment, unless it is older than the group. -/
def State.collMsg (s : State) (k gi gen rank seq : Nat) (f : CollGroup → State → State) : State :=
  match s.olderGen k gi gen rank seq with
  | some s => s
  | none => match s.collGroup k gi with
    | some g => f g s
    | none => s

/-- COLL_DESCRIPTOR at rank 0 (13 R501). -/
def opCollDescriptor (k gi gen rank seq : Nat) (d : CollDesc) (s : State) : State :=
  s.collMsg k gi gen rank seq fun g s =>
    if g.rank ≠ 0 then s
    else (s.modGroup k gi fun g => { g with descs := (g.descs.filter fun x => !(x.1 == collKey gen seq && x.2.1 == rank)) ++ [(collKey gen seq, rank, d)] }).compareDescs k gi

/-- COLL_DATA (13 R502, R503). -/
def opCollData (k gi gen rank seq : Nat) (tiles : List (Nat × TileData)) (s : State) : State :=
  s.collMsg k gi gen rank seq fun g s =>
    if seq ≤ g.issued ∧ gen = g.gen ∧ (g.running.map (·.seq)) ≠ some seq then s
    else (s.modGroup k gi fun g => { g with data := (g.data.filter fun x => !(x.1 == collKey gen seq && x.2.1 == rank)) ++ [(collKey gen seq, rank, tiles)] }).collProgress k gi

/-- COLL_READY at rank 0 (13 R504). -/
def opCollReady (k gi gen rank seq : Nat) (s : State) : State :=
  s.collMsg k gi gen rank seq fun g s =>
    if g.rank ≠ 0 then s else s.modGroup k gi fun g => { g with ready := g.ready ++ [(collKey gen seq, rank)] }

/-- The settle of stroke x is past. -/
def State.settled (s : State) (x : Nat) : Bool := x < s.stroke.number || (x == s.stroke.number && (decide (s.stroke.phase = .settle) || decide (s.stroke.phase = .report)))

/-- COLL_COMMIT (13 R504, R505): a member that does not hold COMMIT at the settle of x times out. -/
def opCollCommit (k gi gen seq x : Nat) (s : State) : State :=
  s.collMsg k gi gen 0 seq fun g s => match g.running with
    | none => s
    | some r =>
      if gen ≠ g.gen ∨ r.seq ≠ seq ∨ !r.done then s
      else if s.settled x then (s.modGroup k gi fun g => { g with timeouts := sat64 g.timeouts 1 }).failColl k gi .collTimeout 0 true
      else s.modGroup k gi fun g => { g with running := g.running.map fun r => { r with commitAt := some x } }

/-- COLL_ABANDON (13 R501, R505): rank 0 tells every member; an abort that reaches it after y changes nothing. -/
def opCollAbandon (k gi gen seq : Nat) (why : Abandon) (s : State) : State :=
  s.collMsg k gi gen 0 seq fun g s =>
    let broken := decide (why = .notAligned)
    match g.running with
    | none =>
      let s := if g.rank = 0 ∧ why ≠ .aborted then s.sendAbandon k gi seq why else s
      if broken then s.modGroup k gi fun g => { g with st := .broken } else s
    | some r =>
      if gen ≠ g.gen ∨ r.seq ≠ seq then s
      else if g.rank = 0 then (if r.readyAt.isSome then s else (s.sendAbandon k gi seq why).failColl k gi (abandonStatus why) 0 broken)
      else s.failColl k gi (abandonStatus why) 0 broken

/-- COLL_TIMEOUT (13 R505): no COMMIT or ABANDON within TIMEOUT_STROKES of the first quantum. -/
def opCollTimeout (k gi : Nat) (s : State) : State :=
  match s.collGroup k gi with
  | none => s
  | some g => match g.running with
    | none => s
    | some r =>
      if r.commitAt.isNone ∧ r.start + r.timeout ≤ s.stroke.number then
        (s.modGroup k gi fun g => { g with timeouts := sat64 g.timeouts 1 }).failColl k gi .collTimeout 0 true
      else s

/-- Change every group of every compartment by its place. -/
def State.eachGroup (s : State) (f : State → Nat → Nat → CollGroup → State) : State :=
  s.comps.foldl (fun s p => p.2.groups.foldl (fun s q => f s p.1 q.1 q.2) s) s

/-- Plan phase of stroke y: rank 0 holds READY from every member (13 R504). -/
def State.collPlan (s : State) : State :=
  s.eachGroup fun s k gi g => match g.running with
    | none => s
    | some r =>
      if g.rank = 0 ∧ r.readyAt.isNone ∧ r.done ∧ (upFrom 0 g.members.length).all (fun j => g.ready.contains (collKey g.gen r.seq, j)) then
        s.modGroup k gi fun g => { g with running := g.running.map fun r => { r with readyAt := some s.stroke.number } }
      else s

/-- Run of stroke y: rank 0 sends COMMIT naming y + 1 (13 R504). -/
def State.collCommits (s : State) (k : Nat) : State :=
  (s.comp k).groups.foldl (fun s p => match p.2.running with
    | none => s
    | some r =>
      if r.readyAt = some s.stroke.number ∧ r.commitAt.isNone then
        let x := s.stroke.number + 1
        let s := s.toRanks k p.1 p.2 3 typeCommit r.seq (leBytes x 8)
        s.modGroup k p.1 fun g => { g with running := g.running.map fun r => { r with commitAt := some x } }
      else s) s

/-- A command's results are held back: a collective that does not commit yet. -/
def State.collHeld (s : State) (order : Nat) : Bool :=
  s.comps.any fun p => p.2.groups.any fun q => match q.2.running with
    | some r => r.order == order
    | none => false

/-- Settle of stroke x: a member that holds COMMIT commits and replies; an UNALIGNED one fails, and so do all (13 R504, R505). -/
def State.collSettle (s : State) : State :=
  s.eachGroup fun s k gi g => match g.running with
    | none => s
    | some r =>
      if r.commitAt ≠ some s.stroke.number then s
      else if s.stroke.align = .unaligned then (s.sendAbandon k gi r.seq .notAligned).failColl k gi .collNotAligned 0 true
      else
        let s := s.modGroup k gi fun g => { g with running := none, committed := sat64 g.committed 1 }
        match s.admOf r.order with
        | some a => s.reply a.cmd a.op .ok 0
        | none => s

/-- Groups whose commands are gone (13 R500, R505): an aborted creation frees its group, an aborted reset leaves it BROKEN, and an
aborted collective is told to rank 0. -/
def State.collCleanup (s : State) : State :=
  s.eachGroup fun s k gi g =>
    let gone (o : Option Nat) : Bool := match o with
      | some o => (s.admOf o).isNone
      | none => false
    let s := if gone g.order then (if g.st = .forming then s.dropGroup k gi else s.modGroup k gi fun g => { g with order := none, st := .broken }) else s
    if gone (g.running.map (·.order)) then
      let seq := (g.running.map (·.seq)).getD 0
      let late := g.running.any fun r => r.commitAt.isSome || r.readyAt.isSome
      let s := if g.rank = 0 ∧ late then s else s.sendAbandon k gi seq .aborted
      s.failColl k gi .aborted 0 late
    else s

/-- The groups of a compartment become BROKEN by a tenant change, and the other members are told (13 R496). -/
def State.breakGroups (s : State) (k : Nat) : State :=
  (s.comp k).groups.foldl (fun s p => (s.toRanks k p.1 p.2 3 typeBroken 0 []).modGroup k p.1 fun g => { g with st := .broken }) s

/-- STATE of COLL.QUERY. -/
def GroupSt.code : GroupSt → Nat
  | .forming => 0
  | .formed => 1
  | .broken => 2
  | .resetting => 3

/-- COLL.QUERY (13 R509). -/
def opCollQuery (c : Cmd) (s : State) : Chk Fin := runWork s do
  let b := c.block
  let k ← vfOf c
  chk (blockLen c 16)
  let (_, g) ← collAt k (u32 b 0)
  fld (zeroAt b 4 4) 4
  fld (aligned64 (u64 b 8)) 8
  putRecord c (u64 b 8)
    (layout 64 [(0, 4, g.handle), (4, 1, g.st.code), (6, 2, g.rank), (8, 2, g.members.length), (10, 2, g.gen), (16, 8, g.issued + 1),
      (24, 8, g.committed), (32, 8, g.abandoned), (40, 8, g.staleDropped), (48, 8, g.timeouts)])
  pure (.ok, 0)

/-! ### Delivery of messages (13 R480-R484) -/

/-- Apply what a group or device message says (13 R495, R496, R500, R505). -/
def State.applyNote (s : State) : LinkNote → State
  | .none => s
  | .groupCreated k gi rank same digest => match s.collGroup k gi with
    | some g =>
      if (g.st = .forming ∨ g.st = .formed) ∧ same ∧ digest = tenantDigest (s.comp k) then s.hear k gi rank fun s => s.sendCreated k gi g rank else s
    | none => s
  | .groupReset k gi rank gen => match s.collGroup k gi with
    | some g => if g.st = .resetting ∧ gen = g.gen + 1 then s.hear k gi rank fun s => s.sendReset k gi g rank else s
    | none => s
  | .groupBroken k gi => s.modGroup k gi fun g => { g with st := .broken }
  | .spanReport k node same first count digest =>
    let known := match (s.comp k).span with
      | some sp => sp.reports.any fun r => r.1 == node
      | none => true
    let s := s.modComp k fun x => { x with span := x.span.map fun sp => { sp with reports := (sp.reports.filter fun r => r.1 != node) ++ [(node, same, first, count, digest)] } }
    if known then s else s.spanReport k
  | .stale k gi seq => match s.collGroup k gi with
    | some g => if (g.running.map (·.seq)) = some seq then s.failColl k gi .staleDropped 0 false else s
    | none => s

/-- A whole message can be taken: it is not waiting for an earlier MSG_ID, and it is no MEMBERSHIP message, which has a
row of its own. -/
def State.takable (s : State) (w : Nat × List Byte) : Bool :=
  match msgOf w.1 w.2 with
  | none => true
  | some m => !m.isMembers && (s.link.node != some m.dest || (s.spanComp m.span).isNone || m.msgId ≤ assocGet s.link.gotIds (m.src, m.span, m.vc) + 1)

/-- MESSAGE_RECEIVE (13 R480-R484, R505): the first whole message of a port that can be taken is delivered, forwarded or dropped. -/
def opMessageReceive (p : Nat) (note : LinkNote) (s : State) : State :=
  atPort p [.up] s fun s =>
    match (s.port p).whole.find? s.takable with
    | none => s
    | some w =>
      let s := s.modPort p fun x => { x with whole := eraseFirst w x.whole }
      let drop (s : State) : State := { s with link := { s.link with routeDrops := sat64 s.link.routeDrops 1 } }
      match msgOf w.1 w.2 with
      | none => s
      | some m => match s.spanComp m.span with
        | none => drop s
        | some k =>
          if s.link.node ≠ some m.dest then s.forward k m
          else
            let (s, got) := s.deliver m
            if !got then s
            else match (if m.vc = 3 ∧ m.groupIndex ≠ 0xFFFF ∧ m.type ≠ typeStale then s.staleMsg k m else none) with
              | some s => s
              | none => s.applyNote note

/-! ### The meanings (13 Table 13.11) -/

def execCollGroup (c : Cmd) (s : State) : Out := .next (runCmd 0x0810 c s (opCollGroup c s))
def execCollRun (c : Cmd) (s : State) : Out := .next (runCmd 0x0811 c s (opCollRun c s))
def execCollQuery (c : Cmd) (s : State) : Out := .next (runCmd 0x0812 c s (opCollQuery c s))
def execMessageReceive (p : Nat) (note : LinkNote) (s : State) : Out := .next (opMessageReceive p note s)
def execCollDescriptor (k g gen rank seq : Nat) (d : CollDesc) (s : State) : Out := .next (opCollDescriptor k g gen rank seq d s)
def execCollData (k g gen rank seq : Nat) (tiles : List (Nat × TileData)) (s : State) : Out := .next (opCollData k g gen rank seq tiles s)
def execCollReady (k g gen rank seq : Nat) (s : State) : Out := .next (opCollReady k g gen rank seq s)
def execCollCommit (k g gen seq x : Nat) (s : State) : Out := .next (opCollCommit k g gen seq x s)
def execCollAbandon (k g gen seq : Nat) (why : Abandon) (s : State) : Out := .next (opCollAbandon k g gen seq why s)
def execCollTimeout (k g : Nat) (s : State) : Out := .next (opCollTimeout k g s)
def execCollGroupTimeout (k g : Nat) (s : State) : Out := .next (opCollGroupTimeout k g s)

end Sys2Proof.Machine
end

