-- ==== Sys2Proof/Machine/Train.lean ====
section
/-! DEFINITION. Training states: feedback, forming a group, contributions and the root's reduction (09 R345-R363, R368, R372-R382,
R386-R391). -/

namespace Sys2Proof.Machine

/-! ### Access -/

/-- A training state of variant INDEX i. -/
def State.trainOf (s : State) (k i target : Nat) : Option Train := (Tab.find? (s.comp k).variants i).bind (·.train? target)

/-- Change a training state. -/
def State.modTrain (s : State) (k i target : Nat) (f : Train → Train) : State :=
  s.modVariant k i fun v => v.setTrain target ((v.train? target).map f)

/-- Change the root of a training state. -/
def Train.modRoot (t : Train) (f : TrainRoot → TrainRoot) : Train := { t with root := t.root.map f }

/-- The state that a command names: one that names TARGET 2 and was admitted before the switch of a cutover acts on the state that is
TARGET 0 since (09 R380). -/
def Variant.targetOf (v : Variant) (c : Cmd) : Nat := if u8 c.block 4 = 2 ∧ c.order < v.cutTo then 0 else u8 c.block 4

/-- The variant and the state that a block names. -/
def trainBlock (c : Cmd) (k : Nat) : Run (Variant × Nat) := do
  let v ← variantAt c k (u32 c.block 0)
  fld (u8 c.block 4 == 0 || u8 c.block 4 == 2) 4
  pure (v, v.targetOf c)

/-- A command names the TARGET 0 state that a cutover admitted before it ends, or has ended (09 R380). -/
def Variant.ended (v : Variant) (c : Cmd) : Bool :=
  u8 c.block 4 == 0 && (decide (c.order < v.cutTo) || v.switch.any fun w => w.cutover && w.order < c.order)

/-- The open training state for a command that trains: one that a cutover ends is closed to it, and a LAGGED replica must
rejoin (09 R376, R380). -/
def trainFor (c : Cmd) (v : Variant) (target : Nat) : Run Train := do
  if v.ended c then failWith .trainClosed
  match v.train? target with
  | some t =>
    req t.opening.isNone .trainNotOpen
    req (!t.lagged) .replicaLagged
    pure t
  | none => failWith .trainNotOpen

/-- A tensor of a trainable tensor's shape. -/
def Trainable.blank (x : Trainable) (fmt : Nat) : Tensor := { id := 0, fmt, axis := x.axis, home := 1, cache := 0, rows := x.rows, cols := x.cols }

/-- What a tile of a part holds. -/
def Tensor.dataAt (t : Tensor) (n : Nat) : TileData := ((Tab.find? t.tiles n).bind (·.data)).getD (unwrittenTile t.fmt (t.shape n))

/-- An element of a tile as FP32. -/
def TileData.f32 (d : TileData) (g : TShape) (fmt r c : Nat) : Nat := rnd32 (d.val g fmt r c)

/-- Working copy, master copy and moments of one tile. -/
structure Quad where
  work : TileData
  master : TileData
  m1 : TileData
  m2 : TileData
  deriving DecidableEq, Repr

/-- The digest of shard k after update u (09 R370). -/
def Train.shardDigest (t : Train) (k u gen : Nat) (get : Nat → Nat → Quad) : List Byte :=
  match (t.shards)[k]?.bind fun sh => (t.tensors[sh.1]?).map fun x => (sh.1, x) with
  | none => []
  | some (i, x) =>
    sha384 (padTo 64 (leBytes t.groupId 4 ++ leBytes k 4 ++ leBytes u 8 ++ leBytes gen 2) ++ (t.shardTiles k).flatMap fun n =>
      let g := (x.blank 0).shape n
      let q := get i n
      tileImage 2 g q.work ++ tileImage 0 g q.master ++ tileImage 0x4B g q.m1 ++ tileImage 0x5B g q.m2)

/-! ### Feedback (09 R350-R354) -/

/-- A feedback header lies within Table 9.2 for a variant INDEX. -/
def feedbackOk (i : Nat) (h : List Byte) : Bool :=
  let kind := u8 h 1
  let p := u32 h 16
  let a := u32 h 20
  let b := u32 h 24
  u8 h 0 == 1 && 1 ≤ kind && kind ≤ 3 && u16 h 2 == i && u32 h 4 == 4 * (p + a + b) && 1 ≤ u64 h 8 && p ≤ 16384 && 1 ≤ a && a ≤ 16384
    && (if kind = 1 then b == 0 else b ≤ 16384 && (kind == 2 || 1 ≤ b)) && p + a + b ≤ 16384
    && isFin (u32 h 28) && !flt (u32 h 28) 0 && zeroAt h 40 24

/-- The initial value of a feedback record (09 R351). -/
def feedbackIv (seq : Nat) : List Byte := beBytes 0xFFFFFFFF 4 ++ beBytes seq 8

/-- Read and check the records of a submission (09 R352): index, offset, the last sequence number, records so far. -/
def feedbackRead (key : List Byte) (idx total : Nat) (read : Nat → Nat → List Byte) : Nat → Nat → Nat → Nat → List FbRecord → Except Err (List FbRecord × Nat)
  | 0, _, off, last, l => if off = total then .ok (l, last) else .error ⟨.feedbackFormat, noField⟩
  | n + 1, i, off, last, l =>
    if total < off + 64 then .error ⟨.feedbackFormat, noField⟩
    else
      let h := read off 64
      let len := u32 h 4
      let size := 64 * ceilDiv (64 + len + 16) 64
      if !feedbackOk idx h then .error ⟨.feedbackFormat, i⟩
      else if total < off + size then .error ⟨.feedbackFormat, noField⟩
      else
        let r : FbRecord := { header := h, cipher := read (off + 64) len, tag := read (off + 64 + len) 16 }
        match gcmOpen key (feedbackIv (u64 h 8)) h r.cipher r.tag with
        | none => .error ⟨.authFail, i⟩
        | some _ => if u64 h 8 ≤ last then .error ⟨.feedbackReplay, i⟩ else feedbackRead key idx total read n (i + 1) (off + size) (u64 h 8) (l ++ [r])

/-- FEEDBACK.SUBMIT (09 R352). -/
def opFeedbackSubmit (c : Cmd) (s : State) : Chk Fin := runWork s do
  let b := c.block
  let k ← vfOf c
  chk (blockLen c 24)
  let v ← variantAt c k (u32 b 0)
  fld (1 ≤ u32 b 4 && u32 b 4 ≤ 4096) 4
  fld (aligned64 (u64 b 8)) 8
  fld (128 ≤ u64 b 16 && u64 b 16 ≤ 2 ^ 28 && u64 b 16 % 64 == 0) 16
  endPlan
  let s ← get
  let e ← some! (s.keyEntry c.fn v.keyHandle) .authFail
  let i := varIndex v.handle
  let read (o n : Nat) : List Byte := s.hostRead c.fn (u64 b 8 + o) n
  let (l, last) ← chk (feedbackRead e.imageKey i (u64 b 16) read (u32 b 4) 0 0 v.lastSeq [])
  req (v.queue.length + l.length ≤ 65536) .noResource
  let n := (0, (l.map FbRecord.bytes).foldl (· + ·) 0, 0)
  req (s.spaceFree k c.order n) .noResource
  reserveNow c k n
  stage c (.fbQueue k i l last)
  pure (.ok, 0)

/-- Records that FEEDBACK.TAKE takes: at most n, and each whole within the length (09 R354). -/
def takeRecords : Nat → Nat → List FbRecord → List FbRecord
  | 0, _, _ => []
  | _, _, [] => []
  | n + 1, room, r :: rest =>
    let size := 64 * ceilDiv (64 + r.cipher.length) 64
    if size ≤ room then r :: takeRecords n (room - size) rest else []

/-- FEEDBACK.TAKE (09 R354). -/
def opFeedbackTake (c : Cmd) (s : State) : Chk Fin := runWork s do
  let b := c.block
  let k ← vfOf c
  chk (blockLen c 32)
  let v ← variantAt c k (u32 b 0)
  fld (1 ≤ u32 b 4 && u32 b 4 ≤ 4096) 4
  fld (aligned64 (u64 b 8)) 8
  fld (128 ≤ u64 b 16 && u64 b 16 ≤ 2 ^ 36 && u64 b 16 % 64 == 0) 16
  fld (zeroAt b 24 8) 24
  let (ba, buf, off) ← bufferAt c k (u64 b 8) (u64 b 16) 16
  if v.queue.isEmpty then pure (.okNote, 0)
  else
    let e ← some! (s.keyEntry c.fn v.keyHandle) .authFail
    let l := takeRecords (u32 b 4) (u64 b 16) v.queue
    reserve c k (pageSpace buf off ((l.map fun r => 64 * ceilDiv (64 + r.cipher.length) 64).foldl (· + ·) 0))
    endPlan
    let bytes ← l.mapM fun r => do
      let p ← some! (gcmOpen e.imageKey (feedbackIv (u64 r.header 8)) r.header r.cipher r.tag) .authFail
      let x := r.header ++ p
      pure (padTo (64 * ceilDiv x.length 64) x)
    if !l.isEmpty then
      writeBuffer c k ba buf off bytes.flatten
      stage c (.fbTake k (varIndex v.handle) l.length)
    pure (.ok, l.length)

/-- Records queued commit (09 R352). -/
def State.commitQueue (s : State) (k i : Nat) (l : List FbRecord) (seq : Nat) : State :=
  s.modVariant k i fun v => { v with queue := v.queue ++ l, lastSeq := seq, fbAccepted := sat64 v.fbAccepted l.length }

/-- Records taken commit (09 R354). -/
def State.commitTake (s : State) (k i n : Nat) : State := s.modVariant k i fun v => { v with queue := v.queue.drop n, fbTaken := sat64 v.fbTaken n }

/-! ### Messages of a training group (13 R506) -/

/-- TYPE codes of training messages (log 36). -/
def typeContribution : Nat := 10
def typeUpdate : Nat := 11
def typeParts : Nat := 13
def typeJoin : Nat := 14
def typeJoined : Nat := 15

/-- Send a training message to a replica, which is a rank of the state's collective group. -/
def State.trainSend (s : State) (k : Nat) (t : Train) (type replica key : Nat) (payload : List Byte) : State :=
  match s.groupAt k t.collGroup with
  | some (gi, g) => s.toRank k gi g 3 type replica key (leBytes t.gen 2 ++ payload)
  | none => s

/-- The images of a gradient's tiles, in order. -/
def gradPayload (t : Train) (x : Option Grad) : List Byte :=
  match x with
  | none => []
  | some l => (t.tensors.zip l).flatMap fun p => (upFrom 0 p.2.length).flatMap fun n => tileImage 0x4B ((p.1.blank 0).shape n) (p.2.getD n { elems := [] })

/-- A message that bears an older group generation is dropped and counts (13 R505, R506). -/
def State.trainMsg (s : State) (k i target gen : Nat) (f : Train → State → State) : State :=
  match s.trainOf k i target with
  | none => s
  | some t => match s.groupAt k t.collGroup with
    | none => f t s
    | some (gi, g) => if gen < g.gen then s.modGroup k gi fun g => { g with staleDropped := sat64 g.staleDropped 1 } else f t s

/-! ### Opening (09 R345-R349, R378, R388) -/

/-- The target set of a variant. -/
def Variant.targetSet (v : Variant) (target : Nat) : Option VarSet := if target = 2 then v.successor else v.active

/-- TENSOR_NO and table address of a set's tensors in TENSOR_NO order. -/
def VarSet.numbered (x : VarSet) : List (Nat × Nat) := sortBy (fun a b => a.1 ≤ b.1) (x.layers.flatMap fun l => [l.a, l.b] ++ l.s.toList)

/-- The configuration digest (09 R378; field widths as in Table 9.7). -/
def Train.configDigest (t : Train) (get : Nat → Nat → Quad) : List Byte :=
  sha384 (leBytes t.groupId 4 ++ leBytes t.replicas 2 ++ leBytes t.copies 2 ++ leBytes t.shardRowTiles 2 ++ leBytes t.delay 1 ++ leBytes t.closeStrokes 1
    ++ leBytes t.digestInterval 2 ++ leBytes t.ckptInterval 4
    ++ (t.tensors.flatMap fun x => leBytes x.rows 4 ++ leBytes x.cols 4 ++ leBytes 2 1 ++ leBytes x.axis 1)
    ++ (upFrom 0 t.shards.length).flatMap fun k => t.shardDigest k 0 0 get)

/-- Tiles of trainable tensor i that this replica holds. -/
def Train.heldTiles (t : Train) (i : Nat) : List Nat :=
  (upFrom 0 t.shards.length).flatMap fun k => if t.holds k && ((t.shards)[k]?.map (·.1)) == some i then t.shardTiles k else []

/-- The contents of a tile in the initial state (09 R345). -/
def initialQuad (g : TShape) (d : TileData) : Quad :=
  { work := d, master := { elems := d.elems.map (· * 65536) }, m1 := unwrittenTile 0x4B g, m2 := unwrittenTile 0x5B g }

/-- Name of a part without a table in a move: beyond every address. -/
def partName (t : Tensor) : Nat := 2 ^ 48 + t.id

/-- Names that planning takes for the parts of one trainable tensor: table addresses and TENSOR_IDs (06 R211, R246). -/
structure PartNames where
  work : Nat × Nat
  grad : Nat × Nat
  err : Nat
  master : Nat
  m1 : Nat
  m2 : Nat
  pend : List Nat

/-- Take the names of one trainable tensor's parts. -/
def partNames (k delay : Nat) (x : Trainable) : Run PartNames := do
  let work ← newTable k (x.blank 2).tableBytes
  let workId ← newId k
  let grad ← newTable k (x.blank 0).tableBytes
  let gradId ← newId k
  let err ← newId k
  let master ← newId k
  let m1 ← newId k
  let m2 ← newId k
  let pend ← (upFrom 0 delay).mapM fun _ => newId k
  pure { work := (work, workId), grad := (grad, gradId), err, master, m1, m2, pend }

/-- A part with tiles taken down. -/
def newPart (c : Cmd) (k : Nat) (t : Tensor) (l : List (Nat × TileData)) : Run Tensor := do
  let ts ← sealTiles c k (partName t) t l
  pure { t with tiles := ts.foldl (fun acc p => Tab.set acc p.1 p.2) t.tiles }

/-- A table object of the state. -/
def newMapped (c : Cmd) (k : Nat) (name : Nat × Nat) (t : Tensor) (l : List (Nat × TileData)) : Run (Nat × Tensor) := do
  let t := { t with id := name.2 }
  let ts ← sealTiles c k name.1 t l
  pure (name.1, { t with tiles := ts })

/-- Build one trainable tensor of the initial state: itself and its two tables (09 R345, R346, R348). -/
def openTensor (c : Cmd) (k : Nat) (v : Variant) (t : Train) (i : Nat) (x : Trainable) (m : PartNames) (ds : List TileData) : Run (Trainable × List (Nat × Tensor)) := do
  let base : Tensor := { x.blank 2 with home := t.nearHome, domain := some (varIndex v.handle), keyRef := v.keyHandle, owner := 7 }
  let all := upFrom 0 base.count
  let held := t.heldTiles i
  let quad (n : Nat) : Quad := initialQuad (base.shape n) (ds.getD n { elems := [] })
  let zero (fmt n : Nat) : Nat × TileData := (n, unwrittenTile fmt (base.shape n))
  let slow := { base with home := t.stateHome, peer := t.peer }
  let w ← newMapped c k m.work { base with readOnly := true } (all.map fun n => (n, (quad n).work))
  let g ← newMapped c k m.grad { base with fmt := 0 } (all.map (zero 0))
  let err ← newPart c k { base with id := m.err } (all.map (zero 2))
  let master ← newPart c k { slow with id := m.master, fmt := 0 } (held.map fun n => (n, (quad n).master))
  let m1 ← newPart c k { slow with id := m.m1, fmt := 0x4B } (held.map fun n => (n, (quad n).m1))
  let m2 ← newPart c k { slow with id := m.m2, fmt := 0x5B } (held.map fun n => (n, (quad n).m2))
  pure ({ x with work := w.1, grad := g.1, err, master, m1, m2, pend := m.pend.map fun id => { slow with id, fmt := 0x4B } }, [w, g])

/-- Copies for a checkpoint (09 R375). -/
def snapshot (c : Cmd) (k : Nat) (t : Train) (u : Nat) (get : Nat → Nat → Quad) : Run Ckpt := do
  let parts ← (upFrom 0 t.tensors.length).mapM fun i => match t.tensors[i]? with
    | none => pure ({ work := [], master := [], m1 := [], m2 := [] } : CkptPart)
    | some x => do
      let base := { x.err with home := t.ckptHome, peer := 0, tiles := [] }
      let held := t.heldTiles i
      let work ← sealTiles c k 0 { base with fmt := 2 } ((upFrom 0 base.count).map fun n => (n, (get i n).work))
      let master ← sealTiles c k 0 { base with fmt := 0 } (held.map fun n => (n, (get i n).master))
      let m1 ← sealTiles c k 0 { base with fmt := 0x4B } (held.map fun n => (n, (get i n).m1))
      let m2 ← sealTiles c k 0 { base with fmt := 0x5B } (held.map fun n => (n, (get i n).m2))
      pure { work, master, m1, m2 }
  pure { update := u, parts }

/-- The map and the TRAIN.OPEN record (09 R348, Table 9.8). -/
def openRecords (b : List Byte) (t : Train) : List (Nat × List Byte) :=
  let held := ((upFrom 0 t.shards.length).filter t.holds).length
  [(u64 b 64, t.tensors.flatMap fun x => leBytes x.work 8 ++ leBytes x.grad 8),
   (u64 b 56, layout 64 [(0, 4, t.tensors.length), (4, 4, t.shards.length), (8, 4, held), (16, 8, t.nearBytes), (24, 8, t.stateBytes), (32, 8, t.ckptBytes)])]

/-- A state opens: its tables, its parts and its records commit. -/
def stageOpen (c : Cmd) (k i : Nat) (t : Train) (tables : List (Nat × Tensor)) (records : List (Nat × List Byte)) : Run Unit := do
  for p in tables do stage c (.tensorNew k p.1 p.2)
  stage c (.train k i t.target (some { t with opening := none }))
  for r in records do putRecord c r.1 r.2

/-- This replica's join goes to the root (09 R378). -/
def State.sendJoin (s : State) (k : Nat) (t : Train) (o : TrainOpening) : State :=
  s.trainSend k t typeJoin 0 0 (leBytes t.index 2 ++ leBytes (bitNum o.rejoin) 1 ++ o.digest)

/-- The fields of TRAIN.OPEN (09 Table 9.7, R347). -/
def openFields (c : Cmd) (k : Nat) (v : Variant) (target : Nat) : Run Train := do
  let b := c.block
  let state := u8 b 6
  let n := u16 b 8
  let delay := u8 b 24
  let flags := u8 b 26
  fld (u8 b 5 ≤ 1) 5
  fld (state ≤ 3) 6
  cellFor state 6
  fld (u8 b 7 == 1 || u8 b 7 == 2) 7
  fld (1 ≤ n && n ≤ 256) 8
  fld (u16 b 10 < n) 10
  fld (1 ≤ u16 b 12 && u16 b 12 ≤ n) 12
  fld (1 ≤ u16 b 14 && u16 b 14 ≤ 1024) 14
  fld ((u32 b 20 == 0) == (n == 1)) 20
  fld (delay ≤ 4 && (state < 2 || 1 ≤ delay)) 24
  fld (1 ≤ u8 b 25 && u8 b 25 ≤ 16) 25
  fld (flags ≤ 7) 26
  fld (if state = 3 then u8 b 27 ≤ 15 else u8 b 27 == 0) 27
  fld (u16 b 30 == 0) 30
  fld (u32 b 36 == 0) 36
  fld (aligned64 (u64 b 56)) 56
  fld (aligned64 (u64 b 64)) 64
  claimedFor k state (u8 b 27)
  if n != 1 then
    let (_, g) ← collAt k (u32 b 20)
    fld (g.members.length == n && g.rank == u16 b 10) 20
  let x := (v.targetSet target).getD { slot := v.baseSlot }
  pure { target, nearHome := u8 b 5, stateHome := state, ckptHome := u8 b 7, peer := u8 b 27, replicas := n, index := u16 b 10, copies := u16 b 12
         shardRowTiles := u16 b 14, groupId := u32 b 16, collGroup := u32 b 20, delay, closeStrokes := u8 b 25, srWork := bitOf flags 1
         srMoments := bitOf flags 2, digestInterval := u16 b 28, ckptInterval := u32 b 32, seed := u64 b 40, streamBase := u64 b 48
         tensors := [], slot := x.slot, layers := x.layers }

/-- TRAIN.OPEN (09 R345-R349, R376-R378, R386-R388). -/
def opTrainOpen (c : Cmd) (s : State) : Chk Fin := runWork s do
  let b := c.block
  let k ← vfOf c
  chk (blockLen c 72)
  let (v, target) ← trainBlock c k
  let i := varIndex v.handle
  let waits : Bool := match v.train? target with
    | some t => match t.opening with
      | some o => o.order == c.order
      | none => false
    | none => false
  if waits then throw .wait
  let t ← openFields c k v target
  let x ← some! ((v.targetSet target).filter fun x => !x.layers.isEmpty) .trainNoSet
  fld (v.train? target).isNone 4
  let src ← x.numbered.mapM fun p => do
    let a ← tensorAt c k p.2 noField
    pure (p.1, p.2, a)
  let blank : Tensor := { id := 0, fmt := 2, axis := 0, home := t.nearHome, cache := 0, rows := 1, cols := 1 }
  let t := { t with tensors := src.map fun p => { no := p.1, rows := p.2.2.rows, cols := p.2.2.cols, axis := p.2.2.axis, work := 0, grad := 0, err := blank, master := blank, m1 := blank, m2 := blank } }
  let near (x : Trainable) : Nat × Nat × Nat :=
    addSpace { x.blank 2 with home := t.nearHome }.space { x.blank 0 with home := t.nearHome }.space
  reserve c k (sumSpace (t.space :: t.tensors.map near))
  let names ← t.tensors.mapM (partNames k t.delay)
  endPlan
  let data ← src.mapM fun p => readTiles c k p.2.1 p.2.2 false (upFrom 0 p.2.2.count)
  let quad (i n : Nat) : Quad := initialQuad (((t.tensors[i]?).map fun x => (x.blank 0).shape n).getD { axis := 0, vr := 0, vc := 0 }) ((data.getD i []).getD n { elems := [] })
  let built ← (upFrom 0 t.tensors.length).mapM fun j => match t.tensors[j]? with
    | none => failWith .trainNoSet
    | some x => match names[j]? with
      | some m => openTensor c k v t j x m (data.getD j [])
      | none => failWith .trainNoSet
  let t := { t with tensors := built.map (·.1) }
  let tables := built.flatMap (·.2)
  let ck ← snapshot c k t 0 quad
  let digest := t.configDigest quad
  let root : TrainRoot :=
    { err := t.tensors.map fun x => (upFrom 0 (x.blank 2).count).map fun n => unwrittenTile 2 ((x.blank 2).shape n), joined := [0], digest }
  let t := { t with ckpt := some ck, root := if t.index = 0 then some root else none }
  let records := openRecords b t
  if t.replicas = 1 then
    stageOpen c k i t tables records
    pure (.ok, 0)
  else
    let s ← get
    let o : TrainOpening := { order := c.order, start := s.stroke.number, rejoin := bitOf (u8 b 26) 0 && t.index != 0, digest, tables, records }
    let s := s.modVariant k i fun v => v.setTrain target (some { t with opening := some o })
    set (if t.index = 0 then s else s.sendJoin k t o)
    throw .wait

/-- A waiting TRAIN.OPEN completes with its state, which commits at the settle of this stroke (09 R376, R378). -/
def State.openDone (s : State) (k i target : Nat) (t : Train) (tables : List (Nat × Tensor)) : State :=
  match t.opening with
  | none => s
  | some o => match s.admOf o.order with
    | none => s
    | some a =>
      let s := (tables.foldl (fun s p => s.commit a.cmd (.tensorNew k p.1 p.2)) s).commit a.cmd (.train k i target (some { t with opening := none }))
      let s := o.records.foldl (fun s r => s.record a.cmd.fn r.1 r.2) s
      s.reply a.cmd a.op .ok 0

/-- The root's group forms when it holds a join from every replica (09 R378). -/
def State.formGroup (s : State) (k i target : Nat) : State :=
  match s.trainOf k i target with
  | none => s
  | some t => match t.root, t.opening with
    | some r, some o =>
      if (upFrom 0 t.replicas).all (r.joined.contains ·) then
        let s := s.openDone k i target t o.tables
        (upFrom 1 (t.replicas - 1)).foldl (fun s j => s.trainSend k t typeJoined j 0 [1]) s
      else s
    | _, _ => s

/-- GROUP_JOIN (09 R376, R378): at the root a join, compared by its configuration digest; at a replica the root's answer. -/
def opGroupJoin (k i target : Nat) (n : JoinNote) (s : State) : State :=
  match s.trainOf k i target with
  | none => s
  | some t => match n, t.root, t.opening with
    | .join j digest rejoin, some r, o =>
      if j = 0 ∨ t.replicas ≤ j then s
      else if digest ≠ r.digest then s.trainSend k t typeJoined j 0 [0]
      else if o.isSome then
        if rejoin then s else ((s.modTrain k i target fun t => t.modRoot fun r => { r with joined := (r.joined.filter (· ≠ j)) ++ [j] })).formGroup k i target
      else if rejoin then s.modTrain k i target fun t => t.modRoot fun r => { r with rejoins := (r.rejoins.filter (· ≠ j)) ++ [j] }
      else s
    | .formed, none, some o => if o.rejoin then s else s.openDone k i target t o.tables
    | .mismatch, none, some o => match s.admOf o.order with
      | some a => (s.modVariant k i fun v => v.setTrain target none).reply a.cmd a.op .groupMismatch 0
      | none => s
    | _, _, _ => s

/-- Joins are repeated in every run until the root answers, since it may open later. -/
def State.repeatJoins (s : State) (k : Nat) : State :=
  (s.comp k).variants.foldl (fun s p => [p.2.train0, p.2.train2].foldl (fun s t => match t with
    | some t => match t.opening with
      | some o => if t.index ≠ 0 ∧ !o.rejoin then s.sendJoin k t o else s
      | none => s
    | none => s) s) s

/-! ### The root (09 R358-R362, R372, R376) -/

/-- Replicas that hold shard k and are not LAGGED. -/
def Train.live (t : Train) (lagged : List Nat) (k : Nat) : List Nat := (t.holders k).filter fun j => !lagged.contains j

/-- An update whose digests are computed (09 R371, R375). -/
def Train.digested (t : Train) (u : Nat) : Bool := (t.digestInterval != 0 && u % t.digestInterval == 0) || (t.ckptInterval != 0 && u % t.ckptInterval == 0)

/-- A digest reaches the root: kept for the verdict, or compared with the agreed value after it (09 R372). -/
def Train.rootDigest (t : Train) (r : TrainRoot) (j : Nat) (d : Nat × Nat × List Byte) : TrainRoot :=
  if r.judged.contains d.2.1 then
    match r.agreed.find? fun a => a.1 == d.1 && a.2.1 == d.2.1 with
    | some a =>
      if a.2.2 = d.2.2 ∨ r.rebuilds.any (fun x => x.1 == d.2.1 && x.2.1 == d.1 && x.2.2.1 == j) then r
      else match (t.live r.lagged d.1).find? fun h => r.reports.any fun x => x.1 == d.1 && x.2.1 == d.2.1 && x.2.2.1 == h && x.2.2.2 == a.2.2 with
        | some src => { r with rebuilds := r.rebuilds ++ [(d.2.1, d.1, j, src)] }
        | none => r
    | none => r
  else if d.2.1 ≤ r.base then r
  else { r with reports := r.reports ++ [(d.1, d.2.1, j, d.2.2)] }

/-- A contribution or marker reaches the root (09 R358, R374): an older generation is stale, a second one is a duplicate. -/
def Train.rootReceive (t : Train) (now : Nat) (x : Contribution) : Train :=
  match t.root with
  | none => t
  | some r =>
    if x.gen < r.gen then { t with stale := sat64 t.stale 1 }
    else if r.arrived.contains (x.replica, x.step) then { t with duplicates := sat64 t.duplicates 1 }
    else
      let r := x.digests.foldl (fun r d => t.rootDigest r x.replica d) r
      { t with root := some { r with arrived := r.arrived ++ [(x.replica, x.step)], held := r.held ++ [(now, x)] } }

/-- Step nextClose may close at this settle (09 R358). -/
def Train.closable (t : Train) (r : TrainRoot) (now : Nat) : Bool :=
  let s := r.nextClose
  match (r.held.filter fun h => h.2.step == s).map (·.1) with
  | [] => false
  | f :: rest =>
    (upFrom 0 t.replicas).all (fun j => r.lagged.contains j || r.arrived.contains (j, s)) || rest.foldl min f + t.closeStrokes - 1 ≤ now

/-- The contributions of a step by replica, and the late ones included, in order (09 R359, R360). -/
structure Included where
  own : List (Option Contribution)
  late : List Contribution
  dropped : List Contribution

/-- Divide what the root holds at the close of step s (09 R360). -/
def Train.included (t : Train) (r : TrainRoot) (s : Nat) : Included :=
  let l := (r.held.map (·.2)).filter fun x => x.codes.isSome
  let ok (x : Contribution) : Bool := !r.lagged.contains x.replica
  let older := sortBy (fun a b => a.step < b.step || (a.step == b.step && a.replica ≤ b.replica)) (l.filter fun x => x.step < s)
  { own := (upFrom 0 t.replicas).map fun j => l.find? fun x => x.step == s && x.replica == j && ok x
    late := older.filter fun x => ok x && s ≤ x.step + 2
    dropped := older.filter (fun x => !(ok x && s ≤ x.step + 2)) ++ l.filter fun x => x.step == s && !ok x }

/-- The tree over replicas, then the late ones in order (09 R359). -/
def Included.sum (x : Included) (f : Contribution → Nat) : Nat := x.late.foldl (fun a y => fadd a (f y)) (treeSum fadd (x.own.map fun o => o.map f))

/-- An element of a contribution. -/
def Contribution.at (x : Contribution) (g : TShape) (i n r c : Nat) : Nat :=
  match x.codes with
  | some l => ((l.getD i []).getD n { elems := [] }).f32 g 0x4B r c
  | none => 0

/-- One tile of the reduced gradient and of e_root (09 R361). -/
def reduceTile (inc : Included) (n32 : Nat) (g : TShape) (i n : Nat) (err : TileData) : TileData × TileData :=
  let ys := g.cells.map fun p => fadd (fdiv (inc.sum fun x => x.at g i n p.1 p.2) n32) (err.f32 g 2 p.1 p.2)
  let q := (encodeTile 0x4B {} g 0 0 ys fun _ _ => 0).data
  (q, { elems := (g.cells.zip ys).map fun p => if isNan p.2 then 0 else bf16Of (fsub p.2 (q.f32 g 0x4B p.1.1 p.1.2)) })

/-- The verdict of one shard at update u (09 R372): the agreed value and the replicas to rebuild with their source, or neither. -/
def Train.shardVerdict (t : Train) (r : TrainRoot) (k u : Nat) : Option (List Byte × List (Nat × Nat × Nat)) :=
  let live := t.live r.lagged k
  let mine := (r.reports.filter fun x => x.1 == k && x.2.1 == u && live.contains x.2.2.1).map fun x => (x.2.2.1, x.2.2.2)
  match mine.find? fun x => live.length < 2 * (mine.filter fun y => decide (y.2 = x.2)).length with
  | none => none
  | some x =>
    let good := live.filter fun j => mine.any fun y => y.1 == j && decide (y.2 = x.2)
    some (x.2, (live.filter fun j => !good.contains j).map fun j => (k, j, good.headD 0))

/-- The verdict of an update (09 R372). -/
def Train.verdict (t : Train) (r : TrainRoot) (u : Nat) : Verdict × List (Nat × Nat × List Byte) :=
  let l := (upFrom 0 t.shards.length).map fun k => (k, t.shardVerdict r k u)
  if l.any fun p => p.2.isNone then (.rollback u, [])
  else
    let parts := l.flatMap fun p => (p.2.map (·.2)).getD []
    (if parts.isEmpty then .agreed u else .rebuild u parts, l.filterMap fun p => p.2.map fun x => (p.1, u, x.1))

/-- Every live holder of every shard has reported for u. -/
def Train.allReported (t : Train) (r : TrainRoot) (u : Nat) : Bool :=
  (upFrom 0 t.shards.length).all fun k => (t.live r.lagged k).all fun j => r.reports.any fun x => x.1 == k && x.2.1 == u && x.2.2.1 == j

/-- The verdicts of the message of step s, in update order; none after a ROLLBACK (09 R372). -/
def Train.verdicts (t : Train) (s : Nat) : TrainRoot → List Nat → TrainRoot × List Verdict
  | r, [] => (r, [])
  | r, u :: rest =>
    if t.allReported r u || u + t.delay + 3 ≤ s then
      let (v, agreed) := t.verdict r u
      let ckpt := match v with
        | .agreed _ =>
          if (t.ckptPending.map (·.update)) == some u || (t.ckptInterval != 0 && u % t.ckptInterval == 0 && decide (t.applied < u)) then u else r.ckpt
        | _ => r.ckpt
      let r := { r with judged := r.judged ++ [u], agreed := r.agreed ++ agreed, ckpt }
      match v with
      | .rollback _ => (r, [v])
      | _ =>
        let (r, l) := t.verdicts s r rest
        (r, v :: l)
    else t.verdicts s r rest

/-- REBUILDs for digests that arrived after their verdict, one verdict for each update. -/
def lateRebuilds (l : List (Nat × Nat × Nat × Nat)) : List Verdict :=
  ((l.map (·.1)).eraseDups).map fun u => .rebuild u ((l.filter fun x => x.1 == u).map (·.2))

/-- A message carries a ROLLBACK. -/
def UpdMsg.rollback (m : UpdMsg) : Bool := m.verdicts.any fun v => match v with
  | .rollback _ => true
  | _ => false

/-- The root closes its next step: the message M(s), its own error terms, and what a ROLLBACK resets (09 R358-R361, R372, R374,
R376). -/
def Train.close (t : Train) (r : TrainRoot) : TrainRoot :=
  let s := r.nextClose
  let inc := t.included r s
  let n := inc.sum (·.samples)
  let tiles := if fabs n = 0 then [] else (upFrom 0 t.tensors.length).map fun i => match t.tensors[i]? with
    | none => []
    | some x => (upFrom 0 (x.blank 0).count).map fun q => reduceTile inc n ((x.blank 0).shape q) i q ((r.err.getD i []).getD q { elems := [] })
  let lagged := r.lagged.filter fun j => !r.rejoins.contains j
  let missed := (upFrom 0 t.replicas).foldl (fun m j => Tab.set m j (if r.lagged.contains j || r.arrived.contains (j, s) then 0 else Tab.get 0 m j + 1)) r.missed
  let due := (upFrom (r.base + 1) (s - r.base)).filter fun u => t.digested u && !r.judged.contains u
  let (r, vs) := t.verdicts s r due
  let m : UpdMsg :=
    { gen := r.gen, step := s, included := (inc.own.filterMap fun o => o.map (·.replica)), late := inc.late.map fun x => (x.replica, x.step)
      dropped := inc.dropped.map fun x => (x.replica, x.step), n, lagged, verdicts := vs ++ lateRebuilds r.rebuilds, rejoins := r.rejoins
      codes := if fabs n = 0 then none else some (tiles.map fun l => l.map (·.1)) }
  let r := { r with lagged, missed, rejoins := [], rebuilds := [], outbox := r.outbox ++ [m], held := r.held.filter fun h => s < h.2.step
                    err := if fabs n = 0 then r.err else tiles.map fun l => l.map (·.2), nextClose := s + 1 }
  if m.rollback then
    { r with gen := r.gen + 1, nextClose := r.ckpt + 1, base := r.ckpt, judged := [], reports := [], agreed := [], held := [], arrived := []
             err := t.tensors.map fun x => (upFrom 0 (x.blank 2).count).map fun n => unwrittenTile 2 ((x.blank 2).shape n) }
  else r

/-- In Dusk the root neither closes nor broadcasts (15 R537). -/
def State.rootRuns (s : State) : Bool := !([PowerState.duskServing, .duskHolding, .night].contains s.power.state)

/-- STEP_CLOSE (09 R358): the root closes its next step at this settle, if it may. -/
def opStepClose (k i target : Nat) (s : State) : State :=
  match s.trainOf k i target with
  | none => s
  | some t => match t.root with
    | none => s
    | some r =>
      if s.stroke.phase = .settle ∧ s.rootRuns ∧ t.opening.isNone ∧ t.closable r s.stroke.number then
        let late := (t.included r r.nextClose).late.length
        let s := (upFrom 0 late).foldl (fun s _ => s.traceKind k 3 6) (s.traceKind k 3 5)
        s.modTrain k i target fun t => t.modRoot fun r => t.close r
      else s

/-- LAGGED_MARK (09 R376): 64 consecutive closed steps without an arrival. -/
def opLaggedMark (k i target j : Nat) (s : State) : State :=
  s.modTrain k i target fun t => t.modRoot fun r => if 64 ≤ Tab.get 0 r.missed j ∧ !r.lagged.contains j then { r with lagged := r.lagged ++ [j] } else r

/-- TRAIN_CONTRIBUTION (09 R358; 13 R506). -/
def opTrainContribution (k i target gen : Nat) (x : Contribution) (s : State) : State :=
  s.trainMsg k i target gen fun _ s => s.modTrain k i target fun t => t.rootReceive s.stroke.number x

/-- A message joins those held, from the plan phase of the next stroke; older generations, repeats and a 73rd are dropped
(09 R361, R362). An imported pending update, which names no replica, gives way to it. -/
def Train.hold (t : Train) (from_ : Nat) (m : UpdMsg) : Train :=
  let same (x : Nat × UpdMsg) : Bool := x.2.gen == m.gen && x.2.step == m.step
  if m.gen < t.gen || (m.gen == t.gen && m.step ≤ t.applied && t.opening.isNone) || t.messages.any (fun x => same x && !x.2.included.isEmpty)
    || 72 ≤ (t.messages.filter fun x => !same x).length then t
  else { t with messages := (t.messages.filter fun x => !same x) ++ [(from_, m)] }

/-- The root broadcasts what it closed at the start of its run, and holds its own copy (09 R362). -/
def State.trainBroadcast (s : State) (k : Nat) : State :=
  if !s.rootRuns then s
  else (s.comp k).variants.foldl (fun s p => [0, 2].foldl (fun s target => match s.trainOf k p.1 target with
    | none => s
    | some t => match t.root with
      | none => s
      | some r =>
        let s := r.outbox.foldl (fun s m => (upFrom 1 (t.replicas - 1)).foldl (fun s j => s.trainSend k t typeUpdate j m.step (gradPayload t m.codes)) s) s
        s.modTrain k p.1 target fun t =>
          let t := r.outbox.foldl (fun t m => t.hold (s.stroke.number + 1) m) t
          t.modRoot fun r => { r with outbox := [] }) s) s

/-! ### Contributions (09 R355-R357, R363) -/

/-- One tile of a contribution: the BQ8 tile, the new error term and the NaNs met (09 R356, R357). -/
def contribTile (g : TShape) (grad err : TileData) : TileData × TileData × Nat :=
  let ys := g.cells.map fun p => fadd (grad.f32 g 0 p.1 p.2) (err.f32 g 2 p.1 p.2)
  let q := (encodeTile 0x4B {} g 0 0 ys fun _ _ => 0).data
  (q, { elems := (g.cells.zip ys).map fun p => if isNan p.2 then 0 else bf16Of (fsub p.2 (q.f32 g 0x4B p.1.1 p.1.2)) }, (ys.filter isNan).length)

/-- The error terms and the zeroed local gradients of a step (09 R363 step 5). -/
def stepParts (c : Cmd) (k : Nat) (t : Train) (err : List (List TileData)) : Run (List Trainable) :=
  (upFrom 0 t.tensors.length).mapM fun i => match t.tensors[i]? with
    | none => failWith .trainNotOpen
    | some x => do
      let g ← tensorAt c k x.grad noField
      let all := upFrom 0 g.count
      writeTiles c k x.grad g (all.map fun n => (n, unwrittenTile 0 (g.shape n)))
      let l := err.getD i []
      let ts ← sealTiles c k (partName x.err) x.err (all.map fun n => (n, l.getD n (unwrittenTile 2 (g.shape n))))
      pure { x with err := { x.err with tiles := ts } }

/-- Pending updates (09 R367): the updates that this replica holds, has not applied and keeps in STATE_HOME, with their codes. -/
def Train.pendNow (t : Train) : List (Nat × Grad) :=
  t.messages.filterMap fun x =>
    if x.2.gen = t.gen ∧ t.applied < x.2.step ∧ x.2.step ≤ t.applied + t.delay then x.2.codes.map fun g => (x.2.step, g) else none

/-- The update whose codes a set of pending updates may hold. -/
def Train.pendStep (t : Train) (q : Nat) : Option (Nat × Grad) := t.pendNow.find? fun p => p.1 % t.delay == q

/-- A TRAIN.STEP brings the sets of pending updates up to date (09 R367): a set whose update is applied is dropped, and one whose
update is held and not kept yet is taken down (log 134). -/
def keepPending (c : Cmd) (k : Nat) (t : Train) : Run (List Trainable) :=
  (upFrom 0 t.tensors.length).mapM fun i => match t.tensors[i]? with
    | none => failWith .trainNotOpen
    | some x => do
      let sets ← (upFrom 0 x.pend.length).mapM fun q => match x.pend[q]?, t.pendStep q with
        | some p, some (_, g) =>
          let l := (t.heldTiles i).map fun n => (n, (g.getD i []).getD n (unwrittenTile 0x4B (p.shape n)))
          if decide (l.map (fun y => some y.2) = l.map fun y => (Tab.find? p.tiles y.1).bind (·.data)) then pure p
          else do
            let ts ← sealTiles c k (partName p) { p with tiles := [] } l
            pure { p with tiles := ts }
        | some p, none => pure { p with tiles := [] }
        | none, _ => failWith .trainNotOpen
      pure { x with pend := sets }

/-- The update that step s applies, where one is due (09 R363, R367). -/
def Train.due (t : Train) (s : Nat) : Bool := t.delay + 1 ≤ s && t.applied < s - t.delay

/-- TRAIN.STEP (09 R355-R357, R363, R367): the contribution is sent once; where an update is due the command waits for it. -/
def opTrainStep (c : Cmd) (s : State) : Chk Fin := runWork s do
  let b := c.block
  let k ← vfOf c
  chk (blockLen c 24)
  let (v, target) ← trainBlock c k
  let i := varIndex v.handle
  fld (zeroAt b 5 3) 5
  let step := u64 b 8
  let n := u32 b 16
  fld (1 ≤ step && step < 2 ^ 63) 8
  fld (n == 0 || (isFin n && flt 0 n)) 16
  fld (u32 b 20 == 0) 20
  let t ← trainFor c v target
  let again := match t.stepping with
    | some x => x.order == c.order
    | none => false
  if again then throw .wait
  req (step == t.nextStep) .trainStepMismatch
  endPlan
  let parts ← (upFrom 0 t.tensors.length).mapM fun j => match t.tensors[j]? with
    | none => failWith .trainNotOpen
    | some x => do
      let g ← tensorAt c k x.grad noField
      let gs ← readTiles c k x.grad g false (upFrom 0 g.count)
      pure ((upFrom 0 g.count).map fun q => contribTile (g.shape q) (gs.getD q { elems := [] }) (x.err.dataAt q))
  let nans := (parts.flatten.map fun p => p.2.2).foldl (· + ·) 0
  let s ← get
  req (!(n != 0 && nans != 0 && (s.numOf k).trap)) .nanTrapped
  if n != 0 then stageCounts c k [(.nanConverted, nans)]
  let err := if n = 0 then t.tensors.map fun x => (upFrom 0 x.err.count).map x.err.dataAt else parts.map fun l => l.map fun p => p.2.1
  let x : Contribution :=
    { replica := t.index, gen := t.gen, step, samples := n, codes := if n = 0 then none else some (parts.map fun l => l.map (·.1)), digests := t.digests, applied := t.applied }
  modify fun s =>
    let s := if t.index = 0 then s.modTrain k i target fun t => t.rootReceive s.stroke.number x
      else s.trainSend k t typeContribution 0 step (leBytes n 4 ++ gradPayload t x.codes)
    s.modTrain k i target fun t => { t with sent := max t.sent step, digests := [] }
  let st : Stepping := { order := c.order, step, start := s.stroke.number, err }
  if t.due step then
    modify fun s => s.modTrain k i target fun t => { t with stepping := some st }
    throw .wait
  else
    let ts ← stepParts c k t err
    let ts ← keepPending c k { t with tensors := ts }
    stage c (.train k i target (some { t with tensors := ts, nextStep := step + 1, digests := [] }))
    pure (.ok, 0)

/-! ### Other commands -/

/-- Training commands of a state that are admitted (09 R374, R376, R382). -/
def trainCmd (k : Nat) (v : Variant) (target : Nat) (a : Adm) : Bool :=
  decide (a.cmd.fn = .vf k) && [0x0701, 0x0703, 0x0704, 0x0720, 0x0721, 0x0722, 0x0723, 0x0724].contains a.op && a.fetched && u32 a.cmd.block 0 == v.handle
    && v.targetOf a.cmd == target

/-- The block of CLOSE, CHECKPOINT and PUBLISH. -/
def shortBlock (c : Cmd) (k : Nat) : Run (Variant × Nat) := do
  chk (blockLen c 8)
  let r ← trainBlock c k
  fld (zeroAt c.block 5 3) 5
  pure r

/-- TRAIN.CLOSE (09 R382): training commands of the state admitted earlier are aborted. -/
def opTrainClose (c : Cmd) (s : State) : Chk Fin := runWork s do
  let k ← vfOf c
  let (v, target) ← shortBlock c k
  req (v.train? target).isSome .trainNotOpen
  let s ← get
  let old := s.queue.filter fun a => a.cmd.order < c.order && trainCmd k v target a
  endPlan
  set (old.foldl (fun (s : State) a => s.reply a.cmd a.op .aborted 0) s)
  stage c (.train k (varIndex v.handle) target none)
  pure (.ok, 0)

/-- A hyperparameter is finite and not below zero. -/
def notNegative (x : Nat) : Bool := isFin x && !flt x 0

/-- TRAIN.CONFIG (09 R368). -/
def opTrainConfig (c : Cmd) (s : State) : Chk Fin := runWork s do
  let b := c.block
  let k ← vfOf c
  chk (blockLen c 48)
  let (v, target) ← trainBlock c k
  let i := varIndex v.handle
  fld (zeroAt b 5 3) 5
  let t ← trainFor c v target
  fld (t.applied < u64 b 8) 8
  fld (notNegative (u32 b 16)) 16
  fld (notNegative (u32 b 20) && flt (u32 b 20) one32) 20
  fld (notNegative (u32 b 24) && flt (u32 b 24) one32) 24
  fld (isFin (u32 b 28) && flt 0 (u32 b 28)) 28
  fld (notNegative (u32 b 32)) 32
  fld (notNegative (u32 b 36)) 36
  fld (zeroAt b 40 8) 40
  let s ← get
  let staged := (s.commits.filter fun p => match p.what with
    | .trainCfg j q g _ => j == k && q == i && g == target
    | _ => false).length
  req ((t.configs.filter fun h => t.applied < h.from_).length + staged < 4) .noResource
  stage c (.trainCfg k i target { from_ := u64 b 8, lr := u32 b 16, beta1 := u32 b 20, beta2 := u32 b 24, eps := u32 b 28, decay := u32 b 32, clip := u32 b 36 })
  pure (.ok, 0)

/-- TRAIN.QUERY (09 R388, R389). -/
def opTrainQuery (c : Cmd) (s : State) : Chk Fin := runWork s do
  let b := c.block
  let k ← vfOf c
  chk (blockLen c 16)
  let (v, target) ← trainBlock c k
  fld (zeroAt b 5 3) 5
  fld (aligned64 (u64 b 8)) 8
  let queue := [(32, 4, v.queue.length), (40, 8, (v.queue.map FbRecord.bytes).foldl (· + ·) 0), (112, 8, v.fbTaken), (120, 8, v.fbAccepted)]
  match (v.train? target).filter fun t => t.opening.isNone with
  | none =>
    putRecord c (u64 b 8) (layout 128 queue)
    pure (.okNote, 0)
  | some t =>
    let held := ((upFrom 0 t.shards.length).filter t.holds).length
    putRecord c (u64 b 8)
      (layout 128 [(0, 4, v.handle), (4, 1, target), (5, 1, bitNum t.root.isSome + 2 * bitNum t.lagged + 4 * bitNum t.ckptPending.isSome), (6, 2, t.gen),
        (8, 8, t.nextStep), (16, 8, t.applied), (24, 8, (t.ckpt.map (·.update)).getD 0), (32, 4, v.queue.length), (36, 4, held),
        (40, 8, (v.queue.map FbRecord.bytes).foldl (· + ·) 0), (48, 8, t.late), (56, 8, t.dropped), (64, 8, t.stale), (72, 8, t.duplicates), (80, 8, t.rebuilds),
        (88, 8, t.rollbacks), (96, 8, t.skipped), (104, 8, t.ckptSkipped), (112, 8, v.fbTaken), (120, 8, v.fbAccepted)])
    pure (.ok, 0)

/-- TRAIN.CHECKPOINT (09 R375). -/
def opTrainCheckpoint (c : Cmd) (s : State) : Chk Fin := runWork s do
  let k ← vfOf c
  let (v, target) ← shortBlock c k
  let t ← trainFor c v target
  fld (t.digestInterval != 0 || t.ckptInterval != 0) noField
  req t.ckptPending.isNone .noResource
  stage c (.ckptAsk k (varIndex v.handle) target)
  pure (.ok, 0)

/-- TRAIN_TIMEOUT (09 R377): a TRAIN.OPEN or TRAIN.STEP still waiting at its 4,096th stroke. -/
def opTrainTimeout (order : Nat) (s : State) : State :=
  match s.admOf order with
  | none => s
  | some a => match a.cmd.fn with
    | .pf => s
    | .vf k =>
      let i := varIndex (u32 a.cmd.block 0)
      let mine (t : Train) : Bool := (t.opening.any fun o => o.order == order) || t.stepping.any fun x => x.order == order
      let target := if ((s.trainOf k i 2).any mine) then 2 else 0
      match s.trainOf k i target with
      | none => s
      | some t =>
        let late (o start : Nat) : Bool := o == order && start + 4095 ≤ s.stroke.number
        if t.opening.any fun o => late o.order o.start then (s.modVariant k i fun v => v.setTrain target none).reply a.cmd a.op .trainTimeout 0
        else if t.stepping.any fun x => late x.order x.start then (s.modTrain k i target fun t => { t with stepping := none }).reply a.cmd a.op .trainTimeout 0
        else s

/-! ### The meanings -/

def execFeedbackSubmit (c : Cmd) (s : State) : Out := .next (runCmd 0x0710 c s (opFeedbackSubmit c s))
def execFeedbackTake (c : Cmd) (s : State) : Out := .next (runCmd 0x0711 c s (opFeedbackTake c s))
def execTrainOpen (c : Cmd) (s : State) : Out := .next (runCmd 0x0701 c s (opTrainOpen c s))
def execTrainClose (c : Cmd) (s : State) : Out := .next (runCmd 0x0702 c s (opTrainClose c s))
def execTrainConfig (c : Cmd) (s : State) : Out := .next (runCmd 0x0703 c s (opTrainConfig c s))
def execTrainQuery (c : Cmd) (s : State) : Out := .next (runCmd 0x0704 c s (opTrainQuery c s))
def execTrainStep (c : Cmd) (s : State) : Out := .next (runCmd 0x0720 c s (opTrainStep c s))
def execTrainCheckpoint (c : Cmd) (s : State) : Out := .next (runCmd 0x0721 c s (opTrainCheckpoint c s))
def execGroupJoin (k v target : Nat) (n : JoinNote) (s : State) : Out := .next (opGroupJoin k v target n s)
def execTrainContribution (k v target gen : Nat) (x : Contribution) (s : State) : Out := .next (opTrainContribution k v target gen x s)
def execStepClose (k v target : Nat) (s : State) : Out := .next (opStepClose k v target s)
def execLaggedMark (k v target replica : Nat) (s : State) : Out := .next (opLaggedMark k v target replica s)
def execTrainTimeout (order : Nat) (s : State) : Out := .next (opTrainTimeout order s)

end Sys2Proof.Machine
end

