-- ==== Sys2Proof/Machine/TrainApply.lean ====
section
/-! DEFINITION. Applying an update, agreement, checkpoints, publishing, export and import of training states (09 R363-R385). -/

namespace Sys2Proof.Machine

/-! ### The optimiser (09 R364-R366) -/

/-- A power of an exact value. -/
def Num.pow (a : Num) (n : Nat) : Num :=
  match a with
  | .fin neg m e => .fin (neg && n % 2 == 1) (m ^ n) (e * n)
  | x => x

/-- The hyperparameters in force for update u (09 R368). -/
def Train.hyperAt (t : Train) (u : Nat) : Hyper :=
  (t.configs.filter fun h => h.from_ ≤ u).foldl (fun b h => if b.from_ ≤ h.from_ then h else b) {}

/-- cr(1 - beta^u). -/
def biasCorr (beta u : Nat) : Nat := rnd32 ((Num.ofNat 1).sub ((val32 beta).pow u))

/-- m, v and w of one element (09 R364): code, m_old, v_old and w_old as FP32. -/
def adam (h : Hyper) (c1 c2 g m v w : Nat) : Nat × Nat × Nat :=
  let g := if flt 0 h.clip then (let hi := if flt h.clip g then h.clip else g; let lo := fneg h.clip; if flt hi lo then lo else hi) else g
  let m := fadd (fmul h.beta1 m) (fmul (fsub one32 h.beta1) g)
  let v := fadd (fmul h.beta2 v) (fmul (fsub one32 h.beta2) (fmul g g))
  let den := fadd (fsqrt (fdiv v c2)) h.eps
  let dir := fadd (fdiv (fdiv m c1) den) (fmul h.decay w)
  (m, v, fsub w (fmul h.lr dir))

/-- The draw for an element of a trainable tensor: j is 0, 1 or 2 (09 R366). -/
def Train.draw (t : Train) (x : Trainable) (u j n r c : Nat) : Nat :=
  let (_, i, q) := (x.blank 0).place n
  randDraw t.seed ((t.streamBase + (4 * u + j) * 2 ^ 32) % 2 ^ 64) 16 (elemIndex x.rows x.cols 0 0 0 (128 * i + r) (128 * q + c))

/-- One tile of an update; none where an m, v or w is NaN or infinite (09 R364-R366). -/
def Train.updateTile (t : Train) (x : Trainable) (u n : Nat) (h : Hyper) (c1 c2 : Nat) (code : TileData) (old : Quad) : Option Quad :=
  let g := (x.blank 0).shape n
  let l := g.cells.map fun p =>
    adam h c1 c2 (code.f32 g 0x4B p.1 p.2) (old.m1.f32 g 0x4B p.1 p.2) (old.m2.f32 g 0x5B p.1 p.2) (old.master.f32 g 0 p.1 p.2)
  if l.all fun e => isFin e.1 && isFin e.2.1 && isFin e.2.2 then
    some
      { work := (encodeTile 2 { sr := t.srWork } g 0 0 (l.map (·.2.2)) (t.draw x u 2 n)).data
        master := { elems := l.map (·.2.2) }
        m1 := (encodeTile 0x4B { sr := t.srMoments } g 0 0 (l.map (·.1)) (t.draw x u 0 n)).data
        m2 := (encodeTile 0x5B { sr := t.srMoments } g 0 0 (l.map (·.2.1)) (t.draw x u 1 n)).data }
  else none

/-- The contents of a tile as the state holds it. -/
def State.quadAt (s : State) (k : Nat) (x : Trainable) (n : Nat) : Quad :=
  { work := match Tab.find? (s.comp k).tensors x.work with
      | some w => w.dataAt n
      | none => unwrittenTile 2 ((x.blank 2).shape n)
    master := x.master.dataAt n, m1 := x.m1.dataAt n, m2 := x.m2.dataAt n }

/-! ### Parts sent between replicas (09 R363, R373, R376) -/

/-- Format byte of a part: working copy, master copy, moments. -/
def partFmt (part : Nat) : Nat := if part = 0 then 2 else if part = 1 then 0 else if part = 2 then 0x4B else 0x5B

/-- A part of a tile. -/
def Quad.part (q : Quad) (part : Nat) : TileData := if part = 0 then q.work else if part = 1 then q.master else if part = 2 then q.m1 else q.m2

/-- Send a part of a shard to a replica. -/
def State.sendPart (s : State) (k : Nat) (t : Train) (shard u part j : Nat) (get : Nat → Nat → Quad) : State :=
  match (t.shards)[shard]?.bind fun sh => (t.tensors[sh.1]?).map fun x => (sh.1, x) with
  | none => s
  | some (i, x) => s.trainSend k t typeParts j u
      (leBytes shard 4 ++ leBytes part 1 ++ (t.shardTiles shard).flatMap fun n => tileImage (partFmt part) ((x.blank 0).shape n) ((get i n).part part))

/-- REBUILDs of a message: (shard, replica, source). -/
def UpdMsg.rebuilds (m : UpdMsg) : List (Nat × Nat × Nat) := m.verdicts.flatMap fun v => match v with
  | .rebuild _ l => l
  | _ => []

/-- Who sends a shard's working copy to the others: the source of a REBUILD, else the lowest live holder (09 R363, R373). -/
def Train.sender (t : Train) (m : UpdMsg) (shard : Nat) : Nat :=
  match m.rebuilds.find? fun x => x.1 == shard with
  | some x => x.2.2
  | none => ((t.live m.lagged shard).filter fun j => !m.rejoins.contains j).headD 0

/-- Send the pending updates of a shard, that of update u + p as part 3 + p (09 R373, R376). -/
def State.sendPending (s : State) (k : Nat) (t : Train) (shard u j : Nat) : State :=
  match (t.shards)[shard]?.bind fun sh => (t.tensors[sh.1]?).map fun x => (sh.1, x) with
  | none => s
  | some (i, x) => (({ t with applied := u } : Train).pendNow).foldl (fun s p => s.trainSend k t typeParts j u
      (leBytes shard 4 ++ leBytes (3 + (p.1 - u)) 1
        ++ (t.shardTiles shard).flatMap fun n => tileImage 0x4B ((x.blank 0).shape n) ((p.2.getD i []).getD n { elems := [] }))) s

/-- Everything a replica sends once it has applied M(x) (09 R363, R373, R376). -/
def State.sendAll (s : State) (k : Nat) (t : Train) (m : UpdMsg) (get : Nat → Nat → Quad) : State :=
  (upFrom 0 t.shards.length).foldl (fun s sh =>
    if t.sender m sh ≠ t.index then s
    else
      let rebuilt := m.rebuilds.filter fun x => x.1 == sh
      let others := (upFrom 0 t.replicas).filter fun j => j != t.index && !m.lagged.contains j
      let s := if m.codes.isNone && rebuilt.isEmpty then s
        else (others.filter fun j => !(t.holders sh).contains j).foldl (fun s j => s.sendPart k t sh m.step 0 j get) s
      let whole (s : State) (j : Nat) : State := ((upFrom 0 4).foldl (fun s p => s.sendPart k t sh m.step p j get) s).sendPending k t sh m.step j
      let s := rebuilt.foldl (fun s x => whole s x.2.1) s
      m.rejoins.foldl (fun s j => if (t.holders sh).contains j then whole s j else s.sendPart k t sh m.step 0 j get) s) s

/-- A received part. -/
def Train.got (t : Train) (shard u part : Nat) : Option Parts := t.received.find? fun p => p.shard == shard && p.update == u && p.part == part

/-- A tile of received parts over what is held. -/
def Train.gotQuad (t : Train) (shard u n : Nat) (old : Quad) : Quad :=
  let tile (part : Nat) : TileData := ((t.got shard u part).bind fun p => (p.tiles.find? fun q => q.1 == n).map (·.2)).getD (old.part part)
  { work := tile 0, master := tile 1, m1 := tile 2, m2 := tile 3 }

/-- Pending updates received with shards take the place of this replica's own codes of those shards (09 R373). -/
def Train.installPending (t : Train) (shards : List Nat) (u : Nat) : Train :=
  { t with messages := t.messages.map fun x =>
      let put (g : Grad) (sh : Nat) : Grad := match t.got sh u (3 + (x.2.step - u)), (t.shards)[sh]? with
        | some p, some (i, _, _) => g.set i (p.tiles.foldl (fun l q => l.set q.1 q.2) (g.getD i []))
        | _, _ => g
      if x.2.step ≤ u then x else (x.1, { x.2 with codes := x.2.codes.map (shards.foldl put) }) }

/-! ### TRAIN_UPDATE_APPLY -/

/-- Tiles that change, by trainable tensor and tile. -/
abbrev Changed := List (Nat × Nat × Quad)

/-- The contents after changes. -/
def Changed.get (l : Changed) (old : Nat → Nat → Quad) (i n : Nat) : Quad :=
  match l.find? fun p => p.1 == i && p.2.1 == n with
  | some p => p.2.2
  | none => old i n

/-- Seal and stage changed tiles: working copies in their tables, the other parts of held tiles in the state (09 R363). -/
def writeChanged (c : Cmd) (k : Nat) (t : Train) (ch : Changed) : Run (List Trainable) :=
  (upFrom 0 t.tensors.length).mapM fun i => match t.tensors[i]? with
    | none => failWith .trainNotOpen
    | some x => do
      let mine := (ch.filter fun p => p.1 == i).map (·.2)
      if mine.isEmpty then pure x
      else
        let w ← tensorAt c k x.work noField
        stage c (.tileWrite k x.work (← sealTiles c k x.work w (mine.map fun p => (p.1, p.2.work))))
        let held := mine.filter fun p => (t.heldTiles i).contains p.1
        let put (p : Tensor) (f : Quad → TileData) : Run Tensor := do
          let ts ← sealTiles c k (partName p) p (held.map fun q => (q.1, f q.2))
          pure { p with tiles := ts.foldl (fun acc q => Tab.set acc q.1 q.2) p.tiles }
        let master ← put x.master (·.master)
        let m1 ← put x.m1 (·.m1)
        let m2 ← put x.m2 (·.m2)
        pure { x with master, m1, m2 }

/-- Parts are brought up from their tiers before they are used: a tag or a header that does not verify stops the work (06 R224, R225;
13 R498). -/
def bringParts (c : Cmd) (k : Nat) (l : List Tensor) : Run Unit := do
  for p in l do
    let _ ← bringUp c k (partName p) p (p.tiles.map (·.1))

/-- The master copies, moments and pending updates of a state. -/
def Train.slowParts (t : Train) : List Tensor := t.tensors.flatMap fun x => x.master :: x.m1 :: x.m2 :: x.pend

/-- The parts of a checkpoint as tensors in CKPT_HOME (09 R375). -/
def Train.ckptParts (t : Train) (ck : Ckpt) : List Tensor :=
  (t.tensors.zip ck.parts).flatMap fun p =>
    let base := { p.1.err with home := t.ckptHome, peer := 0 }
    [{ base with fmt := 2, tiles := p.2.work }, { base with fmt := 0, tiles := p.2.master }, { base with fmt := 0x4B, tiles := p.2.m1 }, { base with fmt := 0x5B, tiles := p.2.m2 }]

/-- Verdicts act on the pending checkpoint (09 R375). -/
def Train.judge (t : Train) (v : Verdict) : Train :=
  let mine (u : Nat) : Bool := (t.ckptPending.map (·.update)) == some u
  match v with
  | .agreed u => if mine u then { t with ckpt := t.ckptPending, ckptPending := none } else t
  | .rebuild u _ => if mine u then { t with ckptPending := none } else t
  | .rollback u => if mine u then { t with ckptPending := none } else t

/-- What a message counts (09 R360, R373, R374, R389). -/
def Train.countMsg (t : Train) (m : UpdMsg) : Train :=
  let rebuilt := (m.verdicts.map fun v => match v with
    | .rebuild _ l => ((l.map fun x => x.2.1).eraseDups).length
    | _ => 0).foldl (· + ·) 0
  { t with late := sat64 t.late m.late.length, dropped := sat64 t.dropped m.dropped.length, rebuilds := sat64 t.rebuilds rebuilt
           rollbacks := sat64 t.rollbacks (bitNum m.rollback) }

/-- The rollback that a message orders (09 R374): the last agreed checkpoint comes back. -/
def applyRollback (c : Cmd) (k i : Nat) (t : Train) : Run Unit := do
  let ck := t.ckpt.getD { update := 0, parts := [] }
  bringParts c k (t.ckptParts ck)
  let tile (l : Tab Tile) (n : Nat) : TileData := ((Tab.find? l n).bind (·.data)).getD { elems := [] }
  let ch : Changed := (upFrom 0 t.tensors.length).flatMap fun j => match t.tensors[j]?, ck.parts[j]? with
    | some x, some p => (upFrom 0 (x.blank 0).count).map fun n => (j, n, { work := tile p.work n, master := tile p.master n, m1 := tile p.m1 n, m2 := tile p.m2 n })
    | _, _ => []
  let ts ← writeChanged c k t ch
  let ts ← stepParts c k { t with tensors := ts.map fun x => { x with pend := x.pend.map fun p => { p with tiles := [] } } } []
  modify fun s => s.traceKind k 3 7
  stage c (.train k i t.target (some { t with tensors := ts, gen := t.gen + 1, applied := ck.update, nextStep := ck.update + 1, stepping := none, ckptPending := none, digests := [], messages := [] }))

/-- The changed tiles of one shard: received parts, or the update where this replica holds the shard; and whether it was skipped. -/
def shardChange (k : Nat) (t : Train) (m : UpdMsg) (sh : Nat) (h : Hyper) (c1 c2 : Nat) : Run (Changed × Bool) := do
  let u := m.step
  let s ← get
  match (t.shards)[sh]?.bind fun p => (t.tensors[p.1]?).map fun x => (p.1, x) with
  | none => pure ([], false)
  | some (i, x) =>
    let tiles := t.shardTiles sh
    let install := m.rebuilds.any fun r => r.1 == sh && r.2.1 == t.index
    let from_ (parts : List Nat) : Run (Changed × Bool) := do
      if !parts.all fun p => (t.got sh u p).isSome then throw .wait
      pure (tiles.map fun n => (i, n, t.gotQuad sh u n (s.quadAt k x n)), false)
    if install then from_ [0, 1, 2, 3]
    else if t.holds sh then
      match m.codes with
      | none => pure ([], false)
      | some codes =>
        let l := tiles.map fun n => (i, n, t.updateTile x u n h c1 c2 ((codes.getD i []).getD n { elems := [] }) (s.quadAt k x n))
        if l.all fun p => p.2.2.isSome then pure (l.filterMap fun p => p.2.2.map fun q => (p.1, p.2.1, q), false) else pure ([], true)
    else if m.codes.isNone && !m.rebuilds.any fun r => r.1 == sh then pure ([], false)
    else from_ [0]

/-- Apply the message that is due (09 R363-R367, R370-R376). -/
def applyUpdate (c : Cmd) (k i target : Nat) : Run (Status × Nat) := do
  let s ← get
  let t ← some! (s.trainOf k i target) .trainNotOpen
  let st ← some! t.stepping .trainNotOpen
  match t.messages.find? fun p => p.2.gen == t.gen && p.2.step == t.applied + 1 && p.1 ≤ s.stroke.number with
  | none => throw .wait
  | some (_, m) =>
    if m.lagged.contains t.index then
      set (s.modTrain k i target fun t => { t with lagged := true, stepping := none })
      failWith .replicaLagged
    let t := m.verdicts.foldl Train.judge (t.countMsg m)
    if m.rollback then
      applyRollback c k i t
      pure (.replicaDiverged, 0)
    else
      bringParts c k t.slowParts
      let u := m.step
      let h := t.hyperAt u
      let c1 := biasCorr h.beta1 u
      let c2 := biasCorr h.beta2 u
      let l ← (upFrom 0 t.shards.length).mapM fun sh => shardChange k t m sh h c1 c2
      let ch : Changed := l.flatMap (·.1)
      let skipped := (l.filter (·.2)).length
      let old (i n : Nat) : Quad := match t.tensors[i]? with
        | some x => s.quadAt k x n
        | none => { work := { elems := [] }, master := { elems := [] }, m1 := { elems := [] }, m2 := { elems := [] } }
      let now := ch.get old
      let ts ← writeChanged c k t ch
      let ts ← stepParts c k { t with tensors := ts } st.err
      let mine := (m.rebuilds.filter fun r => r.2.1 == t.index).map (·.1)
      let t := { { t with tensors := ts, skipped := sat64 t.skipped skipped }.installPending mine u with applied := u }
      let ts ← keepPending c k t
      let t := { t with tensors := ts }
      modify fun s => s.sendAll k t m now
      let digested := t.digested u
      let digests := if digested then ((upFrom 0 t.shards.length).filter t.holds).map fun sh => (sh, u, t.shardDigest sh u t.gen now) else []
      let sched := t.ckptInterval != 0 && u % t.ckptInterval == 0
      let asked := t.ckptAsked && digested
      let ck ← if (sched || asked) && t.ckptPending.isNone then do
          let x ← snapshot c k t u now
          pure (some x)
        else pure t.ckptPending
      let t := { t with ckptSkipped := sat64 t.ckptSkipped (bitNum (sched && t.ckptPending.isSome)), ckptPending := ck, ckptAsked := t.ckptAsked && !asked }
      stage c (.train k i target (some { t with applied := u, nextStep := st.step + 1, stepping := none, digests := t.digests ++ digests }))
      pure (.ok, 0)

/-- TRAIN_UPDATE_APPLY (09 R363): in its compartment's run the waiting TRAIN.STEP applies the message it waits for. After a rollback
the state's other training commands diverge with it. -/
def opUpdateApply (k i target : Nat) (s : State) : State :=
  match s.trainOf k i target, Tab.find? (s.comp k).variants i with
  | some t, some v => match t.stepping.bind fun x => s.admOf x.order with
    | none => s
    | some a =>
      if !s.inRunOf k || s.stroke.guard then s
      else match (ExceptT.run (applyUpdate a.cmd k i target)).run { s with act := { order := some a.cmd.order, snap := a.snap } } with
        | (.ok (st, d), s') =>
          let s0 := s'.flushWindow
          let s' := s0.reply a.cmd a.op st d
          if st = .replicaDiverged then
            -- the restore commits although the step fails (R390)
            let s' : State := { s' with commits := s0.commits }
            (s'.queue.filter fun b => trainCmd k v target b && b.op != 0x0702 && b.op != 0x0704).foldl (fun s b => s.reply b.cmd b.op .replicaDiverged 0) s'
          else s'
        | (.error (.fail e), s') =>
          let s' : State := { s' with commits := s.commits, records := s.records, act := {} }
          (s'.modTrain k i target fun t => { t with stepping := none }).reply a.cmd a.op e.st e.detail
        | (.error .peer, s') => { s' with commits := s.commits, records := s.records, comps := s.comps, act := {} }
        | (.error _, s') => { s' with commits := s.commits, records := s.records, act := {} }
  | _, _ => s

/-! ### Rejoining and receiving (09 R362, R373, R376) -/

/-- A rejoining replica that holds the message listing it and every part: its state, at the step after (09 R376). -/
def rejoinWork (c : Cmd) (k : Nat) (t : Train) (o : TrainOpening) (m : UpdMsg) : Run (Train × List (Nat × Tensor)) := do
  let u := m.step
  let ch : Changed := (upFrom 0 t.shards.length).flatMap fun sh => match (t.shards)[sh]?.bind fun p => (t.tensors[p.1]?).map fun x => (p.1, x) with
    | none => []
    | some (i, x) => (t.shardTiles sh).map fun n =>
        (i, n, t.gotQuad sh u n { work := { elems := [] }, master := x.master.dataAt n, m1 := x.m1.dataAt n, m2 := x.m2.dataAt n })
  let built ← (upFrom 0 t.tensors.length).mapM fun i => match t.tensors[i]? with
    | none => failWith .trainNotOpen
    | some x => do
      let mine := (ch.filter fun p => p.1 == i).map (·.2)
      let w := o.tables.find? fun p => p.1 == x.work
      let base := (w.map (·.2)).getD (x.blank 2)
      let ws ← sealTiles c k x.work base (mine.map fun p => (p.1, p.2.work))
      let put (p : Tensor) (f : Quad → TileData) : Run Tensor := do
        let ts ← sealTiles c k (partName p) p ((mine.filter fun q => (t.heldTiles i).contains q.1).map fun q => (q.1, f q.2))
        pure { p with tiles := ts.foldl (fun acc q => Tab.set acc q.1 q.2) p.tiles }
      let master ← put x.master (·.master)
      let m1 ← put x.m1 (·.m1)
      let m2 ← put x.m2 (·.m2)
      pure ({ x with master, m1, m2 }, (x.work, { base with tiles := ws }))
  let ts := built.map (·.1)
  let tables := o.tables.map fun p => ((built.map (·.2)).find? fun q => q.1 == p.1).getD p
  let t := t.installPending ((upFrom 0 t.shards.length).filter t.holds) u
  pure ({ t with tensors := ts, gen := m.gen, applied := u, nextStep := u + 1, received := [] }, tables)

/-- A rejoin completes once everything has arrived (09 R376). -/
def State.rejoinProgress (s : State) (k i target : Nat) : State :=
  match s.trainOf k i target with
  | none => s
  | some t => match t.opening with
    | none => s
    | some o => match s.admOf o.order, (t.messages.map (·.2)).find? fun m => m.rejoins.contains t.index with
      | some a, some m =>
        let need (sh : Nat) : List Nat := if t.holds sh then [0, 1, 2, 3] else [0]
        if !o.rejoin || !(upFrom 0 t.shards.length).all fun sh => (need sh).all fun p => (t.got sh m.step p).isSome then s
        else match (ExceptT.run (rejoinWork a.cmd k t o m)).run { s with act := { order := some a.cmd.order, snap := a.snap } } with
          | (.ok (t', tables), s') => (s'.flushWindow.modTrain k i target fun t => { t with gen := m.gen }).openDone k i target t' tables
          | (.error (.fail e), s') => (({ s' with commits := s.commits, act := {} } : State).modVariant k i fun v => v.setTrain target none).reply a.cmd a.op e.st e.detail
          | (.error _, s') => { s' with commits := s.commits, act := {} }
      | _, _ => s

/-- TRAIN_UPDATE_MESSAGE (09 R361, R362). -/
def opUpdateMessage (k i target gen : Nat) (m : UpdMsg) (s : State) : State :=
  s.trainMsg k i target gen fun _ s => (s.modTrain k i target fun t => t.hold (s.stroke.number + 1) m).rejoinProgress k i target

/-- PARTS_TRANSFER (09 R363, R373, R376). -/
def opPartsTransfer (k i target gen : Nat) (p : Parts) (s : State) : State :=
  s.trainMsg k i target gen fun _ s =>
    (s.modTrain k i target fun t =>
      { t with received := (t.received.filter fun q => !(q.shard == p.shard && q.update == p.update && q.part == p.part)) ++ [p] }).rejoinProgress k i target

/-! ### What settle does -/

/-- Every part of a state without a table drops, or takes, its seals. -/
def State.partSeals (s : State) (k key : Nat) (t : Train) (add : Bool) : State :=
  t.parts.foldl (fun s x => if add then s.addSeal k key x else s.dropSeal k key x) s

/-- A training state as a command leaves it (09 R363, R374, R385): what has arrived meanwhile stays, unless it is applied or of an
older generation; an import before the first contribution also sets the root's next close. -/
def Train.merge (cur t : Train) : Train :=
  let root := if cur.sent = 0 then cur.root.map fun r => { r with nextClose := t.nextStep, base := t.applied, ckpt := t.applied } else cur.root
  let pending := if cur.sent = 0 then t.messages.filter fun m => !cur.messages.any fun x => x.2.step == m.2.step else []
  { t with
    messages := ((cur.messages.map fun x => (t.messages.find? fun y => y.2.gen == x.2.gen && y.2.step == x.2.step).getD x) ++ pending).filter fun x => t.gen ≤ x.2.gen && (x.2.gen != t.gen || t.applied < x.2.step)
    received := cur.received.filter fun p => t.applied < p.update
    root, stale := cur.stale, duplicates := cur.duplicates, sent := max cur.sent t.sent, stepping := none, opening := none }

/-- The state that a result of this settle belongs to: the switch of a cutover may have come before it (09 R380). -/
def State.stateAt (s : State) (k i target : Nat) : Nat :=
  match Tab.find? (s.comp k).variants i with
  | some v => if target = 2 ∧ v.successor.isNone ∧ v.train2.isNone then 0 else target
  | none => target

/-- A training state commits, or is freed. -/
def State.commitTrain (s : State) (k i target : Nat) (x : Option Train) : State :=
  let target := s.stateAt k i target
  match x.map fun t => { t with target }, Tab.find? (s.comp k).variants i with
  | none, _ => s.freeTrain k i target
  | some _, none => s
  | some t, some v =>
    let s := match (v.train? target).filter fun c => c.opening.isNone with
      | some cur => s.partSeals k v.keyHandle cur false
      | none => s
    let t := (v.train? target).elim t fun cur => cur.merge t
    (s.partSeals k v.keyHandle t true).modVariant k i fun v => v.setTrain target (some { t with opening := none, stepping := none })

/-- A configuration waits; one for the same update is replaced (09 R368). -/
def State.commitTrainCfg (s : State) (k i target : Nat) (h : Hyper) : State :=
  s.modTrain k i (s.stateAt k i target) fun t => { t with configs := (t.configs.filter fun x => x.from_ != h.from_) ++ [h] }

/-- A checkpoint is asked for (09 R375). -/
def State.commitCkptAsk (s : State) (k i target : Nat) : State := s.modTrain k i (s.stateAt k i target) fun t => { t with ckptAsked := true }

/-- Training commands that are no longer admitted leave nothing behind. -/
def State.trainCleanup (s : State) (k : Nat) : State :=
  let here (o : Nat) : Bool := (s.admOf o).isSome
  let one (t : Option Train) : Option Train := match t with
    | none => none
    | some t => match t.opening with
      | some o => if here o.order then some t else none
      | none => some { t with stepping := t.stepping.filter fun x => here x.order }
  s.modComp k fun x => { x with variants := x.variants.map fun p => (p.1, { p.2 with train0 := one p.2.train0, train2 := one p.2.train2 }) }

/-! ### Publishing, export and import (09 R379, R383-R385) -/

/-- TRAIN.PUBLISH (09 R379). -/
def opTrainPublish (c : Cmd) (s : State) : Chk Fin := runWork s do
  let k ← vfOf c
  let (v, target) ← shortBlock c k
  let t ← trainFor c v target
  let home := if v.resident then 1 else 2
  let made (x : Trainable) (old : Tensor) : Tensor :=
    { old with home, cache := 0, peer := 0, readOnly := false, owner := 6, keyRef := v.keyHandle, tiles := [], closing := none, rows := x.rows, cols := x.cols }
  reserve c k (sumSpace (t.tensors.map fun x => { x.blank 2 with home }.space))
  let names ← t.tensors.mapM fun x => do
    let addr ← newTable k (x.blank 2).tableBytes
    let id ← newId k
    pure (addr, id)
  endPlan
  let l ← (t.tensors.zip names).mapM fun (x, addr, id) => do
    let w ← tensorAt c k x.work noField
    let d ← readTiles c k x.work w false (upFrom 0 w.count)
    let n := { made x w with id }
    let ts ← sealTiles c k addr n ((upFrom 0 n.count).zip d)
    pure (x.no, addr, { n with tiles := ts })
  let at_ (p : Nat × Nat) : Nat × Nat := (p.1, ((l.find? fun q => q.1 == p.1).map (·.2.1)).getD p.2)
  let layers := t.layers.map fun e => { e with a := at_ e.a, b := at_ e.b, s := e.s.map at_ }
  stage c (.varSet k (varIndex v.handle) (if target = 0 then 1 else 2) { slot := t.slot, layers } (l.map (·.2)))
  pure (.ok, 0)

/-- What TRAIN.EXPORT and TRAIN.IMPORT share: the key (09 R388). -/
def exportKey (c : Cmd) (off : Nat) : Run KeyEntry := do
  let h := u16 c.block off
  fld (h != 0) off
  let s ← get
  match s.liveKey c h with
  | some e => if e.kind = 3 then pure e else failWith .notPermitted
  | none => failWith .notPermitted

/-- The header of an export record (09 Table 9.5). -/
def exportHeader (t : Train) (part sh count update pend sealer seq : Nat) (dataLen : Nat) (x : Trainable) (r0 r1 : Nat) : List Byte :=
  layout 64 [(0, 1, 1), (1, 1, part), (2, 2, t.shardRowTiles), (4, 4, x.no), (8, 4, sh), (12, 4, count), (16, 4, 128 * r0), (20, 4, min x.rows (128 * r1) - 128 * r0),
    (24, 4, x.cols), (28, 4, dataLen), (32, 8, update), (40, 8, pend), (48, 4, sealer), (56, 8, seq)]

/-- The records of an export: part, shard, pending update and tiles (09 R383, R384). -/
def Train.exportParts (t : Train) (live : Bool) (first count : Nat) (get : Nat → Nat → Quad) : List (Nat × Nat × Nat × List TileData) :=
  (upFrom first count).flatMap fun sh => match (t.shards)[sh]? with
    | none => []
    | some (i, _, _) =>
      let tiles := t.shardTiles sh
      let one (p : Nat) := (p, sh, 0, tiles.map fun n => (get i n).part p)
      let pend := (t.messages.map (·.2)).filter fun m => m.gen == t.gen && t.applied < m.step && m.step ≤ t.applied + t.delay
      let blank (n : Nat) : TileData := match t.tensors[i]? with
        | some x => unwrittenTile 0x4B ((x.blank 0).shape n)
        | none => { elems := [] }
      let codes (m : UpdMsg) (n : Nat) : TileData := match m.codes with
        | some l => (l.getD i []).getD n (blank n)
        | none => blank n
      [one 0] ++ (if t.holds sh then [one 1, one 2, one 3] ++ (if live then (sortBy (fun a b => a.step ≤ b.step) pend).map fun m => (4, sh, m.step, tiles.map (codes m)) else []) else [])

/-- Format of a record's tiles. -/
def recordFmt (part : Nat) : Nat := if part = 4 then 0x4B else partFmt part

/-- Bytes of a record. -/
def recordBytes (n : Nat) : Nat := 64 * ceilDiv (64 + n + 16) 64

/-- TRAIN.EXPORT (09 R383, R384, R387), a host write failing after `limit` records: records already written stay. -/
def opTrainExportTo (limit : Option Nat) (c : Cmd) (s : State) : Chk Fin := runWork s do
  let b := c.block
  let k ← vfOf c
  chk (blockLen c 32)
  let (v, target) ← trainBlock c k
  fld (u8 b 5 ≤ 1) 5
  let e ← exportKey c 6
  fld (aligned64 (u64 b 8)) 8
  fld (64 ≤ u64 b 16 && u64 b 16 ≤ 2 ^ 40 && u64 b 16 % 64 == 0) 16
  let t ← trainFor c v target
  let n := t.shards.length
  fld (u32 b 24 < n) 24
  fld (1 ≤ u32 b 28 && u32 b 24 + u32 b 28 ≤ n) 28
  let s ← get
  let ck := t.ckpt.getD { update := 0, parts := [] }
  let tile (l : Tab Tile) (n : Nat) : TileData := ((Tab.find? l n).bind (·.data)).getD { elems := [] }
  let quad (i n : Nat) : Quad :=
    if u8 b 5 = 0 then match t.tensors[i]? with
      | some x => s.quadAt k x n
      | none => { work := { elems := [] }, master := { elems := [] }, m1 := { elems := [] }, m2 := { elems := [] } }
    else
      let p := ck.parts.getD i { work := [], master := [], m1 := [], m2 := [] }
      { work := tile p.work n, master := tile p.master n, m1 := tile p.m1 n, m2 := tile p.m2 n }
  let update := if u8 b 5 = 0 then t.applied else ck.update
  let l := t.exportParts (u8 b 5 == 0) (u32 b 24) (u32 b 28) quad
  let size (p : Nat × Nat × Nat × List TileData) : Nat := recordBytes (p.2.2.2.length * imageBytes (recordFmt p.1))
  fld ((l.map size).foldl (· + ·) 0 ≤ u64 b 16) 16
  endPlan
  bringParts c k (if u8 b 5 = 0 then t.slowParts else t.ckptParts ck)
  let mut at_ := u64 b 8
  for (p, n) in l.zip (upFrom 0 l.length) do
    req (decide (limit ≠ some n)) .hostWindowFault
    match (t.shards)[p.2.1]?.bind fun sh => (t.tensors[sh.1]?).map fun x => (sh.2.1, sh.2.2, x) with
    | none => pure ()
    | some (r0, r1, x) =>
      let g := x.blank 0
      let data := ((t.shardTiles p.2.1).zip p.2.2.2).flatMap fun q => tileImage (recordFmt p.1) (g.shape q.1) q.2
      let sl ← takeSeal k (u16 b 6)
      let h := exportHeader t p.1 p.2.1 p.2.2.2.length update p.2.2.1 sl.sealer sl.count data.length x r0 r1
      let (ct, tag) := gcmSeal e.imageKey (imageIv sl.sealer sl.count) h data
      modify fun s => s.hostWrite c.fn at_ (padTo (recordBytes data.length) (h ++ ct ++ tag))
      at_ := at_ + recordBytes data.length
  pure (.ok, l.length)

/-- TRAIN.EXPORT whose host writes all succeed. -/
def opTrainExport (c : Cmd) (s : State) : Chk Fin := opTrainExportTo none c s

/-- One record of an import: part, shard, pending update and tiles by descriptor index (09 R385). -/
def importRecord (t : Train) (key : List Byte) (update : Nat) (h : List Byte) (read : Nat → Nat → List Byte) : Except Err (Nat × Nat × Nat × List (Nat × TileData)) :=
  let part := u8 h 1
  let sh := u32 h 8
  match (t.shards)[sh]?.bind fun p => (t.tensors[p.1]?).map fun x => (p.2.1, p.2.2, x) with
  | none => .error ⟨.exportFormat, 0⟩
  | some (r0, r1, x) =>
    let tiles := t.shardTiles sh
    let fmt := recordFmt part
    let len := tiles.length * imageBytes fmt
    let pend := u64 h 40
    if part ≤ 4 && (if part = 4 then pend != 0 else pend == 0) && u32 h 52 == 0
        && decide (h = exportHeader t part sh tiles.length update pend (u32 h 48) (u64 h 56) len x r0 r1) then
      match gcmOpen key (imageIv (u32 h 48) (u64 h 56)) h (read 64 len) (read (64 + len) 16) with
      | none => .error ⟨.authFail, 0⟩
      | some p =>
        let l := (upFrom 0 tiles.length).map fun j =>
          let n := tiles.getD j 0
          (n, tileOfBytes fmt ((x.blank 0).shape n) ((p.drop (j * imageBytes fmt)).take (imageBytes fmt)))
        if l.all fun q => scaleFieldsOk fmt q.2 then .ok (part, sh, pend, l) else .error ⟨.badParam, 0⟩
    else .error ⟨.exportFormat, 0⟩

/-- The records of an import in order, from an offset; every record carries the same UPDATE (09 R385). -/
def importRecords (t : Train) (key : List Byte) (total : Nat) (read : Nat → Nat → List Byte) : Nat → Nat → Option Nat → List (Nat × Nat × Nat × List (Nat × TileData)) →
    Except Err (List (Nat × Nat × Nat × List (Nat × TileData)) × Nat)
  | 0, _, u, l => .ok (l, u.getD 0)
  | n + 1, off, u, l =>
    if total < off + 64 then .error ⟨.exportFormat, 0⟩
    else
      let h := read off 64
      let size := recordBytes (u32 h 28)
      let update := u.getD (u64 h 32)
      if total < off + size then .error ⟨.exportFormat, 0⟩
      else match importRecord t key update h fun o m => read (off + o) m with
        | .error e => .error e
        | .ok r => importRecords t key total read n (off + size) (some update) (l ++ [r])

/-- TRAIN.IMPORT (09 R385, R387). -/
def opTrainImport (c : Cmd) (s : State) : Chk Fin := runWork s do
  let b := c.block
  let k ← vfOf c
  chk (blockLen c 32)
  let (v, target) ← trainBlock c k
  let i := varIndex v.handle
  fld (u8 b 5 == 0) 5
  let e ← exportKey c 6
  fld (aligned64 (u64 b 8)) 8
  fld (64 ≤ u64 b 16 && u64 b 16 ≤ 2 ^ 40 && u64 b 16 % 64 == 0) 16
  fld (1 ≤ u32 b 24 && u32 b 24 ≤ 2 ^ 24) 24
  fld (u32 b 28 == 0) 28
  let t ← trainFor c v target
  req (t.nextStep == 1 && t.sent == 0) .notPermitted
  let near (x : Trainable) : Nat × Nat × Nat := slotSpace { x.blank 2 with home := t.nearHome } (x.blank 2).count
  reserve c k (sumSpace (t.tensors.map near))
  endPlan
  let s ← get
  let read (o n : Nat) : List Byte := s.hostRead c.fn (u64 b 8 + o) n
  let (l, u) ← chk (importRecords t e.imageKey (u64 b 16) read (u32 b 24) 0 none [])
  let find (part sh pend : Nat) : Option (List (Nat × TileData)) := (l.reverse.find? fun r => r.1 == part && r.2.1 == sh && r.2.2.1 == pend).map (·.2.2.2)
  let need (sh : Nat) : List (Nat × Nat) := [(0, 0)] ++ if t.holds sh then [(1, 0), (2, 0), (3, 0)] ++ (upFrom (u + 1) t.delay).map fun p => (4, p) else []
  req ((upFrom 0 t.shards.length).all fun sh => (need sh).all fun p => (find p.1 sh p.2).isSome) .exportFormat
  let tileOf (part sh n : Nat) : TileData := (((find part sh 0).getD []).find? fun q => q.1 == n).map (·.2) |>.getD { elems := [] }
  let ch : Changed := (upFrom 0 t.shards.length).flatMap fun sh => match (t.shards)[sh]? with
    | none => []
    | some (j, _, _) => (t.shardTiles sh).map fun n => (j, n, { work := tileOf 0 sh n, master := tileOf 1 sh n, m1 := tileOf 2 sh n, m2 := tileOf 3 sh n })
  let ts ← writeChanged c k t ch
  let zero ← ts.mapM fun x => do
    let es ← sealTiles c k (partName x.err) x.err ((upFrom 0 x.err.count).map fun n => (n, unwrittenTile 2 (x.err.shape n)))
    pure { x with err := { x.err with tiles := es } }
  let none_ (i n : Nat) : Quad := match t.tensors[i]? with
    | some x => s.quadAt k x n
    | none => { work := { elems := [] }, master := { elems := [] }, m1 := { elems := [] }, m2 := { elems := [] } }
  let ck ← snapshot c k { t with tensors := zero } u (ch.get none_)
  let pend := (upFrom (u + 1) t.delay).map fun p =>
    let codes : Grad := (upFrom 0 t.tensors.length).map fun j => match t.tensors[j]? with
      | none => []
      | some x => (upFrom 0 (x.blank 0).count).map fun n =>
        ((upFrom 0 t.shards.length).findSome? fun sh => if ((t.shards)[sh]?.map (·.1)) == some j then ((find 4 sh p).getD []).find? (fun q => q.1 == n) |>.map (·.2) else none).getD
          (unwrittenTile 0x4B ((x.blank 0).shape n))
    let m : UpdMsg := { gen := t.gen, step := p, included := [], late := [], dropped := [], n := one32, lagged := [], verdicts := [], rejoins := [], codes := some codes }
    (s.stroke.number + 1, m)
  let t := { t with tensors := zero, applied := u, nextStep := u + 1, ckpt := some ck, ckptPending := none, messages := pend }
  let kept ← keepPending c k t
  stage c (.train k i target (some { t with tensors := kept }))
  pure (.ok, 0)

/-! ### The meanings -/

def execTrainPublish (c : Cmd) (s : State) : Out := .next (runCmd 0x0722 c s (opTrainPublish c s))
def execTrainExport (c : Cmd) (s : State) : Out := .next (runCmd 0x0723 c s (opTrainExport c s))
def execTrainImport (c : Cmd) (s : State) : Out := .next (runCmd 0x0724 c s (opTrainImport c s))
def execTrainUpdateMessage (k v target gen : Nat) (m : UpdMsg) (s : State) : Out := .next (opUpdateMessage k v target gen m s)
def execTrainUpdateApply (k v target : Nat) (s : State) : Out := .next (opUpdateApply k v target s)
def execPartsTransfer (k v target gen : Nat) (p : Parts) (s : State) : Out := .next (opPartsTransfer k v target gen p s)

end Sys2Proof.Machine
end

