-- ==== Sys2Proof/Machine/Bodies.lean ====
section
/-! DEFINITION. Which operation a queued command carries out, by its opcode (00 Table 0.3). -/

namespace Sys2Proof.Machine

/-- No such operation (00 R9). -/
def opNone : Chk Fin := .error ⟨.badOpcode, 0⟩

/-- Class 0x00. -/
def body00 (op : Nat) (c : Cmd) (s : State) : Chk Fin :=
  match op with
  | 0x0001 => opDeviceQuery c s
  | 0x0002 => opStrokeQuery c s
  | 0x0003 => opStrokeConfig c s
  | 0x0004 => opSliceSet c s
  | 0x0005 => opSliceQuery c s
  | 0x0006 => opLendGroup c s
  | 0x0007 => opLendConsent c s
  | 0x0008 => opStrokeWait c s
  | 0x0009 => opFenceSc c s
  | 0x000A => opWordStore c s
  | 0x000B => opWordLoad c s
  | _ => opNone

/-- Class 0x01. -/
def body01 (op : Nat) (c : Cmd) (s : State) : Chk Fin :=
  match op with
  | 0x0101 => opCompCreate c s
  | 0x0102 => opCompDestroy c s
  | 0x0103 => opCompQuench c s
  | 0x0104 => opTenantChange c s
  | 0x0105 => opCompQuery c s
  | 0x0106 => opFarClear c s
  | 0x0107 => opDeviceQuench c s
  | _ => opNone

/-- Class 0x02. -/
def body02 (op : Nat) (c : Cmd) (s : State) : Chk Fin :=
  match op with
  | 0x0201 => opCertRead c s
  | 0x0202 => opAttestReport c s
  | 0x0203 => opSessionQuery c s
  | 0x0204 => opTenantClaim c s
  | 0x0210 => opKeyDeliver c s
  | 0x0211 => opKeyQuery c s
  | 0x0212 => opKeyPolicy c s
  | 0x0213 => opKeyRotate c s
  | 0x0214 => opKeyDestroy c s
  | _ => opNone

/-- Class 0x03. -/
def body03 (op : Nat) (c : Cmd) (s : State) : Chk Fin :=
  match op with
  | 0x0301 => opMemConfig c s
  | 0x0302 => opTensorCreate c s
  | 0x0303 => opBufferCreate c s
  | 0x0304 => opMemFree c s
  | 0x0305 => opMemQuery c s
  | 0x0306 => opTensorPlace c s
  | 0x0307 => opTensorImport c s
  | 0x0308 => opTensorExport c s
  | _ => opNone

/-- Class 0x04. -/
def body04 (op : Nat) (c : Cmd) (s : State) : Chk Fin :=
  match op with
  | 0x0401 => opMatmul c s
  | 0x0402 => opConv c s
  | 0x0403 => opScan c s
  | 0x0404 => opMoeRoute c s
  | 0x0405 => opMoeMatmul c s
  | 0x0406 => opEngineQuery c s
  | 0x0440 => opNumericConfig c s
  | 0x0441 => opNumericQuery c s
  | 0x0442 => opScaleHistSet c s
  | 0x0443 => opScaleHistRead c s
  | _ => opNone

/-- Class 0x05. -/
def body05 (op : Nat) (c : Cmd) (s : State) : Chk Fin :=
  match op with
  | 0x0501 => opStreamOpen c s
  | 0x0502 => opStreamClose c s
  | 0x0503 => opStreamQuery c s
  | 0x0504 => opKvAppend c s
  | 0x0505 => opKvTruncate c s
  | 0x0506 => opMixQuery c s
  | 0x0510 => opAttention false c s
  | 0x0511 => opAttention true c s
  | 0x0512 => opLinmix c s
  | _ => opNone

/-- Class 0x06. -/
def body06 (op : Nat) (c : Cmd) (s : State) : Chk Fin :=
  match op with
  | 0x0601 => opBaseLoad c s
  | 0x0602 => opBaseUnload c s
  | 0x0603 => opBaseQuery c s
  | 0x0604 => opBaseAttach c s
  | 0x0605 => opBaseDetach c s
  | 0x0606 => opServePolicy c s
  | 0x0610 => opVariantRegister c s
  | 0x0611 => opVariantLoad c s
  | 0x0612 => opVariantReside c s
  | 0x0613 => opVariantPark c s
  | 0x0614 => opSwitch false c s
  | 0x0615 => opVariantMode c s
  | 0x0616 => opVariantRebase c s
  | 0x0617 => opSwitch true c s
  | 0x0618 => opVariantUnregister c s
  | 0x0619 => opVariantQuery c s
  | 0x0620 => opVariantMatmul c s
  | _ => opNone

/-- Class 0x07. -/
def body07 (op : Nat) (c : Cmd) (s : State) : Chk Fin :=
  match op with
  | 0x0701 => opTrainOpen c s
  | 0x0702 => opTrainClose c s
  | 0x0703 => opTrainConfig c s
  | 0x0704 => opTrainQuery c s
  | 0x0710 => opFeedbackSubmit c s
  | 0x0711 => opFeedbackTake c s
  | 0x0720 => opTrainStep c s
  | 0x0721 => opTrainCheckpoint c s
  | 0x0722 => opTrainPublish c s
  | 0x0723 => opTrainExport c s
  | 0x0724 => opTrainImport c s
  | _ => opNone

/-- Class 0x08. -/
def body08 (op : Nat) (c : Cmd) (s : State) : Chk Fin :=
  match op with
  | 0x0801 => opLinkConfig c s
  | 0x0802 => opLinkEnable c s
  | 0x0803 => opLinkQuery c s
  | 0x0804 => opCellSet c s
  | 0x0805 => opRouteSet c s
  | 0x0806 => opSpanSet c s
  | 0x0810 => opCollGroup c s
  | 0x0811 => opCollRun c s
  | 0x0812 => opCollQuery c s
  | _ => opNone

/-- Class 0x09. -/
def body09 (op : Nat) (c : Cmd) (s : State) : Chk Fin :=
  match op with
  | 0x0901 => opRandGen c s
  | 0x0902 => opRandQuery c s
  | _ => opNone

/-- Class 0x0A. -/
def body0A (op : Nat) (c : Cmd) (s : State) : Chk Fin :=
  match op with
  | 0x0A01 => opPowerSet c s
  | 0x0A02 => opPowerQuery c s
  | 0x0A03 => opPowerPin c s
  | 0x0A10 => opTelemRead c s
  | 0x0A11 => opLogConfig c s
  | 0x0A12 => opTraceConfig c s
  | 0x0A13 => opAlarmRead c s
  | 0x0A14 => opAlarmAck c s
  | 0x0A15 => opLogQuery c s
  | _ => opNone

/-- Class 0x0B. -/
def body0B (op : Nat) (c : Cmd) (s : State) : Chk Fin :=
  match op with
  | 0x0B01 => opFwStage .none c s
  | 0x0B02 => opFwActivate c s
  | 0x0B03 => opFwCommit c s
  | 0x0B04 => opFwQuery c s
  | 0x0B20 => opLifecycleAdvance c s
  | _ => opNone

/-- The checks and work of an opcode. -/
def opBody (op : Nat) (c : Cmd) (s : State) : Chk Fin :=
  match op / 256 with
  | 0x00 => body00 op c s
  | 0x01 => body01 op c s
  | 0x02 => body02 op c s
  | 0x03 => body03 op c s
  | 0x04 => body04 op c s
  | 0x05 => body05 op c s
  | 0x06 => body06 op c s
  | 0x07 => body07 op c s
  | 0x08 => body08 op c s
  | 0x09 => body09 op c s
  | 0x0A => body0A op c s
  | 0x0B => body0B op c s
  | _ => opNone

end Sys2Proof.Machine
end

