-- ==== Sys2Proof/Machine/Intake.lean ====
section
/-! DEFINITION. The intake phase: ring packets, the checks of 03 Table 3.2, holds, tags and admission (03 R77-R103; 15 R540). -/

namespace Sys2Proof.Machine

/-! ### The packet header (03 Table 3.3) -/

/-- A header as read. -/
structure Header where
  op : Nat
  version : Nat
  kind : Nat
  flags : Nat
  depCount : Nat
  rsvd : Nat
  paramLen : Nat
  stream : Nat
  cookie : Nat
  paramAddr : Nat
  deps : List Nat
  deriving DecidableEq, Repr

/-- The fields of 64 bytes. -/
def headerOf (b : List Byte) : Header where
  op := u16 b 0
  version := u8 b 2
  kind := u8 b 3
  flags := u16 b 4
  depCount := u8 b 6
  rsvd := u8 b 7
  paramLen := u32 b 8
  stream := u32 b 12
  cookie := u64 b 16
  paramAddr := u64 b 24
  deps := (upFrom 0 4).map fun i => u64 b (32 + 8 * i)

/-- Check 1: the header can be trusted. -/
def Header.trusted (h : Header) : Bool := h.version == 1 && h.kind ≤ 1

/-- PARAM_REF. -/
def Header.byRef (h : Header) : Bool := bitOf h.flags 0

/-- Unit count of a command packet (R84). -/
def Header.units (h : Header) : Nat :=
  if h.trusted && !h.byRef && h.paramLen ≤ 4032 then 1 + ceilDiv h.paramLen 64 else 1

/-- A dependency entry: ring and sequence number (Table 3.5). -/
def depEntry (e : Nat) : Nat × Nat := (e / 2 ^ 48 % 4, e % 2 ^ 48)

/-- The dependencies of a packet of ring `n` that would take sequence number `seq` (R92, Table 3.4). -/
def Header.depList (h : Header) (n seq : Nat) : List (Nat × Nat) :=
  (h.deps.take h.depCount).map depEntry ++ if bitOf h.flags 1 then [(n, seq - 1)] else []

/-- The commands whose header names a stream (08 Table 8.5). -/
def namesHeaderStream (op : Nat) : Bool := [0x0502, 0x0503, 0x0504, 0x0505].contains op

/-- Check 5 of Table 3.2. -/
def Header.wellFormed (h : Header) (f : Fn) : Bool :=
  let params := if h.byRef then decide (f ≠ .pf) && 1 ≤ h.paramLen && h.paramLen ≤ 1048576 && h.paramAddr % 64 == 0
    else h.paramLen ≤ 4032 && h.paramAddr == 0
  h.rsvd == 0 && h.flags / 16 == 0 && h.depCount ≤ 4 && (h.deps.drop h.depCount).all (· == 0) && params

/-- Check 6 of Table 3.2 (R92). -/
def Header.depsOk (h : Header) (n seq : Nat) : Bool :=
  (h.deps.take h.depCount).all (fun e => e / 2 ^ 50 == 0 && !((depEntry e).1 == n && seq ≤ (depEntry e).2))
    && !(bitOf h.flags 1 && seq == 0)

/-- Checks 3 and 4 (00 R9, R10, R19): a permitted diagnostic command, of which the model knows none, ends with BAD_OPCODE. -/
def Header.opcodeCheck (h : Header) (lifecycle : Nat) (f : Fn) : Option Status :=
  if isDiagnostic h.op then some (diagnosticStatus lifecycle f)
  else match opRow h.op with
    | none => some .badOpcode
    | some r => if permitted lifecycle f r then none else some .notPermitted

/-- The stream handle of a header is live for its issuer; the physical function has none (R101). -/
def State.headerStream (s : State) (f : Fn) (h : Nat) : Bool :=
  match f with
  | .pf => false
  | .vf k => s.streamLive k h

/-- Checks 1-8 of Table 3.2, in order: the status of the first that fails. -/
def State.packetCheck (s : State) (f : Fn) (n seq : Nat) (h : Header) (within : Bool) : Option Status :=
  if !h.trusted || !within then some .badParam
  else match h.opcodeCheck s.dawn.lifecycle f with
    | some st => some st
    | none =>
      if !h.wellFormed f || !h.depsOk n seq then some .badParam
      else if (h.stream != 0) != namesHeaderStream h.op then some .badParam
      else if h.stream != 0 && !s.headerStream f h.stream then some .staleGeneration
      else none

/-! ### Reply credit (R105) -/

/-- Entries of an out ring that are free for writing (R79). -/
def OutRing.free (r : OutRing) : Nat := 2 ^ r.sizeLog - ahead r.tail r.head

/-- Reply entries reserved: one for every admitted command, and one for every reply not yet written. -/
def State.reserved (s : State) (f : Fn) : Nat :=
  (s.queue.filter (admOfFn f)).length + (s.replies.filter fun r => decide (r.cmd.fn = f) && !r.lost).length

/-- A free entry beyond the 4 reserved for notices can be reserved. -/
def State.credit (s : State) (f : Fn) : Bool := s.reserved f + 4 < (s.fnOf f).rq.free

/-! ### What admission does -/

/-- The command of a header; refused packets carry TAG 0 and SEQ 0. -/
def State.packetCmd (s : State) (f : Fn) (n seq tag : Nat) (h : Header) (block : List Byte) : Cmd :=
  { fn := f, ring := n, seq, tag, cookie := h.cookie, flags := h.flags, stream := h.stream, order := s.stroke.nextOrder
    stroke := s.stroke.number, block }

/-- Consume units of a ring: the head moves and a hold ends. -/
def State.consume (s : State) (f : Fn) (n units : Nat) : State :=
  s.modRing f n fun r => { r with head := (r.head + units) % count32, hold := 0 }

/-- A packet refused at intake: its reply carries TAG 0 (R83). -/
def State.refusePacket (s : State) (f : Fn) (n units : Nat) (h : Header) (st : Status) (counter : Nat) : State :=
  let r : Reply := { cmd := s.packetCmd f n 0 0 h [], op := h.op, status := st.code, detail := 0, admitted := false, lost := false }
  ({ s with replies := s.replies ++ [r] } : State).consume f n units |>.bumpRing f counter 1

/-- A close that is not marked yet is marked with the admission order of its command. -/
def markClosing (o : Option Nat) (order : Nat) : Option Nat := some (o.getD order)

/-- From its admission a MEM.FREE makes the object it names closing (06 R247). -/
def Comp.admitFree (x : Comp) (addr order : Nat) : Comp :=
  match Tab.find? x.tensors addr, Tab.find? x.buffers addr with
  | some t, _ => if t.owner = 3 then { x with tensors := Tab.set x.tensors addr { t with closing := markClosing t.closing order } } else x
  | none, some b => if b.owner = 3 then { x with buffers := Tab.set x.buffers addr { b with closing := markClosing b.closing order } } else x
  | none, none => x

/-- From its admission a BASE.DETACH makes the alias tables closing (07 R268), unless a bound variant refuses it. -/
def Comp.admitDetach (x : Comp) (slot order : Nat) : Comp :=
  if x.boundVariants slot != 0 then x
  else
    let l := x.aliases slot
    { x with tensors := x.tensors.map fun p => if l.contains p.1 then (p.1, { p.2 with closing := markClosing p.2.closing order }) else p }

/-- From its admission a STREAM.CLOSE makes its stream closing (R102). -/
def Comp.admitClose (x : Comp) (h order : Nat) : Comp :=
  match Tab.find? x.streams h with
  | none => x
  | some st =>
    { x with streams := Tab.set x.streams h { st with closing := markClosing st.closing order }
             closing := if x.closing.contains h then x.closing else x.closing ++ [h] }

/-- Change the variant that a block names, where the handle is live for the command. -/
def State.admitVariant (s : State) (c : Cmd) (k : Nat) (g : Variant → Variant) : State :=
  match s.variantOf k (u32 c.block 0) c with
  | some v => s.modVariant k (varIndex v.handle) g
  | none => s

/-- What the admission of a command does before it runs, once its block is known (03 R102; 06 R247; 07 R258, R263, R268, R281,
R296; 11 R435; 17 R620). -/
def State.admitEffects (s : State) (c : Cmd) (op : Nat) : State :=
  match c.fn with
  | .pf =>
    if op = 0x0601 ∨ op = 0x0602 then s.admitBase c op
    else if op = 0x0214 then s.admitDestroy c
    else if op = 0x0B01 then s.admitStage c
    else s
  | .vf k =>
    match op with
    | 0x0214 => s.admitDestroy c
    | 0x0304 => s.modComp k fun x => x.admitFree (u64 c.block 0) c.order
    | 0x0502 => s.modComp k fun x => x.admitClose c.stream c.order
    | 0x0605 => s.modComp k fun x => x.admitDetach (u8 c.block 0) c.order
    | 0x0614 => s.admitVariant c k fun v => { v with switch := some (v.switch.getD { order := c.order, cutover := false }) }
    | 0x0617 => s.admitVariant c k fun v => { v with switch := some (v.switch.getD { order := c.order, cutover := true }) }
    | 0x0618 => match s.variantOf k (u32 c.block 0) c with
      | some v => s.markClose k v.handle c.order
      | none => s
    | _ => s

/-- Admit a packet with its tag: sequence number, queue entry, PKTS_ADMITTED (R83, R92, R103). What its admission does needs its
block, but for a STREAM.CLOSE, whose header names the stream (R102). -/
def State.admitPacket (s : State) (f : Fn) (n units : Nat) (h : Header) (block : List Byte) (i g : Nat) (tags : IdxRange) : State :=
  let x := s.fnOf f
  let seq := (x.ring n).nextSeq
  let c := s.packetCmd f n seq (handleOf g i) h block
  let a : Adm :=
    { admDirect c h.op with
      deps := h.depList n seq
      epochs := (upFrom 0 4).map fun j => (x.ring j).epoch
      requireOk := bitOf h.flags 2
      ref := if h.byRef then some (h.paramAddr, h.paramLen) else none
      fetched := !h.byRef
      planned := false }
  let s := (s.modFn f fun x => { x with tags }).consume f n units
  let s := (s.modRing f n fun r => { r with nextSeq := seq + 1 }).bumpRing f 0 1
  let s : State := { s with queue := s.queue ++ [a], stroke := { s.stroke with nextOrder := s.stroke.nextOrder + 1 } }
  if h.byRef && h.op != 0x0502 then s else s.admitEffects c h.op

/-! ### Taking packets (R81, R82) -/

/-- What a function has used of its allowance in one intake. -/
structure Allow where
  packets : Nat := 0
  bytes : Nat := 0
  deriving DecidableEq, Repr

/-- How intake goes on after the packet at a ring's head. -/
inductive Took where
  /-- with the next packet of the ring -/
  | more
  /-- the ring is left for the stroke -/
  | left
  /-- a ring fault: the function takes no more -/
  | stop
  /-- the packet is held in its 256th stroke (R94) -/
  | limit
  deriving DecidableEq, Repr

/-- Check 9 (R94): a dependency names a packet of another ring that is not consumed yet. -/
def FnState.held (x : FnState) (n : Nat) (deps : List (Nat × Nat)) : Bool := deps.any fun d => d.1 != n && (x.ring d.1).nextSeq ≤ d.2

/-- One more stroke of holding (R94): the ring is left, unless it is the 256th. Each packet's stroke of holding counts (log 103). -/
def State.holdPacket (s : State) (f : Fn) (n : Nat) (a : Allow) : State × Allow × Took :=
  let hold := ((s.fnOf f).ring n).hold + 1
  ((s.modRing f n fun r => { r with hold }).bumpRing f 3 1, a, if 256 ≤ hold then .limit else .left)

/-- A covered command packet with credit: refused, left, held or admitted. The header unit of a packet that is left or held does
not count against the ring bytes (log 104). -/
def State.takeCommand (s : State) (f : Fn) (n : Nat) (a : Allow) (h : Header) (block : List Byte) (within : Bool) (units : Nat) :
    State × Allow × Took :=
  let x := s.fnOf f
  let seq := (x.ring n).nextSeq
  let used := { a with bytes := a.bytes + 64 * units }
  match s.packetCheck f n seq h within with
  | some st => (s.refusePacket f n units h st 1, used, .more)
  | none =>
    if !s.stateRuns f n h.op h.stream then (s, a, .left)
    else if x.held n (h.depList n seq) then s.holdPacket f n a
    else
      let t := s.tagRange f
      match x.tags.assign t.1 t.2 with
      | none => (s.refusePacket f n units h .noResource 2, used, .more)
      | some (i, g, tags) => (s.admitPacket f n units h block i g tags, { used with packets := a.packets + 1 }, .more)

/-- A skip packet (R82, R85). -/
def State.takeSkip (s : State) (f : Fn) (n : Nat) (a : Allow) (b : List Byte) (jump : Nat) : State × Allow × Took :=
  let s := if zeroAt b 0 2 && zeroAt b 4 60 then s else s.bumpRing f 1 1
  (s.consume f n jump, { a with bytes := a.bytes + 64 }, .more)

/-- Examine the packet at the head of a ring (R81). A ring left for want of reply credit counts once (R105; log 103). -/
def State.takePacket (readFail : List Fn) (f : Fn) (n : Nat) (s : State) (a : Allow) : State × Allow × Took :=
  let r := (s.fnOf f).ring n
  let avail := ahead r.tailAt0 r.head
  let size := 2 ^ r.sizeLog
  let pos := r.head % size
  let at_ := r.base + 64 * pos
  if r.st ≠ .enabled ∨ avail = 0 ∨ 32 ≤ a.packets ∨ 8192 < a.bytes + 64 then (s, a, .left)
  else if readFail.contains f then (s.ringFault f n, a, .stop)
  else
    let b := s.hostRead f at_ 64
    let h := headerOf b
    if h.trusted && h.kind == 1 then
      if avail < size - pos then (s, a, .left) else s.takeSkip f n a b (size - pos)
    else if !s.credit f then (s.bumpRing f 6 1, a, .left)
    else
      let within := decide (pos + h.units ≤ size)
      let units := if within then h.units else size - pos
      if avail < units ∨ 8192 < a.bytes + 64 * units then (s, a, .left)
      else
        let block := if within && !h.byRef && h.units != 1 then s.hostRead f (at_ + 64) h.paramLen else []
        s.takeCommand f n a h block within units

/-- Take packets of one ring until it is left for the stroke. -/
def takeRing (readFail : List Fn) (f : Fn) (n : Nat) : Nat → State → Allow → State × Allow × Took
  | 0, s, a => (s, a, .left)
  | fuel + 1, s, a =>
    let p := s.takePacket readFail f n a
    if p.2.2 = .more then takeRing readFail f n fuel p.1 p.2.1 else p

/-- A function takes part in intake: reachable, its rings not treated as disabled, BOUND where its compartment is claimed, and
not quenched in this stroke (12 R457; 14 R517, R528, Table 14.6). -/
def State.intakeOpen (s : State) (f : Fn) : Bool :=
  let bound := match f with
    | .pf => true
    | .vf k =>
      let x := s.comp k
      (!x.claimed || s.bound f) && !(x.quenches != 0 && x.lastQuench == s.stroke.number)
  s.host.up && s.enabledFn f && !(s.fnOf f).d3 && !s.dawn.transiting && bound

/-- The rings of one function in rotation from ring (s mod 4) (R81). -/
def State.ringsOf (s : State) (f : Fn) : List (Fn × Nat) := (upFrom 0 4).map fun i => (f, (s.stroke.number + i) % 4)

/-- Every ring in the order of intake (R81). -/
def State.intakeOrder (s : State) : List (Fn × Nat) := allFns.flatMap s.ringsOf

/-- Intake stands at a ring, with what its function has used. -/
def State.intakeAt (s : State) (left : List (Fn × Nat)) (a : Allow) : State :=
  { s with stroke := { s.stroke with intakeLeft := left, intakeUsed := (a.packets, a.bytes) } }

/-- The allowance of the next ring: a function's first ring begins anew. -/
def nextAllow (f : Fn) (a : Allow) : List (Fn × Nat) → Allow
  | (g, _) :: _ => if f = g then a else {}
  | [] => {}

/-- Take rings in order, up to a packet held in its 256th stroke; 8,192 bytes hold at most 128 packets. -/
def takeRings (readFail : List Fn) : List (Fn × Nat) → State → Allow → State
  | [], s, _ => s.intakeAt [] {}
  | (f, n) :: rest, s, a =>
    if s.intakeOpen f then
      let p := takeRing readFail f n 129 s a
      match p.2.2 with
      | .limit => p.1.intakeAt ((f, n) :: rest) p.2.1
      | .stop => takeRings readFail rest p.1 (nextAllow f { packets := 32, bytes := 8192 } rest)
      | _ => takeRings readFail rest p.1 (nextAllow f p.2.1 rest)
    else takeRings readFail rest s (nextAllow f {} rest)

/-- INTAKE_PHASE (R81): the functions in order; `readFail` lists those whose ring reads fail (R80). -/
def opIntakePhase (readFail : List Fn) (s : State) : State :=
  if s.power.main = .service ∧ s.stroke.phase = .boundary then
    let s : State := { s with stroke := { s.stroke with phase := .intake } }
    if s.serving then takeRings readFail s.intakeOrder { s with stroke := { s.stroke with intakeFail := readFail } } {} else s
  else s

/-- Intake stands at ring `n` of a function, whose packet is held in its 256th stroke. -/
def State.atLimit (s : State) (f : Fn) (n : Nat) : Bool :=
  s.stroke.intakeLeft.head? == some (f, n) && decide (256 ≤ ((s.fnOf f).ring n).hold)

/-- The packet held in its 256th stroke is consumed with DEP_FAILED and no tag, and intake goes on with its ring (R81, R94). -/
def State.passLimit (s : State) (f : Fn) (n : Nat) : State :=
  let r := (s.fnOf f).ring n
  let h := headerOf (s.hostRead f (r.base + 64 * (r.head % 2 ^ r.sizeLog)) 64)
  let (packets, bytes) := s.stroke.intakeUsed
  takeRings s.stroke.intakeFail s.stroke.intakeLeft (s.refusePacket f n h.units h .depFailed 4) { packets, bytes := bytes + 64 * h.units }

/-- DEP_HOLD_LIMIT (R94). -/
def opDepHoldLimit (f : Fn) (n : Nat) (s : State) : State :=
  if s.serving ∧ s.stroke.phase = .intake ∧ s.atLimit f n then s.passLimit f n else s

/-- Intake ends with its phase: every limit it still stands at takes effect (R94); a packet of four rings of each function can stand
at one. -/
def State.endIntake : Nat → State → State
  | 0, s => s
  | fuel + 1, s => match s.stroke.intakeLeft with
    | (f, n) :: _ => if s.serving && s.atLimit f n then State.endIntake fuel (s.passLimit f n) else s.intakeAt [] {}
    | [] => s

def execIntakePhase (readFail : List Fn) (s : State) : Out := .next (opIntakePhase readFail s).watchEvents
def execDepHoldLimit (f : Fn) (ring : Nat) (s : State) : Out := .next (opDepHoldLimit f ring s)

end Sys2Proof.Machine
end

