-- ==== Sys2Proof/Machine/Runs.lean ====
section
/-! DEFINITION. The plan and execute phases: dependencies, what may be planned, runs, guard intervals, lending, unassigned
units and host reads (02 R34-R55; 03 R87-R95; 06 R228; 14 R520; 15 R535, R536; 19 R674). -/

namespace Sys2Proof.Machine

/-! ### Dependencies (03 R92-R95) -/

/-- What is known of a named packet. -/
inductive DepState where
  | pending
  | outside
  | done (status : Nat)
  deriving DecidableEq, Repr

/-- The state of a dependency of a function, by the numbering in force when it was admitted: one that named an earlier enabling of
its ring and has no outcome left is outside the window (R95; log 105). -/
def FnState.dep (x : FnState) (epochs : List Nat) (d : Nat × Nat) : DepState :=
  let r := x.ring d.1
  let e := epochs.getD d.1 r.epoch
  match r.outcomes.find? fun o => o.epoch == e && o.seq == d.2 with
  | some o => .done o.status
  | none => if e = r.epoch ∧ r.nextSeq ≤ d.2 + 16384 then .pending else .outside

/-- A dependency that REQUIRE_OK takes as failed. -/
def depFails (d : DepState) : Bool :=
  match d with
  | .done st => !succeeded st
  | _ => false

/-- What is known of the dependencies of a command. -/
def State.depStates (s : State) (a : Adm) : List DepState := a.deps.map ((s.fnOf a.cmd.fn).dep a.epochs)

/-- The status that its dependencies give a command before it is planned (R93): a number outside the window is looked for when they
are first examined; where one is found and another dependency failed, STALE_GENERATION is given (log 106). -/
def State.depStatus (s : State) (a : Adm) : Option Status :=
  let l := s.depStates a
  if !a.requireOk || a.depsMet then none
  else if !a.examined && l.contains .outside then some .staleGeneration
  else if l.any depFails then some .depFailed
  else none

/-- Every dependency is satisfied: its reply has been written. -/
def State.depsDone (s : State) (a : Adm) : Bool := a.depsMet || !(s.depStates a).contains .pending

/-- A plan phase has examined a command's dependencies. -/
def State.examine (s : State) (a : Adm) : State :=
  if a.examined && (a.depsMet || !s.depsDone a) then s
  else s.modAdm a.cmd.order fun b => { b with examined := true, depsMet := s.depsDone a }

/-! ### Implied dependencies -/

/-- Commands of class 0x06, and TRAIN.PUBLISH, that run in the order of one variant (07 R282; 09 R379). -/
def inVariantOrder (op : Nat) : Bool := (0x0611 ≤ op && op ≤ 0x0618) || op == 0x0722

/-- The streams that a command appends to or truncates: the header's, or those of the length table (08 R315). -/
def Comp.appended (x : Comp) (a : Adm) : List Nat :=
  if a.op = 0x0504 ∨ a.op = 0x0505 then [a.cmd.stream]
  else if (a.op = 0x0510 ∨ a.op = 0x0511) ∧ u64 a.cmd.block 8 ≠ 0 then x.lensStreams a
  else []

/-- Training commands that run in the order of one state (09 R381); TRAIN.CLOSE aborts the earlier ones instead (R382). -/
def inTrainOrder (op : Nat) : Bool := [0x0701, 0x0703, 0x0704, 0x0720, 0x0721, 0x0722, 0x0723, 0x0724].contains op

/-- FEEDBACK commands (09 R381). -/
def isFeedback (op : Nat) : Bool := op == 0x0710 || op == 0x0711

/-- Training commands that a cutover of their variant, admitted before them, completes with TRAIN_CLOSED (09 R380, Table 9.9). -/
def closedByCutover (op : Nat) : Bool := [0x0703, 0x0720, 0x0721, 0x0722, 0x0723].contains op

/-- The variant and the state that a training command names (09 R380, R381). -/
def State.trainName (s : State) (k : Nat) (a : Adm) : Nat × Nat :=
  let h := u32 a.cmd.block 0
  (h, match Tab.find? (s.comp k).variants (varIndex h) with
    | some v => if v.handle = h then v.targetOf a.cmd else u8 a.cmd.block 4
    | none => u8 a.cmd.block 4)

/-- A swap or cutover `b`, admitted earlier and not committed, holds command `a`, which is bound to the set it makes active; one whose block
is not read yet may name any variant (07 R296; 09 R380). -/
def State.heldBySwitch (s : State) (k : Nat) (a b : Adm) : Bool :=
  if !b.fetched then a.op == 0x0620 || actsOnVariant a.op
  else s.bindsVariant k (u32 b.cmd.block 0) a && !(b.op == 0x0617 && closedByCutover a.op && u8 a.cmd.block 4 == 0)

/-- An earlier command `b` of one compartment that `a` waits for: its block is not read yet, or it names what `a` names. -/
def State.impliedBy (s : State) (k : Nat) (a b : Adm) : Bool :=
  let h (x : Adm) := u32 x.cmd.block 0
  let x := s.comp k
  match a.op with
  | 0x0304 => x.namesObject (u64 a.cmd.block 0) (x.objectLen (u64 a.cmd.block 0)) b
  | 0x0502 => s.namesStream k a.cmd.stream b
  | 0x0605 => x.namesTables (x.aliases (u8 a.cmd.block 0)) b
  | 0x0618 => s.namesVariant k (h a) b
  | _ =>
    (inVariantOrder a.op && inVariantOrder b.op && (!b.fetched || h b == h a))
      || ((b.op == 0x0614 || b.op == 0x0617) && s.heldBySwitch k a b)
      || (inTrainOrder a.op && inTrainOrder b.op && (!b.fetched || s.trainName k b == s.trainName k a))
      || (isFeedback a.op && isFeedback b.op && (!b.fetched || h b == h a))
      || (x.appended a).any fun n => (x.appended b).contains n || ((b.op == 0x0510 || b.op == 0x0511) && !b.fetched)

/-- A command has an implied dependency on one whose reply is not written yet (03 R93). -/
def State.implied (s : State) (a : Adm) : Bool :=
  match a.cmd.fn with
  | .pf => false
  | .vf k => (s.earlier (.vf k) a.cmd.order).any (s.impliedBy k a)

/-- A command is held at a fence of its own queue: a FENCE.SC waits for the stores before it, and every command waits for the
fences before it (02 R67). -/
def State.fenced (s : State) (a : Adm) (ends : Adm → Bool) : Bool :=
  s.queue.any fun b => decide (b.cmd.fn = a.cmd.fn) && b.cmd.ring == a.cmd.ring && b.cmd.order < a.cmd.order && !ends b
    && (b.op == 0x0009 || (a.op == 0x0009 && b.op == 0x000A))

/-! ### Planning -/

/-- Statuses that only the work of a command gives; every other failure is found when its block is checked (03 R87). -/
def lateStatus (st : Status) : Bool :=
  [Status.memUnwritten, .keyExhausted, .authFail, .nanTrapped, .tileCodingFault, .imageFormat, .imageReadFault, .hostWindowFault,
    .feedbackFormat, .feedbackReplay, .exportFormat, .lineTagFault, .replicaDiverged, .fwImageInvalid, .fwRollback, .fwReadFault].contains st

/-- Commands of the physical function whose bulk data moves in unassigned units: BASE.LOAD and FW.STAGE (02 R35). -/
def isBulk (op : Nat) : Bool := op == 0x0601 || op == 0x0B01

/-- Commands whose work reads tiles or buffer pages (05 Table 5.15; 06 Table 6.14; 07 Table 7.9; 08 Table 8.9; 09 Table 9.12;
13 Table 13.8). -/
def readsTiles (op : Nat) : Bool :=
  [0x0306, 0x0308, 0x0401, 0x0402, 0x0403, 0x0404, 0x0405, 0x0504, 0x0510, 0x0511, 0x0512, 0x0612, 0x0613, 0x0620,
    0x0701, 0x0711, 0x0720, 0x0722, 0x0723, 0x0811].contains op

/-- Commands whose work reads or writes host memory beside the window: images, records and ranges (06 R249; 07 R260, R267, R279;
09 R352, R384; 12 R464; 17 R620). -/
def movesHostData (op : Nat) : Bool := [0x0106, 0x0307, 0x0308, 0x0601, 0x0604, 0x0611, 0x0710, 0x0723, 0x0724, 0x0B01].contains op

/-- Commands whose work is cut into quanta at output tiles or between them (02 R48). -/
def isCut (op : Nat) : Bool := [0x0306, 0x0308, 0x0601, 0x0401, 0x0402, 0x0403, 0x0405, 0x0510, 0x0511, 0x0512, 0x0620].contains op

/-- The plan of a command is complete. -/
def Adm.ready (a : Adm) : Bool := (a.snap.map (·.ready)).getD false

/-- Mark a command planned, its wait over; what its planning fixed is kept (04 R120). -/
def State.setPlanned (s : State) (order : Nat) (x : Option Snap) : State :=
  s.modAdm order fun a => { a with planned := true, waiting := false, snap := x }

/-- The state in which a command's first quantum is planned: nothing of it is captured yet. -/
def State.planning (s : State) (f : Fn) : State :=
  let x : Snap := match f with
    | .pf => {}
    | .vf k => { num := (s.comp k).num, hist := (s.comp k).hist }
  { s with act := { trial := true, snap := some x } }

/-- What planning keeps of its trial: reserved space, the addresses and identifiers taken, and that free values were drawn (06 R228, R246). -/
def State.keepPlan (s s' : State) (f : Fn) : State :=
  let s : State := { s with resv := s'.resv, free := s'.free }
  match f with
  | .pf => s
  | .vf k =>
    let y := s'.comp k
    let x := s.comp k
    if x.tabNext = y.tabNext ∧ x.bufNext = y.bufNext ∧ x.idNext = y.idNext then s
    else s.modComp k fun x => { x with tabNext := y.tabNext, bufNext := y.bufNext, idNext := y.idNext }

/-- Plan a command's first quantum: its checks are made, its slot space reserved and its values captured; a check that fails
completes it (03 R87; 04 R120; 06 R228). A command whose plan is complete and that waited goes on, unless it still waits. -/
def State.planWork (s : State) (a : Adm) : State :=
  match gate a.op a.cmd.fn s with
  | some st => s.reply a.cmd a.op st 0
  | none =>
    match opBody a.op a.cmd (s.planning a.cmd.fn) with
    | .ok (.wait s') => if a.waiting then s else (s.keepPlan s' a.cmd.fn).setPlanned a.cmd.order s'.act.snap
    | r => if a.ready then s.setPlanned a.cmd.order a.snap else match r with
    | .error e => s.reply a.cmd a.op e.st e.detail
    | .ok (.done s' st d) =>
      if succeeded st.code || lateStatus st then (s.keepPlan s' a.cmd.fn).setPlanned a.cmd.order s'.act.snap
      else (s.framed a.op s').reply a.cmd a.op st d
    | .ok (.part s') => (s.keepPlan s' a.cmd.fn).setPlanned a.cmd.order s'.act.snap
    | .ok (.wait _) => s
    | .ok (.space s') => (s.framed a.op s').keepSpace a.cmd a.op

/-- A compartment may plan work: it has a run, and no row-clear is under way (02 R42; 12 R460). -/
def State.plansFor (s : State) (f : Fn) : Bool :=
  match f with
  | .pf => true
  | .vf k => (s.comp k).slice.count != 0 && !(s.comp k).clearing

/-- A command whose dependencies are met, in the plan phase. -/
def State.planReady (s : State) (a : Adm) : State :=
  if a.op = 0x0008 then (if a.waiting then s else runCmd a.op a.cmd s (opBody a.op a.cmd s))
  else if !s.plansFor a.cmd.fn || s.implied a || s.fenced a (fun b => b.planned && !b.waiting) then s
  else if isDeferrable a.op && !a.waiting && s.holdsDeferred then s.modAdm a.cmd.order fun a => { a with heldStrokes := a.heldStrokes + 1 }
  else if a.cmd.fn = .pf ∧ !isBulk a.op then runCmd a.op a.cmd s (opBody a.op a.cmd s)
  else s.planWork a

/-- One command in the plan phase. -/
def State.planAdm (s : State) (a : Adm) : State :=
  if a.planned && !a.waiting then s
  else match s.depStatus a with
    | some st => s.reply a.cmd a.op st 0
    | none => if s.depsDone a && a.fetched then (s.examine a).planReady a else s.examine a

/-- Plan every admitted command, in admission order. -/
def State.planQueue (s : State) : State :=
  (s.queue.map (·.cmd.order)).foldl (fun s o => match s.admOf o with
    | some a => s.planAdm a
    | none => s) s

/-- A forge held for DEFER_LIMIT strokes is discarded and counts in FORGE_REFUSED (15 R536). -/
def State.holdForge (s : State) (k i : Nat) : State :=
  match (Tab.find? (s.comp k).variants i).bind (·.forging) with
  | none => s
  | some w =>
    if s.power.deferLimit ≤ w.held + 1 then s.endForge k i false
    else s.modVariant k i fun v => { v with forging := some { w with held := w.held + 1 } }

/-- Forges in progress are held while deferral is in force. -/
def State.holdForges (s : State) : State :=
  if s.holdsDeferred then s.comps.foldl (fun s p => p.2.variants.foldl (fun s v => s.holdForge p.1 v.1) s) s else s

/-- The Hearth copies that the next quantum of a planned command will make: those of a rehearsal of its work (06 R232). -/
def State.copiesOf (s : State) (k : Nat) (a : Adm) : List (Nat × Nat × Nat × Nat × Bool × Nat) :=
  let s0 : State := { s with act := { order := some a.cmd.order, snap := a.snap, dry := true } }
  let old := ((s.comp k).copies).map fun c => (c.2.2.2.1, c.2.2.1)
  match opBody a.op a.cmd s0 with
  | .error _ => []
  | .ok r => ((r.state.comp k).copies).filter fun c => !old.contains (c.2.2.2.1, c.2.2.1)

/-- Room is made in a compartment's cache part for the copies that the quanta planned in this phase will make (06 R232). -/
def State.makeRoom (s : State) (k : Nat) : State :=
  let l := (s.queue.filter fun a => decide (a.cmd.fn = .vf k) && a.planned && !a.waiting && readsTiles a.op).flatMap (s.copiesOf k)
  if l.isEmpty then s
  else s.modComp k fun x => Comp.evict false (x.hearthCache - copyBytes l) x.copies.length x

/-- Forges are planned after the admitted quanta (07 R291), but not while deferral holds them (15 R535). -/
def State.planForges (s : State) : State :=
  if !s.forgesRun then s
  else s.comps.foldl (fun s p => if s.plansFor (.vf p.1) then p.2.variants.foldl (fun s v => s.planForge p.1 v.1) s else s) s

/-- PLAN_PHASE (R34). -/
def opPlanPhase (s : State) : State :=
  if s.power.main = .service ∧ s.stroke.phase = .intake then
    let s := s.endIntake 260
    let s : State := { s with stroke := { s.stroke with phase := .plan } }
    if s.serving then
      let s := ((s.collPlan.holdForges).planQueue).planForges
      (s.comps.map (·.1)).foldl State.makeRoom s
    else s
  else s

/-- SLOT_WAIT_LIMIT (06 R228): not planned at the plan phase of its 64th stroke of waiting. -/
def opSlotWaitLimit (order : Nat) (s : State) : State :=
  match s.admOf order with
  | some a => if s.serving ∧ s.stroke.phase = .plan ∧ 64 ≤ a.slotWait ∧ (!a.planned || !s.resv.any fun r => r.order == order) then s.reply a.cmd a.op .noResource 0 else s
  | none => s

/-- DEFER_LIMIT_EXPIRY (15 R536). -/
def opDeferLimit (order : Nat) (s : State) : State :=
  match s.admOf order with
  | some a =>
    if s.serving ∧ s.stroke.phase = .plan ∧ isDeferrable a.op ∧ s.holdsDeferred ∧ s.power.deferLimit ≤ a.heldStrokes ∧ !a.planned then
      s.reply a.cmd a.op .deferred 0
    else s
  | none => s

/-! ### Executing -/

/-- The status of a host transfer of a command that fails (14 Table 14.4): an image's own code, otherwise HOST_WINDOW_FAULT. -/
def hostFaultStatus (op : Nat) : Status :=
  if [0x0601, 0x0604, 0x0611].contains op then .imageReadFault else if op = 0x0B01 then .fwReadFault else .hostWindowFault

/-- A command whose host write fails after a part that the spec leaves open was written (06 R249; 09 R384; 12 R464). -/
def brokenExport (limit op : Nat) (c : Cmd) (s : State) : Option (Chk Fin) :=
  match op with
  | 0x0106 => some (opFarClearTo (some limit) c s)
  | 0x0308 => some (opTensorExportTo (some (limit % u32 c.block 20)) c s)
  | 0x0723 => some (opTrainExportTo (some (limit % (5 * u32 c.block 28))) c s)
  | _ => none

/-- What an export that fails has written stays in host memory (06 R249; 09 R384). -/
def State.keepExport (s : State) (a : Adm) : State :=
  let (n, s1) := s.draw
  match brokenExport n a.op a.cmd s1 with
  | some (.ok r) => { s1 with hostMem := r.state.hostMem }
  | _ => s

/-- A command's host transfer fails. -/
def State.hostFault (s : State) (a : Adm) : State :=
  let (n, s1) := s.draw
  match brokenExport n a.op a.cmd s1 with
  | some r => finishCmd a.op a.cmd s1 r
  | none =>
    if a.op = 0x0B01 then finishCmd a.op a.cmd s (opFwStage .hostAccess a.cmd s)
    else s.reply a.cmd a.op (hostFaultStatus a.op) 0

/-- A tag or header that did not verify: an ERROR event with withheld arguments, AUTH_FAILS, and AUTH_FAIL (06 R225). -/
def State.tileAuthFail (s : State) (a : Adm) : State := (s.tileFault a.cmd.fn false).reply a.cmd a.op .authFail 0

/-- A malformed coded payload (06 R226). -/
def State.tileCodingFault (s : State) (a : Adm) : State := (s.tileFault a.cmd.fn true).reply a.cmd a.op .tileCodingFault 0

/-- An access to a line with a tag succeeds in the run of a compartment: its own line of its EPOCH, or a line of a base slot that it is
attached to, which no command writes (12 Table 12.2, R452). -/
def State.lineTagOk (s : State) (f : Fn) (tag : Nat) : Bool :=
  match f with
  | .pf => true
  | .vf k =>
    let x := s.comp k
    let owner := tag / 256
    (owner == k && tag % 256 == x.epoch) || (tag % 256 == 0 && x.attached.any fun p => owner == 0x40 + p.1)

/-- A line tag that does not match: an ALARM with the tag found, LINE_TAG_FAULTS, and LINE_TAG_FAULT (12 R452). -/
def State.lineTagFault (s : State) (a : Adm) (tag : Nat) : State :=
  let s := s.raise 0x0082 .alarm (fnScope a.cmd.fn) tag 0
  let s := match a.cmd.fn with
    | .pf => s
    | .vf k => s.modComp k fun x => { x with lineTagFaults := sat64 x.lineTagFaults 1 }
  s.reply a.cmd a.op .lineTagFault 0

/-- The state in which a quantum of a planned command executes. -/
def State.beginQuantum (s : State) (a : Adm) (reach : List Reach) : State :=
  { s with act := { order := some a.cmd.order, reach, snap := a.snap } }

/-- Tiles of the next quantum are fetched into the Hearth cache, but not while deferral is in force (06 R231, R234; 15 R535). -/
def State.prefetch (s : State) (f : Fn) (l : List (Nat × Nat)) : State :=
  match f with
  | .pf => s
  | .vf k => if s.deferring then s else l.foldl (fun s p => s.modComp k fun x => match Tab.find? x.tensors p.1 with
      | some t => if t.cache = 3 && (s.tileData t p.2).isSome then (x.touch .free p.1 p.2 s.stroke.number).1 else x
      | none => x) s

/-- Stored forms in HBM that no longer authenticate (06 R225). -/
def State.spoil (s : State) (f : Fn) (l : List (Nat × Nat)) : State :=
  match f with
  | .pf => s
  | .vf k => l.foldl (fun s p => s.modComp k fun x => x.modTile p.1 p.2 fun d => { d with spoilt := d.spoilt || d.tier == 1 }) s

/-- A fault that a command's traffic can meet: only commands that read tiles or pages meet a tag, a header, a coding or a line fault;
only those that move host data a host fault (06 Table 6.14; 14 Table 14.4). -/
def meetsFault (op : Nat) : RunFault → Bool
  | .none => true
  | .auth => readsTiles op || (movesHostData op && op != 0x0106 && op != 0x0604)
  | .coding => readsTiles op
  | .lineTag _ => readsTiles op || op == 0x0307 || op == 0x0901
  | .window => readsTiles op || movesHostData op
  | .hostAccess => movesHostData op
  | .ide => readsTiles op || (movesHostData op && op != 0x0106 && op != 0x0604)

/-- The fault that a quantum meets. -/
def State.faultOf (s : State) (a : Adm) (x : RunFault) : RunFault :=
  if !meetsFault a.op x then .none
  else match x with
    | .lineTag t => if s.lineTagOk a.cmd.fn t then .none else x
    | _ => x

/-- Traffic of a command with host memory has not started and waits for the link (14 R533). -/
def State.waitsLink (s : State) (op : Nat) : Bool := movesHostData op && !s.host.up

/-- A quantum of a planned command executes, with what the environment makes of its traffic. A command whose work is not cut does
nothing in a quantum that is not its last. -/
def State.execAdm (s : State) (a : Adm) (x : RunItem) : State :=
  let s := s.spoil a.cmd.fn x.spoilt
  match s.faultOf a x.fault with
  | .none =>
    if (!x.reach.isEmpty && !isCut a.op) || s.waitsLink a.op then s
    else (finishCmd a.op a.cmd s (opBody a.op a.cmd (s.beginQuantum a x.reach))).prefetch a.cmd.fn x.fetch
  | .auth => (s.keepExport a).tileAuthFail a
  | .coding => (s.keepExport a).tileCodingFault a
  | .lineTag t => (s.keepExport a).lineTagFault a t
  | .window => if movesHost a.op then s.hostFault a else s.reply a.cmd a.op .hostWindowFault 0
  | .hostAccess => s.hostFault a
  | .ide => if a.op = 0x0B01 then finishCmd a.op a.cmd s (opFwStage .ide a.cmd s) else (s.keepExport a).reply a.cmd a.op .authFail 0

/-- A command may execute a quantum: it is planned, of the function, and no fence holds it. -/
def State.mayExecute (s : State) (f : Fn) (ok : Nat → Bool) (a : Adm) : Bool :=
  admOfFn f a && a.planned && !a.waiting && ok a.op && !s.fenced a (fun _ => false)

/-- One quantum of a list. -/
def State.runItem (f : Fn) (ok : Nat → Bool) (s : State) (x : RunItem) : State :=
  match s.admOf x.order with
  | some a => if s.mayExecute f ok a then s.execAdm a x else s
  | none => s

/-- Usable time of a run, ns: C × u − 0.35 µs with u = (P − 20 µs) / 256 (R43). -/
def State.usableNs (s : State) (k : Nat) : Nat := (s.comp k).slice.count * (s.stroke.period * 10000 - 20000) / 256 - 350

/-- Usable time of the run under way that is left. -/
def State.leftNs (s : State) : Nat := match s.stroke.current with
  | some k => s.usableNs k - s.stroke.usedNs
  | none => 0

/-- Time of the run under way is taken. -/
def State.useNs (s : State) (n : Nat) : State := { s with stroke := { s.stroke with usedNs := s.stroke.usedNs + n } }

/-- A quantum of a compartment in the run under way: only one whose worst-case duration fits before the guard interval (R51, R53). -/
def State.fitItem (k : Nat) (s : State) (x : RunItem) : State := if x.ns ≤ s.leftNs then (s.useNs x.ns).runItem (.vf k) (fun _ => true) x else s

/-- The planned quanta of a compartment in its run. -/
def State.runItems (s : State) (k : Nat) (l : List RunItem) : State := l.foldl (State.fitItem k) s

/-- The items of a list that stand in admission order. -/
def inOrder : Nat → List RunItem → List RunItem
  | _, [] => []
  | n, x :: r => if n ≤ x.order then x :: inOrder x.order r else inOrder n r

/-- Runs may execute: in service, a lease holder, and the plan or execute phase. -/
def State.executing (s : State) : Bool := s.serving && decide (s.stroke.phase = .plan ∨ s.stroke.phase = .execute)

/-- Enter the execute phase. -/
def State.enterExecute (s : State) : State := { s with stroke := { s.stroke with phase := .execute } }

/-- A switch interval: the outgoing compartment's engine state is parked, and every Tong buffer is cleared (R43; 06 R223). -/
def State.switchInterval (s : State) : State := { s with anvils := [], tongs := [], sram := [] }

/-- The run of a compartment is under way. -/
def State.openRun (s : State) (k : Nat) : State :=
  { s.switchInterval with
    stroke := { s.stroke with ran := s.stroke.ran ++ [k], current := some k, guard := false, usedNs := 0, borrower := none } }

/-- What a run begins with: parked engine and link state of the run before ends, the compartment's link traffic and releases
go, the training root broadcasts, and collectives commit (13 R480, R499, R504; 09 R362, R378). -/
def State.beginRun (s : State) (k : Nat) : State :=
  let s := (((s.openRun k).endSegments).bump k .runStrokes 1).flushSpan k
  (((s.sendReleases k).trainBroadcast k).repeatJoins k).collCommits k

/-- A compartment's run can begin: it has one, every run before it has ended, and no device-wide Hearth clear is under way (R42,
R43; 12 Table 12.4). -/
def State.runDue (s : State) (k : Nat) : Bool :=
  s.executing && !s.quench.deviceClearing && s.exists_ k && (s.comp k).slice.count != 0 && !s.stroke.ran.contains k
    && s.stroke.ran.all fun j => (s.comp j).slice.first + (s.comp j).slice.count ≤ (s.comp k).slice.first

/-- RUN_START (R43): the run of compartment `k`; `fin` lists the planned quanta that execute in it. -/
def opRunStart (k : Nat) (fin : List RunItem) (s : State) : State :=
  if s.runDue k then (s.enterExecute.beginRun k).runItems k fin else s

/-- The run of a compartment is under way and its guard interval has not begun (R44, R51). -/
def State.inRun (s : State) (k : Nat) : Bool := s.executing && s.stroke.current == some k && !s.stroke.guard

/-- A quantum still running stops at its next reduction-step boundary and is carried (R51). -/
def State.cutItem (k : Nat) (s : State) (x : RunItem) : State :=
  match s.admOf x.order with
  | some a =>
    if s.mayExecute (.vf k) (fun _ => true) a then
      let s := (s.bump k .guardCuts 1).traceKind k 1 1
      if x.reach.isEmpty then s else s.runItem (.vf k) (fun _ => true) { x with fault := .none }
    else s
  | none => s

/-- GUARD_INTERVAL (R51, R52): the quanta of `cut` stop and are carried; the run's unused time is idle. -/
def opGuardInterval (k : Nat) (cut : List RunItem) (idleNs : Nat) (s : State) : State :=
  if s.inRun k then
    let s := s.bump k .idleNs (min idleNs s.leftNs)
    let s : State := { s with stroke := { s.stroke with guard := true } }
    cut.foldl (State.cutItem k) s
  else s

/-- Time of a lender's run goes to a borrower of its active group (R54, R55). -/
def State.lends (s : State) (lender borrower : Nat) : Bool :=
  s.stroke.groups.any fun p => p.2.active && bitOf p.2.members lender && bitOf p.2.members borrower

/-- Distance of a member from the lender, in ascending compartment number and wrapping round (R55). -/
def turnOf (lender k : Nat) : Nat := (k + 64 - lender) % 64

/-- The turn of a borrower has come: it is borrowing, or comes after the one that is (R55). -/
def State.mayBorrow (s : State) (lender k : Nat) : Bool :=
  s.lends lender k && match s.stroke.borrower with
    | none => true
    | some j => turnOf lender j ≤ turnOf lender k

/-- The switch interval of a change of borrower, ns; the first borrower of a run is one (R55; log 107). -/
def State.changeNs (s : State) (k : Nat) : Nat := if s.stroke.borrower = some k then 0 else 100

/-- The idle time of the run under way is lent to a borrower. -/
def State.lendTo (s : State) (k : Nat) : State :=
  if s.stroke.borrower = some k then s else { s.switchInterval with stroke := { s.stroke with borrower := some k, usedNs := s.stroke.usedNs + 100 } }

/-- QUANTUM_DONE (R53, R55): further quanta are issued under OPEN, or lent within the group, in admission order. -/
def opQuantumDone (lender borrower : Nat) (fin : List RunItem) (usedNs : Nat) (s : State) : State :=
  if s.inRun lender then
    if lender = borrower then
      (if (s.comp lender).slice.openFill && s.stroke.borrower.isNone then s.runItems lender (inOrder 0 fin) else s)
    else if s.mayBorrow lender borrower ∧ s.changeNs borrower ≤ s.leftNs then
      let s := s.lendTo borrower
      let n := min usedNs s.leftNs
      ((s.bump lender .lentNs n).bump borrower .borrowedNs n).runItems borrower (inOrder 0 fin)
    else s
  else s

/-- Bulk commands progress in a power state: BASE.LOAD not in Evening or below (15 R537). -/
def State.bulkRuns (s : State) (op : Nat) : Bool :=
  isBulk op && (op != 0x0601 || [PowerState.noon, .highNoon, .afternoon].contains s.power.state)

/-- The run under way has ended: units of no compartment follow (R43). -/
def State.endRun (s : State) : State := { s with stroke := { s.stroke with current := none, guard := false, borrower := none } }

/-- UNASSIGNED_UNITS (07 R260; 17 R620): BASE.LOAD and FW.STAGE commands whose last read completes. -/
def opUnassignedUnits (fin : List RunItem) (s : State) : State :=
  if s.executing ∧ s.unassigned ≠ 0 then fin.foldl (State.runItem .pf s.bulkRuns) s.enterExecute.endRun.switchInterval else s

/-! ### Host reads of referenced blocks (03 R89; 14 R520; 19 R674) -/

/-- A referenced block may be read: it is not read yet and its compartment's run is under way. -/
def State.readable (s : State) (a : Adm) : Bool :=
  a.ref.isSome && !a.fetched && match a.cmd.fn with
    | .pf => false
    | .vf k => s.inRun k

/-- The block of a command as read: its admission takes effect from here. -/
def State.setBlock (s : State) (a : Adm) (b : List Byte) : State :=
  let c := { a.cmd with block := b }
  ({ s with queue := s.queue.map fun x => if x.cmd.order = a.cmd.order then { x with cmd := c, fetched := true } else x } : State).admitEffects c a.op

/-- A planned command may make host transfers: in its compartment's run, or in unassigned units. -/
def State.transfers (s : State) (a : Adm) : Bool :=
  a.planned && !a.waiting && match a.cmd.fn with
    | .pf => s.executing && isBulk a.op
    | .vf k => s.inRun k

/-- A host read of a command reaches its end (19 R674): the read of its referenced block, or of an image or window data that
its work needs, whose arrival is progress only. -/
def State.readEnds (s : State) (a : Adm) (r : ReadOutcome) : State :=
  if s.readable a then match r with
    | .data b => match a.ref with
      | some (_, len) => if b.length = len ∧ s.host.up then s.setBlock a b else s
      | none => s
    | .error => s.reply a.cmd a.op .paramFetchFail 0
    | .ide => s.reply a.cmd a.op .authFail 0
  else if s.transfers a then match r with
    | .data _ => s
    | .error => s.hostFault a
    | .ide => s.execAdm a { order := a.cmd.order, fault := .ide }
  else s

/-- HOST_READ_COMPLETION (19 R674). -/
def opHostReadCompletion (order : Nat) (r : ReadOutcome) (s : State) : State :=
  match s.admOf order with
  | none => s
  | some a => s.readEnds a r

/-- COMPLETION_TIMEOUT (14 R520): the read fails as one that completes with an error does. -/
def opCompletionTimeout (order : Nat) (s : State) : State :=
  match s.admOf order with
  | none => s
  | some a => s.readEnds a .error

def execPlanPhase (s : State) : Out := .next (opPlanPhase s).watchEvents
def execSlotWaitLimit (order : Nat) (s : State) : Out := .next (opSlotWaitLimit order s)
def execDeferLimitExpiry (order : Nat) (s : State) : Out := .next (opDeferLimit order s)
def execRunStart (k : Nat) (fin : List RunItem) (s : State) : Out := .next (opRunStart k fin s).watchEvents
def execGuardInterval (k : Nat) (cut : List RunItem) (idleNs : Nat) (s : State) : Out := .next (opGuardInterval k cut idleNs s).watchEvents
def execQuantumDone (lender borrower : Nat) (fin : List RunItem) (usedNs : Nat) (s : State) : Out :=
  .next (opQuantumDone lender borrower fin usedNs s).watchEvents
def execUnassignedUnits (fin : List RunItem) (s : State) : Out := .next (opUnassignedUnits fin s).watchEvents
def execHostReadCompletion (order : Nat) (r : ReadOutcome) (s : State) : Out := .next (opHostReadCompletion order r s)
def execCompletionTimeout (order : Nat) (s : State) : Out := .next (opCompletionTimeout order s)

end Sys2Proof.Machine
end

