-- ==== Sys2Proof/Machine/Settle.lean ====
section
/-! DEFINITION. The settle phase: results commit in admission order, signal words settle, and what an ended command left
behind is given up (02 R34, R65, R66, R69; 13 R504), and the limit of a drain (03 R110). -/

namespace Sys2Proof.Machine

/-! ### One result -/

/-- A placement: HOME, CACHE and PEER of the table (06 R248). -/
def State.commitPlace (s : State) (k addr home cache peer : Nat) : State :=
  s.modComp k fun x => match Tab.find? x.tensors addr with
    | some t => { x with tensors := Tab.set x.tensors addr { t with home, cache, peer } }
    | none => x

/-- A delivered key enters its function's table (11 R427). -/
def State.commitDeliver (s : State) (f : Fn) (index : Nat) (e : KeyEntry) : State := s.setKeyTable f (Tab.set (s.keyTable f) index e)

/-- ROTATE of a VARIANT key (11 R443). -/
def State.commitKeyPolicy (s : State) (k index : Nat) (rotate : Bool) : State :=
  match Tab.find? (s.keyTable (.vf k)) index with
  | some e => s.setKeyTable (.vf k) (Tab.set (s.keyTable (.vf k)) index { e with rotate })
  | none => s

/-- A new generation (11 R430, R443). -/
def State.commitKeyRotate (s : State) (k handle : Nat) : State :=
  match s.newGeneration k handle with
  | .ok s => s
  | .error _ => s

/-- A staged image enters the inactive bank (17 R620). -/
def State.commitStage (s : State) (kind : Nat) (b : Bank) : State :=
  let x := s.dawn.banks kind
  s.setBanks kind { x with banks := Tab.set x.banks (1 - x.active) b }

/-- An empty successor (07 R298). -/
def State.commitRebase (s : State) (k i slot : Nat) : State := s.modVariant k i fun v => { v with successor := some { slot } }

/-- The close of a variant closes the streams bound to it (07 R281; 08 R306). -/
def State.commitVarClose (s : State) (k i : Nat) : State :=
  match Tab.find? (s.comp k).variants i with
  | some v => (s.closeStreamsOf k v.handle).commitClose k i
  | none => s

/-- One pending result of function `f` takes effect. -/
def State.applyCommit (s : State) (f : Fn) : Commit → State
  | .compActive k x tags => (s.setComp k x).modFn (.vf k) fun f => { f with tags }
  | .tensorNew k addr t => s.addTensor k addr t
  | .bufferNew k addr b => s.modComp k fun x => { x with buffers := Tab.set x.buffers addr b }
  | .memFree k addr => s.freeObject k addr
  | .tileWrite k addr tiles => tiles.foldl (fun s p => s.switchTile k addr p) s
  | .place k addr home cache peer => s.commitPlace k addr home cache peer
  | .placeMoves k addr _ _ _ moves => moves.foldl (fun s p => s.moveTile k addr p) s
  | .epochUp => s.configChanged
  | .cellSet x => { s with link := { s.link with cell := x } }
  | .routeSet dest mask => s.setRoute dest mask
  | .spanSet k id x => s.setSpan k id x
  | .lendGroup g x => s.setGroup g x
  | .lendDissolve g => s.dissolveGroup g
  | .consent g k x => s.setConsent g k x
  | .routeRecord k addr off n e topk t => s.commitRoute k addr off n e topk t
  | .bufWrite k addr off bytes pages => s.writeBuf k addr off bytes pages
  | .count k l => s.addCounts k l
  | .hist k slot gen amax _ => s.histAdd k slot gen amax
  | .claim k c => s.modComp k fun x => { x with claim := some c }
  | .keyDeliver index e => s.commitDeliver f index e
  | .keyPolicy k index rotate => s.commitKeyPolicy k index rotate
  | .keyRotate k handle => s.commitKeyRotate k handle
  | .keyDestroy handle => s.commitDestroy f handle
  | .fwStage kind b => s.commitStage kind b
  | .streamClose k handle => s.commitStreamClose k handle
  | .streamOpen k handle x => s.commitStreamOpen k handle x
  | .kvLayer k handle layer len added freed => s.commitLayer k handle layer len added freed
  | .freeAll k addrs => s.dropTensors k addrs
  | .attach k slot tables => s.commitAttach k slot tables
  | .detach k slot => s.modComp k fun x => x.detach slot
  | .baseSlot slot b => s.commitBase slot b
  | .varNew k index v => s.modComp k fun x => { x with variants := Tab.set x.variants index v }
  | .varSet k index target x ts => s.commitSet k index target x ts
  | .varReside k index resident moves => s.commitReside k index resident moves
  | .varMode k index mode => s.commitMode k index mode
  | .varRebase k index slot => s.commitRebase k index slot
  | .varClose k index => s.commitVarClose k index
  | .varServed k index rows => s.commitServed k index rows
  | .fbQueue k index l seq => s.commitQueue k index l seq
  | .fbTake k index n => s.commitTake k index n
  | .train k index target x => s.commitTrain k index target x
  | .trainCfg k index target h => s.commitTrainCfg k index target h
  | .ckptAsk k index target => s.commitCkptAsk k index target
  | .groupFree k index => s.dropGroup k index
  | .strokeConfig p => { s with stroke := { s.stroke with pending := some p } }
  | .sliceSet p => s.commitSlice p
  | .powerSet cap limit => s.commitPower cap limit
  | .powerPin k action ring stream => s.commitPin k action ring stream
  | .logBudgets b => s.commitBudgets b
  | .traceSet k t => s.commitTrace k t
  | .alarmAck order first count stroke => s.commitAck order first count stroke
  | .quenchDue q => s.commitQuench q
  | .deviceDue => s.commitDevice
  | .armed x => { s with dawn := { s.dawn with armed := x } }
  | .transition t => { s with dawn := { s.dawn with transition := some t } }
  | .fwPending ks restart => s.commitActivate ks restart
  | .fwRaise ks => s.commitRaise ks
  | .linkConfig node priority => s.commitLink node priority
  | .portDisable p from_ abort => s.commitDisable p from_ abort

/-! ### All results of a stroke -/

/-- Insert a result before the first one admitted later. -/
def insertCommit (c : PendingCommit) : List PendingCommit → List PendingCommit
  | [] => [c]
  | d :: r => if c.order < d.order then c :: d :: r else d :: insertCommit c r

/-- Results in admission order, those of one command in the order it left them (02 R65). -/
def byOrder (l : List PendingCommit) : List PendingCommit := l.foldl (fun acc c => insertCommit c acc) []

/-- A command's results are held back: it has quanta left (02 R50), peer moves without a completion (13 R498), a collective without
COMMIT (13 R504). -/
def State.heldBack (s : State) (order : Nat) : Bool := (s.admOf order).isSome || s.moveOpen order || s.collHeld order

/-- A result commits at this settle: it is not held back, or it is a tile that a placement has moved (06 R248). -/
def State.commitsNow (s : State) (c : PendingCommit) : Bool := c.what.stays || !s.heldBack c.order

/-- Commit every result that is not held back, the later admitted over the earlier, then advance the scale histories
(02 R65, R69; 04 R146); nothing commits in the stroke of a lifecycle transition (11 R437). -/
def State.settleCommits (s : State) : State :=
  let now := if s.dawn.transiting then [] else byOrder (s.commits.filter s.commitsNow)
  let s : State := { s with commits := s.commits.filter fun c => !s.commitsNow c }
  ((now.foldl (fun s c => s.applyCommit c.fn c.what) s).settlePlaces now).histAdvances now

/-! ### What ended commands leave behind -/

/-- A command is admitted, or its results are held back. -/
def State.underWay (s : State) (order : Nat) : Bool := (s.admOf order).isSome || s.commits.any fun c => c.order == order

/-- Slot space reserved, and peer moves noted, for commands that have ended are given up (06 R228; 13 R498). -/
def State.releaseEnded (s : State) : State :=
  { s with
    resv := s.resv.filter fun r => s.underWay r.order
    works := s.works.filter fun w => (s.admOf w.order).isSome
    fresh := s.fresh.filter fun f => s.queue.any fun a => decide (a.cmd.fn = .vf f.1) && a.planned
    link := { s.link with moves := s.link.moves.filter fun m => s.underWay m.order } }

/-- An object whose MEM.FREE, BASE.DETACH or STREAM.CLOSE ended without effect is live again, also where the command was aborted
(log 125). -/
def State.closingCleanup (s : State) (k : Nat) : State :=
  let here (o : Nat) : Bool := (s.admOf o).isSome
  s.modComp k fun x =>
    let streams := x.streams.map fun p => (p.1, { p.2 with closing := p.2.closing.filter here })
    { x with
      tensors := x.tensors.map fun p => (p.1, { p.2 with closing := p.2.closing.filter here })
      buffers := x.buffers.map fun p => (p.1, { p.2 with closing := p.2.closing.filter here })
      streams
      closing := x.closing.filter fun h => (streams.any fun p => p.1 == h && p.2.closing.isSome) }

/-- What settle gives up in one compartment, and the key generations and forged copies that nothing uses (07 R294; 11 R431). -/
def State.compCleanup (s : State) (k : Nat) : State :=
  ((((((s.variantCleanup k).trainCleanup k).freeUnforged k).closingCleanup k).keyCleanup (.vf k))).modComp k Comp.dropGens

/-- SETTLE_PHASE (R34, R69). -/
def opSettlePhase (s : State) : State :=
  if s.power.main = .service ∧ (s.stroke.phase = .plan ∨ s.stroke.phase = .execute) then
    let s : State := { s with stroke := { s.stroke with phase := .settle } }
    let s := s.collSettle.settleWords.settleCommits.releaseEnded.collCleanup.baseCleanup.keyCleanup .pf
    (s.comps.map (·.1)).foldl State.compCleanup s
  else s

/-- A STROKE.WAIT whose target has been reached completes in this report phase (02 R74). -/
def State.waitReached (s : State) (a : Adm) : Bool := a.op == 0x0008 && a.waiting && u64 a.cmd.block 0 ≤ s.stroke.number

/-- End the drained commands that have not completed by their limit: ABORTED, or SHED under a lowered cap (03 R110; 15 R553); one
whose results still wait for a peer has not completed, and they are discarded. -/
def opDrainLimit (s : State) : State :=
  let past (e : Option Nat) : Bool := e.any fun e => e ≤ s.stroke.number
  let due (a : Adm) : Bool := past a.drainEnd && !s.waitReached a
  let held (r : Reply) : Bool := past r.drainEnd && s.moveOpen r.cmd.order && !neverAborted r.op
  if s.power.main = .service ∧ s.stroke.phase = .settle then
    let s := (s.abortReplies (fun r => held r && !r.drainShed) .aborted false).abortReplies (fun r => held r && r.drainShed) .shed false
    (s.endWhere (fun a => due a && !a.drainShed && !neverAborted a.op) .aborted).endWhere (fun a => due a && a.drainShed) .shed |>.baseCleanup
  else s

/-! ### The meanings -/

def execSettlePhase (s : State) : Out := .next (opSettlePhase s).watchEvents
def execDrainLimit (s : State) : Out := .next (opDrainLimit s)

end Sys2Proof.Machine
end

