-- ==== Sys2Proof/Machine/Report.lean ====
section
/-! DEFINITION. The report phase: result records, replies, notices, interrupts, event records and the summary (02 R71, R74;
03 R80, R103-R106; 14 R519; 16 R576-R592), and the budget periods while no stroke runs (16 R579). -/

namespace Sys2Proof.Machine

/-! ### Replies (03 Table 3.6) -/

/-- A function can write host memory and be interrupted: reachable and in D0 (14 R514, R517, Table 14.6). -/
def State.reaches (s : State) (f : Fn) : Bool := s.host.up && s.enabledFn f && !(s.fnOf f).d3

/-- A function's replies can be written (03 R80, R104). -/
def State.replies? (s : State) (f : Fn) : Bool :=
  s.reaches f && decide ((s.fnOf f).rq.st = .enabled) && !(s.fnOf f).rqStopped

/-- PHASE of the next entry: 1 on the first pass after enable, inverted on each later pass (03 R105). -/
def OutRing.phase (r : OutRing) : Bool := r.tail / 2 ^ r.sizeLog % 2 == 0

/-- Address of the next entry of `n` bytes. -/
def OutRing.slot (r : OutRing) (n : Nat) : Nat := r.base + n * (r.tail % 2 ^ r.sizeLog)

/-- The tail after one more entry. -/
def OutRing.push (r : OutRing) : OutRing := { r with tail := (r.tail + 1) % count32 }

/-- The 32 bytes of a command's reply. -/
def replyBytes (r : Reply) (head number : Nat) (phase : Bool) : List Byte :=
  layout 32 [(0, 8, r.cmd.cookie), (8, 4, if r.admitted then r.cmd.tag else 0), (12, 2, r.status), (14, 2, r.op),
    (16, 6, if r.admitted then r.cmd.seq else 0), (22, 1, r.cmd.ring), (23, 1, bitNum phase), (24, 4, r.detail), (28, 2, head),
    (30, 2, number % 2 ^ 16)]

/-- The 32 bytes of a notice (03 R106). -/
def noticeBytes (n : Notice) (number : Nat) (phase : Bool) : List Byte :=
  padTo 32 (leBytes n.stroke 8 ++ padTo 4 n.lo ++ leBytes Status.okNote.code 2 ++ [0, 0] ++ padTo 6 n.hi ++ [0]
    ++ leBytes (bitNum phase) 1 ++ leBytes n.kind 4 ++ [0, 0] ++ leBytes (number % 2 ^ 16) 2)

/-- Write one entry of a reply ring. -/
def State.putReply (s : State) (f : Fn) (b : OutRing → List Byte) : State :=
  let r := (s.fnOf f).rq
  (s.hostWrite f (r.slot 32) (b r)).modFn f fun x => { x with rq := r.push }

/-- The tag of a completed command is free, and its outcome joins its ring's window (03 R95, R103). -/
def State.finishReply (s : State) (r : Reply) : State :=
  if r.admitted then
    let f := r.cmd.fn
    let s := s.modFn f fun x => { x with tags := x.tags.free (r.cmd.tag % 2 ^ 14) }
    s.modRing f r.cmd.ring fun q =>
      let l := q.outcomes ++ [{ epoch := q.epoch, seq := r.cmd.seq, status := r.status, stroke := s.stroke.number }]
      { q with outcomes := l.filter fun o => o.epoch != q.epoch || q.nextSeq ≤ o.seq + 16384 }
  else s

/-- The completed command joins its compartment's trace (16 R587 bit 0). -/
def State.traceReply (s : State) (r : Reply) : State :=
  match r.cmd.fn with
  | .pf => s
  | .vf k =>
    if r.admitted then
      s.traceRec k 0 { code := traceCode 0, arg0 := Config.traceArg r.op r.cmd.tag % 2 ^ 64, arg1 := r.cmd.stroke % 2 ^ 64 }
    else s

/-- One reply is written, or counts in REPLIES_LOST. -/
def State.tell (ok : Bool) (s : State) (r : Reply) : State :=
  let f := r.cmd.fn
  let s := if ok && !r.lost then
      let q := (s.fnOf f).ring r.cmd.ring
      s.putReply f fun x => replyBytes r (q.head % 2 ^ q.sizeLog) s.stroke.number x.phase
    else s.bumpRing f 7 1
  (s.traceReply r).finishReply r

/-- Insert a reply before the first one admitted later. -/
def insertReply (r : Reply) : List Reply → List Reply
  | [] => [r]
  | q :: l => if r.cmd.order < q.cmd.order then r :: q :: l else q :: insertReply r l

/-- The reply of an admitted command that waits for a peer is withheld (13 R498). -/
def State.withheld (s : State) (r : Reply) : Bool := r.admitted && s.moveOpen r.cmd.order

/-- A function's replies of this stroke: those of refused packets, then the others in admission order (03 R104); a reply whose
command waits for a peer stays (13 R498). -/
def State.repliesOf (s : State) (f : Fn) : List Reply :=
  let l := s.replies.filter fun r => decide (r.cmd.fn = f) && !s.withheld r
  l.filter (fun r => !r.admitted) ++ (l.filter (·.admitted)).foldl (fun acc r => insertReply r acc) []

/-- One notice goes into a free entry that no reply needs (03 R106). -/
def State.putNotice (f : Fn) (s : State) (n : Notice) : State :=
  if s.reserved f < (s.fnOf f).rq.free then
    (s.putReply f fun x => noticeBytes n s.stroke.number x.phase).modFn f fun x => { x with notices := Tab.del x.notices n.kind }
  else s

/-- A command asks for no reply interrupt (03 Table 3.4, bit 3). -/
def noIrq (c : Cmd) : Bool := bitOf c.flags 3

/-- One function's replies, notices and interrupts (03 R104, R106; 14 R519). -/
def State.reportFn (writeFail : List Fn) (s : State) (f : Fn) : State :=
  let l := s.repliesOf f
  let fails := s.replies? f && writeFail.contains f && (!l.isEmpty || !(s.fnOf f).notices.isEmpty)
  let s := if fails then s.replyFault f else s
  let ok := s.replies? f
  let gone : Reply → Bool := fun r => decide (r.cmd.fn = f) && !s.withheld r
  let s : State := { s with replies := s.replies.filter fun r => !gone r }
  let s := l.foldl (State.tell ok) s
  let before := (s.fnOf f).rq.tail
  let s := if ok then ((s.fnOf f).notices.map (·.2)).foldl (State.putNotice f) s else s
  let noticed := decide (before ≠ (s.fnOf f).rq.tail)
  let s := if ok && (noticed || l.any fun r => !r.lost && !noIrq r.cmd) then s.sendMsix f 0 else s
  if (s.fnOf f).statusDue && s.reaches f then (s.sendMsix f 1).modFn f fun x => { x with statusDue := false } else s

/-- STROKE.WAITs whose target has been reached complete with OK (02 R62, R74). -/
def State.endWaits (s : State) : State :=
  s.endWhere s.waitReached .ok

/-- Result records (02 R71; 14 Table 14.4). -/
def State.writeRecords (s : State) : State :=
  s.records.foldl (fun s w => if s.reaches w.fn then s.hostWrite w.fn w.addr w.bytes else s) { s with records := [] }

/-! ### Event records (16 R576-R578) -/

/-- A code whose arguments and offset are withheld from the operator (16 Table 16.7). -/
def withheld (code scope : Nat) : Bool := code == 0x0140 || code == 0x0141 || (code == 0x0130 && scope < 64)

/-- The arguments as a path shows them. -/
def shown (e : Ev) : Ev := if withheld e.code e.scope then { e with arg0 := 0, arg1 := 0 } else e

/-- Occurrences with the same CODE, SCOPE and ARG0 form one record of the first, ALERT where any has it (16 R578). -/
def addEv (l : List (Ev × Nat)) (e : Ev) : List (Ev × Nat) :=
  let same (p : Ev × Nat) : Bool := p.1.code == e.code && p.1.scope == e.scope && p.1.arg0 == e.arg0
  if l.any same then l.map fun p => if same p then ({ p.1 with alert := p.1.alert || e.alert }, p.2 + 1) else p
  else l ++ [(e, 1)]

/-- The records of a period's occurrences, in order of first occurrence. -/
def coalesce (l : List Ev) : List (Ev × Nat) := (l.map shown).foldl addEv []

/-- Records of one class. -/
def ofClass (c : EvClass) (l : List (Ev × Nat)) : List (Ev × Nat) := l.filter fun p => decide (p.1.cls = c)

/-- CLASS of FLAGS (16 Table 16.6). -/
def EvClass.code : EvClass → Nat
  | .alarm => 0
  | .error => 1
  | .warn => 2
  | .trace => 3

/-- A clear record of `n` occurrences (16 Table 16.6). -/
def evBytes (e : Ev) (n seq : Nat) (phase : Bool) : List Byte :=
  let off := if withheld e.code e.scope then 0 else Config.offsetNs e.stroke e.code e.scope e.arg0
  layout 64 [(0, 8, e.stroke), (8, 4, off), (12, 2, e.code), (14, 1, e.cls.code + 8 * bitNum (decide (1 < n)) + 32 * bitNum e.alert),
    (15, 1, e.scope), (16, 4, n), (20, 4, seq), (24, 8, e.arg0), (32, 8, e.arg1), (40, 8, e.stroke), (48, 2, 0xFFFF), (63, 1, bitNum phase)]

/-- An ALARM record as a path shows it: RING_STATE zero (16 Table 16.6, R585). -/
def alarmPath (slot : Nat) (r : AlarmRec) (seq : Nat) (phase : Bool) : List Byte :=
  let b := alarmBytes slot { r with acked := false, hostSent := false, sbSent := false }
  b.take 20 ++ leBytes seq 4 ++ (b.drop 24).take 39 ++ leBytes (bitNum phase) 1

/-- A sealed trace record (16 R589): SEAL_COUNT, ciphertext and tag under the trace key. -/
def sealedBytes (key : List Byte) (sealer : Nat) (x : Seal) (stroke scope : Nat) (t : TraceRec) (phase : Bool) : List Byte :=
  let head := layout 24 [(0, 8, stroke), (12, 2, 0x0300), (14, 1, 3 + 4), (15, 1, scope), (16, 8, x.count)]
  let body := layout 20 [(0, 4, Config.offsetNs stroke t.code scope t.arg0), (4, 2, t.code), (8, 8, t.arg0), (16, 4, t.arg1)]
  let (ct, tag) := gcmSeal key (sealIv sealer x.count) head body
  head ++ ct ++ tag ++ [0, 0, 0] ++ leBytes (bitNum phase) 1

/-! ### Summaries (16 R581) -/

/-- Add one period's summary to an unwritten one. -/
def Summary.merge (a b : Summary) : Summary where
  strokes := a.strokes + b.strokes
  errDropped := a.errDropped + b.errDropped
  warnDropped := a.warnDropped + b.warnDropped
  traceDropped := a.traceDropped + b.traceDropped
  slotsDropped := a.slotsDropped + b.slotsDropped
  pendingAlarms := b.pendingAlarms
  written := b.written
  firstStroke := if a.strokes = 0 then b.firstStroke else a.firstStroke
  lastStroke := b.lastStroke

/-- ARG0 of a summary: four counts, each saturating at 0xFFFF. -/
def Summary.arg0 (x : Summary) : Nat :=
  min x.errDropped 0xFFFF + 2 ^ 16 * min x.warnDropped 0xFFFF + 2 ^ 32 * min x.traceDropped 0xFFFF + 2 ^ 48 * min x.slotsDropped 0xFFFF

/-- The summary record (16 R581, Table 16.6). -/
def summaryBytes (x : Summary) (seq : Nat) (phase : Bool) : List Byte :=
  layout 64 [(0, 8, x.firstStroke), (12, 2, 0x0001), (15, 1, 0x40), (16, 4, min x.strokes 0xFFFFFFFF), (20, 4, seq), (24, 8, x.arg0),
    (32, 8, x.pendingAlarms + 2 ^ 32 * x.written), (40, 8, x.lastStroke), (48, 2, 0xFFFF), (63, 1, bitNum phase)]

/-! ### The host path (16 R580, R583) -/

/-- The host path writes: a command processor holds the lease, the link is up and the event ring is ENABLED. -/
def State.hostPath (s : State) : Bool := s.dawn.holder.isSome && s.reaches .pf && decide (s.watch.eq.st = .enabled)

/-- Entries left beyond the one for the summary. -/
def State.eqLeft (s : State) : Nat := if s.hostPath then s.watch.eq.free - 1 else 0

/-- Write one record of the host path, PATH_SEQ counting it (16 Table 16.6). -/
def State.putEvent (s : State) (b : Nat → Bool → List Byte) : State :=
  let r := s.watch.eq
  let seq := (s.watch.hostSeq + 1) % 2 ^ 32
  let s := s.hostWrite .pf (r.slot 64) (b seq r.phase)
  { s with watch := { s.watch with eq := r.push, hostSeq := seq, recordsWritten := sat64 s.watch.recordsWritten 1 } }

/-- ALARM records whose HOST_SENT is clear, oldest STROKE first and then lowest slot. -/
def insertAlarm (a : Nat × AlarmRec) : List (Nat × AlarmRec) → List (Nat × AlarmRec)
  | [] => [a]
  | b :: l => if a.2.stroke < b.2.stroke then a :: b :: l else b :: insertAlarm a l

/-- ALARM records the host path has to send. -/
def WatchSt.unsent (w : WatchSt) : List (Nat × AlarmRec) := (w.alarms.filter fun p => !p.2.hostSent).foldl (fun acc a => insertAlarm a acc) []

/-- Write one ALARM record and mark it HOST_SENT (16 R585). -/
def State.putAlarm (s : State) (p : Nat × AlarmRec) : State :=
  if s.eqLeft = 0 then s
  else
    let s := s.putEvent (alarmPath p.1 p.2)
    { s with watch := { s.watch with alarms := Tab.set s.watch.alarms p.1 { p.2 with hostSent := true } } }

/-- Write records of one class up to a budget and the entries left; the rest is dropped: how many. -/
def State.putClass (s : State) (budget : Nat) (l : List (Ev × Nat)) : State × Nat :=
  let n := min budget (min s.eqLeft l.length)
  ((l.take n).foldl (fun s p => s.putEvent (evBytes p.1 p.2)) s, l.length - n)

/-- The records of a compartment's slots: the front of its queue, then fillers of TRACE_CODE 0 whose other fields are free
(16 R588; log 6). -/
def State.slotRecs (s : State) (k n : Nat) : List TraceRec × State :=
  let q := (s.comp k).traceQueue.take n
  let s := s.modComp k fun x => { x with traceQueue := x.traceQueue.drop n }
  (upFrom 0 (n - q.length)).foldl (fun (p : List TraceRec × State) _ =>
    let (a, s) := p.2.draw
    let (b, s) := s.draw
    (p.1 ++ [{ code := 0, arg0 := a % 2 ^ 64, arg1 := b % 2 ^ 64 }], s)) (q, s)

/-- The trace key of a compartment reaches its limit: tracing ends at the next boundary (16 R590). -/
def State.traceLimit (s : State) (k : Nat) : State := s.modComp k fun x => { x with traceEnd := some 1 }

/-- One compartment's tenant slots, whole or not at all: each takes one invocation count (16 R580, R588, R589); the number
dropped. -/
def State.putSlots (p : State × Nat) (k : Nat) : State × Nat :=
  let s := p.1
  match (s.comp k).trace with
  | none => p
  | some t =>
    if s.eqLeft < t.slots || (s.comp k).traceEnd.isSome then (s, p.2 + t.slots)
    else match s.seals k t.key t.slots with
      | (s, .error _) => (s.traceLimit k, p.2 + t.slots)
      | (s, .ok seals) =>
        match s.keyEntry (.vf k) t.key with
        | none => (s.traceLimit k, p.2 + t.slots)
        | some e =>
          let (recs, s) := s.slotRecs k t.slots
          let key (x : Seal) := ((e.gens.find? fun g => g.gen == x.gen).getD e.newest).key
          let now := s.stroke.number
          let s := (seals.zip recs).foldl (fun s x => s.putEvent fun _ ph => sealedBytes (key x.1) e.sealerBase x.1 now k x.2 ph) s
          let s := s.bump k .traceRecords t.slots
          (if sealLimit ≤ e.newest.count then s.traceLimit k else s, p.2)

/-- The host path of one report phase (16 R580, R581): records in order of class, then the summary. -/
def State.hostEvents (s : State) : State :=
  let l := coalesce s.watch.events
  let b := s.watch.budgets
  let seq0 := s.watch.recordsWritten
  let room := s.hostPath && 1 ≤ s.watch.eq.free
  let s := if room then s.watch.unsent.foldl State.putAlarm s else s
  let (s, de) := s.putClass b.error (ofClass .error l)
  let (s, dw) := s.putClass b.warn (ofClass .warn l)
  let (s, ds) := (s.comps.map (·.1)).foldl State.putSlots (s, 0)
  let (s, dt) := s.putClass b.trace (ofClass .trace l)
  let written := s.watch.recordsWritten - seq0 + bitNum room
  let one : Summary :=
    { strokes := 1, errDropped := de, warnDropped := dw, traceDropped := dt, slotsDropped := ds, pendingAlarms := s.watch.unsent.length
      written, firstStroke := s.now, lastStroke := s.now }
  let sum := s.watch.hostSummary.merge one
  let w := s.watch
  let s : State :=
    { s with
      watch :=
        { w with
          hostSummary := sum
          errorsDropped := sat64 w.errorsDropped de
          warnsDropped := sat64 w.warnsDropped dw
          tracesDropped := sat64 w.tracesDropped (dt + ds) } }
  if room then
    let s := s.putEvent (summaryBytes sum)
    ({ s with watch := { s.watch with hostSummary := {} } } : State).sendMsix .pf 3
  else s

/-! ### The sideband (16 R582, R592) -/

/-- Place records of one class in the event FIFO within a budget: how many were dropped. -/
def WatchSt.place (w : WatchSt) (budget : Nat) (l : List (Ev × Nat)) : WatchSt × Nat :=
  let n := min budget (min (255 - w.fifo.length) l.length)
  ((l.take n).foldl (fun (w : WatchSt) p =>
    let seq := (w.sbSeq + 1) % 2 ^ 32
    { w with fifo := w.fifo ++ [{ ev := p.1, rep := p.2, seq }], sbSeq := seq }) w, l.length - n)

/-- CLASS of the oldest record not read on the sideband, the mandatory byte of an in-band interrupt (16 R591; log 119). -/
def WatchSt.oldestClass (w : WatchSt) : Nat :=
  match ((w.alarms.filter fun p => !p.2.sbSent).map (·.2.stroke)).min?, w.fifo.head? with
  | some a, some r => if a ≤ r.ev.stroke then 0 else r.ev.cls.code
  | none, some r => r.ev.cls.code
  | _, none => 0

/-- The sideband in one budget period: ERROR and WARN records, the summary register, and one in-band interrupt where a new
record asserts ALERT_N. -/
def State.sidebandEvents (s : State) : State :=
  let l := coalesce s.watch.events
  let w := s.watch
  let old := w.fifo.length
  let (w, de) := w.place w.budgets.sbError (ofClass .error l)
  let (w, dw) := w.place w.budgets.sbWarn (ofClass .warn l)
  let one : Summary :=
    { strokes := 1, errDropped := de, warnDropped := dw, pendingAlarms := (w.alarms.filter fun p => !p.2.sbSent).length
      written := w.fifo.length - old, firstStroke := s.now, lastStroke := s.now }
  let fresh := (w.alarms.any fun p => !p.2.sbSent && p.2.lastStroke == s.now) || (w.fifo.drop old).any fun r => r.ev.alert
  { s with
    watch :=
      { w with
        sbSummary := w.sbSummary.merge one
        sbDropped := sat64 w.sbDropped (de + dw)
        ibis := w.ibis + bitNum (fresh && w.dynAddr.isSome)
        ibiByte := if fresh && w.dynAddr.isSome then w.oldestClass else w.ibiByte
        events := [] } }

/-! ### The phase -/

/-- Submission rings that were disabled and have no admitted command left become DISABLED (19 Table 19.5). -/
def State.ringsDone (s : State) (f : Fn) : State :=
  let busy (n : Nat) : Bool := (s.queue.any fun a => admOfFn f a && a.cmd.ring == n && !neverAborted a.op)
    || s.replies.any fun r => r.admitted && decide (r.cmd.fn = f) && r.cmd.ring == n && !neverAborted r.op
  s.modFn f fun x => { x with sq := x.sq.map fun p => (p.1, if p.2.st = .disabling ∧ !busy p.1 then { p.2 with st := .disabled } else p.2) }

/-- The report phase's lengthening: 300 ns while standalone or UNALIGNED, otherwise the trim of up to 250 ns (02 R61; 13 R493). -/
def State.trimmed (s : State) (ps : Int) : State :=
  { s with stroke := { s.stroke with trim := if s.stroke.align = .aligned then max (-250000) (min 250000 ps) else 300000 } }

/-- A committed lifecycle transition burns the fuses after this report phase and the device enters Dawn (11 R437). -/
def State.burnFuses (s : State) : State :=
  match s.dawn.transition with
  | some t =>
    if s.dawn.transiting then
      ({ s with dawn := { s.dawn with fuseA := t, fuseB := t, jtagOff := s.dawn.jtagOff || decide (3 ≤ t) } } : State).mainOff .night .restart true
    else s
  | none => s

/-- NAN_TRAPS grows in the report phase of a trapped command (04 R158). -/
def State.countTraps (s : State) : State :=
  (s.replies.filter fun r => r.status == Status.nanTrapped.code && !s.withheld r).foldl (fun s r => match r.cmd.fn with
    | .vf k => s.bump k .nanTraps 1
    | .pf => s) s

/-- REPORT_PHASE (R104): records, replies in admission order, notices, MSI-X messages, event records. -/
def opReportPhase (trimPs : Int) (writeFail : List Fn) (s : State) : State :=
  if s.power.main = .service ∧ s.stroke.phase = .settle then
    let s : State := { s with stroke := { s.stroke with phase := .report } }
    let s := s.endWaits.countTraps
    let s := allFns.foldl (State.reportFn writeFail) s.writeRecords
    let s := (s.fns.map fun p => if p.1 = 0 then Fn.pf else .vf (p.1 - 1)).foldl State.ringsDone s
    ((s.watchEvents.hostEvents.sidebandEvents).trimmed trimPs).burnFuses
  else s

/-- BUDGET_PERIOD (16 R576, R579): 1 ms while no stroke runs; the sideband goes on and the host path's records drop. -/
def opBudgetPeriod (s : State) : State :=
  if s.power.main = .service ∨ s.power.main = .unpowered then s
  else
    let s := s.hostEvents.sidebandEvents
    { s with watch := { s.watch with periods := (s.watch.periods + 1) % 2 ^ 63 } }

/-! ### The meanings -/

def execReportPhase (trimPs : Int) (writeFail : List Fn) (s : State) : Out := .next (opReportPhase trimPs writeFail s)
def execBudgetPeriod (s : State) : Out := .next (opBudgetPeriod s).watchEvents

end Sys2Proof.Machine
end

