-- ==== Sys2Proof/Machine/Boundary.lean ====
section
/-! DEFINITION. The stroke boundary: offset 0 of the next stroke, and every change that falls due there (02 R36-R40, R47,
R54-R56; 03 R77-R80, R109-R111; 04 R157; 06 R245, R248; 12 R457-R468; 13 R475, R490, R495; 14 R530, R531; 15 R545, R550, R562;
16 R590, R593; 17 R621; 18 R647; 19 R661). -/

namespace Sys2Proof.Machine

/-! ### The stroke timer -/

/-- Change every function that State lists. -/
def State.eachFn (s : State) (g : FnState → FnState) : State := { s with fns := s.fns.map fun p => (p.1, g p.2) }

/-- What begins anew with a stroke: tails at offset 0, and the events of the stroke (02 R34; 19 R660). -/
def startFn (x : FnState) : FnState :=
  { x with intEvents := 0, sq := x.sq.map fun p => (p.1, { p.2 with tailAt0 := p.2.tail }) }

/-- The stroke number goes up by one (02 R36); a stroke of a burst counts as time in High Noon (15 Table 15.9). -/
def State.countStroke (s : State) : State :=
  let highNoonNs := if s.power.burst.isSome then sat64 s.power.highNoonNs s.strokeNs else s.power.highNoonNs
  { s with power := { s.power with highNoonNs }, stroke := { s.stroke with number := s.stroke.number + 1, phase := .boundary, ran := [], current := none, guard := false, usedNs := 0, borrower := none } }

/-- A STROKE.CONFIG whose target is reached takes effect; a change to FIXED ends a burst (02 R39, R41; 15 R548). -/
def State.applyPeriod (s : State) : State :=
  match s.stroke.pending with
  | none => s
  | some p =>
    if s.stroke.number < p.target then s
    else
      let ends := s.power.burst.isSome && !p.burst
      let s := if ends then s.closeBurst true 0 else s
      let s : State := { s with stroke := { s.stroke with period := p.period, burst := p.burst, pending := none } }
      if ends then s.followLevels 0 .cap false else s

/-- This device follows the timing of another one. -/
def State.follows (s : State) : Bool := decide (s.stroke.align = .aligned) && s.link.ref.isSome && s.link.ref != s.link.node

/-- A member whose period differs from the reference's becomes UNALIGNED (02 R40); a stroke counts as one without the reference
until its TIMING arrives (02 R60). -/
def State.checkReference (s : State) (refPeriod : Nat) : State :=
  if s.follows then
    let s : State := { s with stroke := { s.stroke with refMissing := s.stroke.refMissing + 1 } }
    if refPeriod ≠ s.stroke.period then s.unalign 0 else s
  else s

/-! ### Slices and lending -/

/-- One SLICE.SET takes effect (02 R47); a changed run is reported to the span (13 R495). -/
def State.applySlice (s : State) (p : PendingSlice) : State :=
  if s.exists_ p.comp then
    let old := (s.comp p.comp).slice
    let s := s.modComp p.comp fun x => { x with slice := p.slice }
    if old.first = p.slice.first ∧ old.count = p.slice.count then s else s.spanReport p.comp
  else s

/-- Every SLICE.SET due takes effect, oldest first. -/
def State.applySlices (s : State) : State :=
  let due := s.stroke.slices.filter fun p => p.effective ≤ s.stroke.number
  let s := due.foldl State.applySlice s
  { s with stroke := { s.stroke with slices := s.stroke.slices.filter fun p => s.stroke.number < p.effective } }

/-- Every member has a valid consent for exactly the members (02 R54). -/
def LendGroup.agreed (g : LendGroup) : Bool :=
  (bitList g.members 64).all fun k => g.consents.any fun c => c.comp == k && c.members == g.members

/-- Groups dissolve, become active or inactive (02 R54, R56, R72). -/
def State.applyGroups (s : State) : State :=
  let groups := (s.stroke.groups.filter fun p => !p.2.dissolving).map fun p => (p.1, { p.2 with active := p.2.agreed })
  { s with stroke := { s.stroke with groups } }

/-! ### Power -/

/-- A change that came too late in the last stroke sheds work now (15 R550). -/
def State.applyShed (s : State) : State :=
  if s.power.shedDue then ({ s with power := { s.power with shedDue := false } } : State).shedNow else s

/-- REFCLK drives the clocks again (18 R647). -/
def State.applyRefclk (s : State) : State :=
  if s.power.refclkBack then { s with power := { s.power with holdover := false, refclkBack := false } } else s

/-! ### Quenches and resets -/

/-- Tenant changes due now tell the other members that the groups are BROKEN (13 R496). -/
def State.tellBroken (s : State) : State :=
  (s.quench.due.filter fun q => decide (q.kind ≠ .quench) && s.exists_ q.comp).foldl (fun s q => s.breakGroups q.comp) s

/-- The compartments that a device quench destroyed are ABSENT once the device-wide Hearth clear has ended (12 R468). -/
def State.applyCleared (s : State) : State :=
  if s.quench.deviceCleared then
    let s : State := { s with quench := { s.quench with deviceCleared := false } }
    ((s.comps.filter fun p => decide (p.2.st = .destroying)).map (·.1)).foldl State.removeComp s
  else s

/-- A device quench: commanded, or the one of a committed lifecycle transition (12 R468; 11 R437). -/
def State.applyDeviceQuench (s : State) : State :=
  let moves := s.dawn.transition.isSome
  if s.quench.deviceDue || moves then
    let s := s.deviceQuench
    { s with dawn := { s.dawn with transiting := moves } }
  else s

/-- Function resets, and the rings of ended bindings (14 R530, R531). -/
def State.applyResets (s : State) : State :=
  allFns.foldl (fun s f =>
    let x := s.fnOf f
    if x.resetDue then s.resetFn f
    else if x.unbindDue then (s.disableRings f).modFn f fun x => { x with unbindDue := false }
    else s) s

/-! ### Rings (03 R80, R109-R111; 19 R661) -/

/-- Every submission ring of a function that is ENABLED or DISABLING goes on disabling, its commands aborted (03 R111); under a
ring fault each of them has FAULTED set (19 Table 19.4). -/
def State.abortRings (s : State) (f : Fn) (lost fault : Bool) : State :=
  (s.abortFn f lost).modFn f fun x =>
    { x with sq := x.sq.map fun p =>
        (p.1, { p.2 with enable := false, st := if p.2.st = .enabled then .disabling else p.2.st
                         faulted := p.2.faulted || p.2.faultDue || (fault && p.2.st != .disabled), faultDue := false }) }

/-- The reply ring leaves ENABLED: held notices go (03 R106). -/
def State.closeReplies (s : State) (f : Fn) (faulted : Bool) : State :=
  s.modFn f fun x =>
    { x with rqStopped := false, notices := []
             rq := { x.rq with st := .disabled, enable := false, faultDue := false, faulted := x.rq.faulted || faulted } }

/-- Ring faults of a function take effect (03 R80). -/
def State.applyFaults (s : State) (f : Fn) : State :=
  let x := s.fnOf f
  if x.rq.faultDue then (s.abortRings f true true).closeReplies f true
  else if x.sq.any fun p => p.2.faultDue then s.abortRings f false true
  else s

/-- A base and size within Table 3.1 (03 R77; 19 R658). -/
def goodGeom (base sizeLog : Nat) : Bool := base % 4096 == 0 && 6 ≤ sizeLog && sizeLog ≤ 16

/-- Rings of a changing or ending compartment cannot be enabled (12 R466). -/
def State.mayEnable (s : State) (f : Fn) : Bool :=
  match f with
  | .pf => true
  | .vf k => !decide ((s.comp k).st = .changing ∨ (s.comp k).st = .destroying)

/-- The reply ring of a function at a boundary (19 Table 19.5). -/
def State.stepReplyRing (s : State) (f : Fn) : State :=
  let r := (s.fnOf f).rq
  match r.st, r.enable with
  | .disabled, true =>
    if !s.mayEnable f then s
    else if goodGeom r.base r.sizeLog then
      s.modFn f fun x => { x with counters := [], rqStopped := false, notices := [], rq := { x.rq with st := .enabled, faulted := false, head := 0, tail := 0 } }
    else (s.modFn f fun x => { x with rq := { x.rq with enable := false } }).configError f
  | .enabled, false => (s.abortRings f true false).closeReplies f false
  | _, _ => s

/-- The event ring at a boundary (19 Table 19.5, R664). -/
def State.stepEventRing (s : State) : State :=
  let r := s.watch.eq
  let set (r : OutRing) : State := { s with watch := { s.watch with eq := r } }
  if r.faultDue then set { r with st := .disabled, enable := false, faultDue := false, faulted := true }
  else match r.st, r.enable with
    | .disabled, true =>
      if goodGeom r.base r.sizeLog then (set { r with st := .enabled, faulted := false, head := 0, tail := 0 }).modFn .pf fun x => { x with counters := [] }
      else (set { r with enable := false }).configError .pf
    | .enabled, false => set { r with st := .disabled }
    | _, _ => s

/-- A submission ring starts: head, tail and sequence 0 and no hold; the numbering begins anew, and the outcomes of the one before
are kept for commands that still depend on it (03 R78, R95, R112; log 105). -/
def SqRing.start (r : SqRing) : SqRing :=
  { base := r.base, sizeLog := r.sizeLog, enable := true, abortMode := r.abortMode, st := .enabled, epoch := r.epoch + 1
    outcomes := r.outcomes.filter fun o => o.epoch == r.epoch }

/-- The commands of one ring. -/
def ofRing (f : Fn) (n : Nat) (a : Adm) : Bool := admOfFn f a && a.cmd.ring == n && !neverAborted a.op

/-- A submission ring is disabled in the mode of DISABLE_MODE (03 R110, R111). -/
def State.disableRing (s : State) (f : Fn) (n : Nat) : State :=
  let s := s.modRing f n fun r => { r with st := .disabling }
  let mine (r : Reply) : Bool := decide (r.cmd.fn = f) && r.cmd.ring == n && !neverAborted r.op
  if ((s.fnOf f).ring n).abortMode then (s.abortReplies mine .aborted false).endWhere (ofRing f n) .aborted
  else
    let e := some (s.stroke.number + 3)
    { s with
      queue := s.queue.map fun a => if ofRing f n a then { a with drainEnd := e, drainShed := false } else a
      replies := s.replies.map fun r => if r.admitted && mine r then { r with drainEnd := e, drainShed := false } else r }

/-- Submission ring `n` of a function at a boundary (19 Table 19.5). -/
def State.stepRing (f : Fn) (s : State) (n : Nat) : State :=
  let x := s.fnOf f
  let r := x.ring n
  match r.st, r.enable with
  | .disabled, true =>
    if !s.mayEnable f then s
    else if goodGeom r.base r.sizeLog && decide (x.rq.st = .enabled) then (s.modRing f n SqRing.start).modFn f fun x => { x with counters := [] }
    else (s.modRing f n fun r => { r with enable := false }).configError f
  | .enabled, false => s.disableRing f n
  | _, _ => s

/-- The rings of one function: faults, then reply ring, event ring and submission rings 0-3 (19 R661). -/
def State.stepRings (s : State) (f : Fn) : State :=
  let s := (s.applyFaults f).stepReplyRing f
  let s := match f with
    | .pf => s.stepEventRing
    | .vf _ => s
  (upFrom 0 4).foldl (State.stepRing f) s

/-! ### Logs and traces -/

/-- LOG.CONFIG takes effect (16 R593). -/
def State.applyBudgets (s : State) : State :=
  { s with watch := { s.watch with budgets := s.watch.budgetsPending.getD s.watch.budgets, budgetsPending := none } }

/-- TRACE_ENDED, kind 6 (16 R590). -/
def State.traceNotice (s : State) (k cause : Nat) : State :=
  s.notice (.vf k) { kind := 6, stroke := s.stroke.number, lo := leBytes cause 1 ++ [0, 0, 0], hi := padTo 6 [] }

/-- Tracing ends: slots and queue go, and the tenant is told (16 R590). -/
def State.endTrace (s : State) (k cause : Nat) : State :=
  match (s.comp k).trace with
  | none => s.modComp k fun x => { x with traceEnd := none }
  | some _ => (s.modComp k fun x => { x with trace := none, traceQueue := [], traceEnd := none }).traceNotice k cause

/-- A trace key that ended, then TRACE.CONFIG (16 R590, R593). -/
def State.applyTrace (s : State) (k : Nat) : State :=
  let s := match (s.comp k).traceEnd with
    | some c => s.endTrace k c
    | none => s
  match (s.comp k).tracePending with
  | none => s
  | some p =>
    let s := s.modComp k fun x => { x with tracePending := none }
    match p with
    | none => s.endTrace k 0
    | some t => s.modComp k fun x => { x with trace := some t }

/-! ### The boundary -/

/-- The configurations of one compartment take effect (04 R157; 06 R245, R248; 07 R288; 13 R495; 15 R562; 16 R593). -/
def State.applyComp (s : State) (k : Nat) : State :=
  let s := (((s.applyTrace k).modComp k applyPins).applyNumeric k).applyMem k
  ((s.applyPlaces k).modComp k Comp.applyPolicy).checkSpan k

/-- FW.ACTIVATE with WHEN 1 restarts the device (17 R621). -/
def State.applyRestart (s : State) : State := if s.power.restartDue then s.enterNight .restart else s

/-- What takes effect within compartments and functions once the quenches are done. -/
def State.applyConfig (s : State) : State :=
  let s := allFns.foldl State.stepRings s.applyResets
  ((s.comps.map (·.1)).foldl State.applyComp s.applyBudgets).applyWidths.applyPortDisables

/-- STROKE_BOUNDARY (R36, R37): `refPeriod` is the reference's period as the alignment exchange gives it (02 R40). -/
def opStrokeBoundary (refPeriod : Nat) (s : State) : State :=
  if s.power.main = .service ∧ s.stroke.phase = .report then
    let s := ((s.countStroke.eachFn startFn).applyPeriod.checkReference refPeriod).applySlices.applyGroups.applyRefclk
    let s := s.tellBroken.dueQuenches.applyCleared.applyDeviceQuench.applyConfig
    s.applyShed.applyCap.applyRestart
  else s

/-! ### The meaning -/

def execStrokeBoundary (refPeriod : Nat) (s : State) : Out := .next (opStrokeBoundary refPeriod s).watchEvents

end Sys2Proof.Machine
end

