-- ==== Sys2Proof/Machine/Sideband.lean ====
section
/-! DEFINITION. The sideband register space (19 R668-R673; 16 R591, R592) and the states of the lands and optical ports
(17 R614; 00 R17). -/

namespace Sys2Proof.Machine

/-! ### Status -/

/-- The sideband answers while the standby domain is powered (R668). -/
def State.sideband (s : State) : Bool := decide (s.power.main ≠ .unpowered)

/-- ALERT_N (16 R592). -/
def State.alertN (s : State) : Bool := (s.watch.alarms.any fun p => !p.2.sbSent) || s.watch.fifo.any fun r => r.ev.alert

/-- ALARM_NEXT: the lowest slot whose record has SB_SENT clear (Table 19.13). -/
def State.alarmNext (s : State) : Nat := ((s.watch.alarms.find? fun p => !p.2.sbSent).map (·.1)).getD 0xFFFF

/-- SB_STATUS (Table 19.14). -/
def State.sbStatus (s : State) : Nat :=
  s.watch.fifo.length + 2 ^ 8 * bitNum (s.watch.alarms.any fun p => !p.2.sbSent) + 2 ^ 9 * bitNum (s.watch.sbSummary.strokes != 0)
    + 2 ^ 10 * bitNum s.alertN

/-! ### Lands and light (17 R614, Table 17.6) -/

/-- What the device drives on a land, or sends on an optical port. -/
inductive Drive where
  | highZ
  | low
  | high
  /-- an input, or an I3C target that answers -/
  | listens
  | dark
  | lit
  deriving DecidableEq, Repr

/-- The transmitters of port L`i`: lit in service unless the port is DARK (13 Table 13.4). -/
def State.portLight (s : State) (i : Nat) : Drive :=
  if s.power.main = .service ∧ (Tab.get ({} : Port) s.link.ports i).st ≠ .dark then .lit else .dark

/-- The HOST transmitters. -/
def State.hostLight (s : State) : Drive := if s.host.lit then .lit else .dark

/-- SB_SCL and SB_SDA. -/
def State.sbLands (s : State) : Drive := if s.sideband then .listens else .highZ

/-- ALERT_N, open-drain (16 R592). -/
def State.alertLand (s : State) : Drive := if s.sideband && s.alertN then .low else .highZ

/-- PWR_GOOD. -/
def State.pwrGoodLand (s : State) : Drive := if !s.sideband then .highZ else if s.power.pwrGood then .high else .low

/-- THERMTRIP_N: held low while a trip is latched, whatever is powered. -/
def State.tripLand (s : State) : Drive := if s.power.tripLatch then .low else .highZ

/-- JTAG_TCK and its companions: high impedance once the test access ports are disconnected (00 R17). -/
def State.jtagLands (s : State) : Drive := if s.sideband && !s.dawn.jtagOff then .listens else .highZ

/-- The JTAG lands reach the on-die test access ports (00 R17). -/
def State.testAccess (s : State) : Bool := s.sideband && !s.dawn.jtagOff

/-! ### Sideband transfers (R668-R673) -/

/-- The static address (R668; 16 R591). -/
def sbStatic : Nat := 0x4B

/-- The target answers transfers to an address: its dynamic address, or before it has one the static address (16 R591). -/
def State.sbAnswers (s : State) (addr : Nat) : Bool := s.sideband && addr == s.watch.dynAddr.getD sbStatic

/-- SUMMARY: the merged summary, or zero (R670; 16 Table 16.6). -/
def State.sbSummaryBytes (s : State) : List Byte :=
  let x := s.watch.sbSummary
  if x.strokes = 0 then padTo 64 [] else summaryBytes x s.watch.sbSeq false

/-- EVENT_FIFO: the oldest record, or zero (R670). -/
def State.fifoBytes (s : State) : List Byte :=
  match s.watch.fifo with
  | [] => padTo 64 []
  | r :: _ => evBytes r.ev r.rep r.seq false

/-- ALARM_WINDOW: the record of slot ALARM_SLOT; an empty slot shows zero (log 121). -/
def State.windowBytes (s : State) : List Byte :=
  match Tab.find? s.watch.alarms s.watch.alarmSlot with
  | some r => alarmBytes s.watch.alarmSlot r
  | none => padTo 64 []

/-- SENSOR[ch] (Table 19.13; 16 R595). -/
def State.sensorBytes (s : State) (ch : Nat) : List Byte := (telemBytes s.watch ch).take 8

/-- The sideband registers that can be read, by address (Table 19.13). -/
def State.sbRegs (s : State) : List (Nat × List Byte) :=
  [(0x0000, leBytes s.ident 8 ++ leBytes s.identExt 4), (0x0010, leBytes s.dawn.serial 8), (0x0018, leBytes s.now 8),
    (0x0020, leBytes s.deviceState 4), (0x0028, leBytes s.dawn.leaseCounter 8), (0x0030, leBytes s.leaseReg 4),
    (0x0040, leBytes s.sbStatus 4), (0x0080, s.sbSummaryBytes), (0x0100, s.fifoBytes), (0x0200, leBytes s.watch.alarmSlot 2),
    (0x0208, leBytes s.alarmNext 2), (0x0240, s.windowBytes), (0x0290, leBytes s.watch.ackResult 2)]

/-- The byte at a sideband address; what Table 19.13 does not list, and every address beyond 0x17FF, reads zero (R668). -/
def State.sbByte (s : State) (a : Nat) : Byte :=
  if 0x1800 ≤ a then 0
  else if 0x1000 ≤ a then byteAt (s.sensorBytes ((a - 0x1000) / 8)) (a % 8)
  else match s.sbRegs.find? fun r => r.1 ≤ a && a < r.1 + r.2.length with
    | some r => byteAt r.2 (a - r.1)
    | none => 0

/-- `n` bytes from address `a` cover `w` bytes from `b`. -/
def covers (a n b w : Nat) : Bool := a ≤ b && b + w ≤ a + n

/-- ALARM_WINDOW was read whole: SB_SENT is marked, unless the record changed after the latch (R671). -/
def WatchSt.windowRead (w : WatchSt) (updated : Bool) : WatchSt :=
  match Tab.find? w.alarms w.alarmSlot with
  | some r => if updated then w else { w with alarms := Tab.set w.alarms w.alarmSlot { r with sbSent := true } }
  | none => w

/-- A read transfer of `n` bytes: what it returns, each register in one value, and what whole reads of SUMMARY, EVENT_FIFO and
ALARM_WINDOW do (R668, R670, R671). The next one reads from the written address again (log 119). -/
def State.sbRead (s : State) (n : Nat) (updated : Bool) : List Byte × State :=
  if !s.sideband then ([], s)
  else
    let a := s.watch.sbAddr
    let w := s.watch
    let w := if covers a n 0x0080 64 then { w with sbSummary := {} } else w
    let w := if covers a n 0x0100 64 then { w with fifo := w.fifo.drop 1 } else w
    let w := if covers a n 0x0240 64 then w.windowRead updated else w
    ((upFrom a n).map s.sbByte, { s with watch := w })

/-- ALARM_SLOT written with `n` bytes from address `a`: bits [15:12] are ignored (Table 19.13). -/
def WatchSt.writeSlot (w : WatchSt) (a : Nat) (b : List Byte) : WatchSt :=
  let old := w.alarmSlot
  let get (x d : Nat) : Nat := if a ≤ x ∧ x < a + b.length then u8 b (x - a) else d
  if 0x0202 ≤ a ∨ a + b.length ≤ 0x0200 then w
  else { w with alarmSlot := (get 0x0200 (old % 256) + 256 * get 0x0201 (old / 256)) % 4096 }

/-- ALARM_ACK: its 12 bytes (R672). -/
def WatchSt.sbAck (w : WatchSt) (b : List Byte) : WatchSt :=
  let first := u16 b 8
  let count := u16 b 10
  if first ≤ 4095 ∧ 1 ≤ count ∧ first + count ≤ 4096 then
    { w.ack first count (u64 b 0) with ackResult := (w.alarms.filter (ackable first count (u64 b 0))).length }
  else { w with ackResult := 0 }

/-- WAKE: its 4 bytes (R673, Table 19.15). -/
def PowerSt.wake (p : PowerSt) (b : List Byte) : PowerSt :=
  if b ≠ [0x45, 0x4B, 0x41, 0x57] then p
  else
    match p.main with
    | .night => if p.nightCause = .cap then { p with cap := 1, nightCause := .restart } else p
    | .failed => { p with main := .night, nightCause := .restart }
    | _ => p

/-- Data bytes written at consecutive addresses from `a`: ALARM_SLOT, ALARM_ACK and WAKE take them, the rest are discarded (R669). -/
def State.sbData (s : State) (a : Nat) (b : List Byte) : State :=
  let part (x n : Nat) : List Byte := (b.drop (x - a)).take n
  let w := s.watch.writeSlot a b
  let w := if covers a b.length 0x0280 12 then w.sbAck (part 0x0280 12) else w
  { s with watch := w, power := if covers a b.length 0x02C0 4 then s.power.wake (part 0x02C0 4) else s.power }

/-- A write transfer: two address bytes, low first, alone set the read address; with data behind them they write (R668). -/
def State.sbWrite (s : State) (b : List Byte) : State :=
  if !s.sideband || b.length < 2 then s
  else if b.length = 2 then { s with watch := { s.watch with sbAddr := u16 b 0 } }
  else s.sbData (u16 b 0) (b.drop 2)

/-- A write transfer of two bytes and the read transfer that follows it. -/
def State.sbReadAt (s : State) (addr n : Nat) (updated : Bool) : List Byte × State := (s.sbWrite (leBytes addr 2)).sbRead n updated

/-- ALARM_SLOT. -/
def opAlarmSlot (v : Nat) (s : State) : State := s.sbWrite (leBytes 0x0200 2 ++ leBytes v 2)

/-- ALARM_WINDOW: a read transfer of `len` bytes from its first address. -/
def opAlarmWindow (len : Nat) (updated : Bool) (s : State) : State := (s.sbReadAt 0x0240 len updated).2

/-- SUMMARY: a read transfer of `len` bytes from its first address. -/
def opSummary (len : Nat) (s : State) : State := (s.sbReadAt 0x0080 len false).2

/-- EVENT_FIFO: a read transfer of `len` bytes from its first address. -/
def opEventFifo (len : Nat) (s : State) : State := (s.sbReadAt 0x0100 len false).2

/-- ALARM_ACK: a write transfer of data bytes from its first address. -/
def opSbAlarmAck (b : List Byte) (s : State) : State := s.sbWrite (leBytes 0x0280 2 ++ b)

/-- WAKE: a write transfer of data bytes from its first address. -/
def opWake (b : List Byte) (s : State) : State := s.sbWrite (leBytes 0x02C0 2 ++ b)

/-- ENTDAA: a target without a dynamic address takes one (16 R591). -/
def opEntdaa (addr : Nat) (s : State) : State :=
  if s.sideband && s.watch.dynAddr.isNone && addr < 128 then { s with watch := { s.watch with dynAddr := some addr } } else s

/-- SETDASA: the target at static address 0x4B takes the dynamic address (16 R591). -/
def opSetdasa (addr : Nat) (s : State) : State :=
  if s.sideband && s.watch.dynAddr.isNone && addr < 128 then { s with watch := { s.watch with dynAddr := some addr } } else s

/-! ### The meanings of this file -/

def execAlarmSlot (value : Nat) (s : State) : Out := .next (opAlarmSlot value s)
def execAlarmWindow (len : Nat) (updated : Bool) (s : State) : Out := .next (opAlarmWindow len updated s)
def execSummary (len : Nat) (s : State) : Out := .next (opSummary len s)
def execEventFifo (len : Nat) (s : State) : Out := .next (opEventFifo len s)
def execAlarmAck (bytes : List Byte) (s : State) : Out := .next (opSbAlarmAck bytes s)
def execWake (bytes : List Byte) (s : State) : Out := .next (opWake bytes s)
def execEntdaa (addr : Nat) (s : State) : Out := .next (opEntdaa addr s)
def execSetdasa (addr : Nat) (s : State) : Out := .next (opSetdasa addr s)

end Sys2Proof.Machine
end

