-- ==== Sys2Proof/Machine/Dispatch.lean ====
section
/-! DEFINITION. The dispatcher: one arm per command, each one direct call of that command's meaning. -/

namespace Sys2Proof.Machine

/-- The effect of one command on everything but the queue. -/
def exec (i : Instr) (s : State) : Host.Outcome State Fault Refusal :=
  match i with
  | .strokeBoundary refPeriod => Sys2Proof.Machine.execStrokeBoundary refPeriod s
  | .intakePhase readFail => Sys2Proof.Machine.execIntakePhase readFail s
  | .depHoldLimit f ring => Sys2Proof.Machine.execDepHoldLimit f ring s
  | .planPhase => Sys2Proof.Machine.execPlanPhase s
  | .slotWaitLimit order => Sys2Proof.Machine.execSlotWaitLimit order s
  | .runStart k fin => Sys2Proof.Machine.execRunStart k fin s
  | .guardInterval k cut idleNs => Sys2Proof.Machine.execGuardInterval k cut idleNs s
  | .quantumDone lender borrower fin usedNs => Sys2Proof.Machine.execQuantumDone lender borrower fin usedNs s
  | .settlePhase => Sys2Proof.Machine.execSettlePhase s
  | .reportPhase trimPs writeFail => Sys2Proof.Machine.execReportPhase trimPs writeFail s
  | .budgetPeriod => Sys2Proof.Machine.execBudgetPeriod s
  | .drainLimit => Sys2Proof.Machine.execDrainLimit s
  | .deferLimitExpiry order => Sys2Proof.Machine.execDeferLimitExpiry order s
  | .strokeJoin refStroke refPeriod => Sys2Proof.Machine.execStrokeJoin refStroke refPeriod s
  | .forgeWindowEnd k => Sys2Proof.Machine.execForgeWindowEnd k s
  | .forgeCommit k v fault => Sys2Proof.Machine.execForgeCommit k v fault s
  | .coldPageMove k stream layer page => Sys2Proof.Machine.execColdPageMove k stream layer page s
  | .variantSwitch k v => Sys2Proof.Machine.execVariantSwitch k v s
  | .hearthRowClearDone k => Sys2Proof.Machine.execHearthRowClearDone k s
  | .tenantChangeDone k => Sys2Proof.Machine.execTenantChangeDone k s
  | .hbmZeroingDone k => Sys2Proof.Machine.execHbmZeroingDone k s
  | .deviceHearthClearDone => Sys2Proof.Machine.execDeviceHearthClearDone s
  | .hostReadCompletion order r => Sys2Proof.Machine.execHostReadCompletion order r s
  | .completionTimeout order => Sys2Proof.Machine.execCompletionTimeout order s
  | .levelRise src reading offsetNs => Sys2Proof.Machine.execLevelRise src reading offsetNs s
  | .levelFall src reading heldUs => Sys2Proof.Machine.execLevelFall src reading heldUs s
  | .thermalTrip ch value => Sys2Proof.Machine.execThermalTrip ch value s
  | .nightExit p48HeldMs coolHeldMs p48Mv => Sys2Proof.Machine.execNightExit p48HeldMs coolHeldMs p48Mv s
  | .burstStart => Sys2Proof.Machine.execBurstStart s
  | .burstEnd => Sys2Proof.Machine.execBurstEnd s
  | .inputUndervoltage mv => Sys2Proof.Machine.execInputUndervoltage mv s
  | .standbyPowerOn => Sys2Proof.Machine.execStandbyPowerOn s
  | .standbyPowerLoss => Sys2Proof.Machine.execStandbyPowerLoss s
  | .resetAssert lowUs => Sys2Proof.Machine.execResetAssert lowUs s
  | .resetRelease lowMs => Sys2Proof.Machine.execResetRelease lowMs s
  | .dawnStart d => Sys2Proof.Machine.execDawnStart d s
  | .refclkLoss => Sys2Proof.Machine.execRefclkLoss s
  | .refclkRestore => Sys2Proof.Machine.execRefclkRestore s
  | .nightwatchTick samples => Sys2Proof.Machine.execNightwatchTick samples s
  | .sensorFault ch => Sys2Proof.Machine.execSensorFault ch s
  | .ruleAssert idx => Sys2Proof.Machine.execRuleAssert idx s
  | .ruleClear idx => Sys2Proof.Machine.execRuleClear idx s
  | .tamper ch => Sys2Proof.Machine.execTamper ch s
  | .entropyFault test => Sys2Proof.Machine.execEntropyFault test s
  | .drbgReseed => Sys2Proof.Machine.execDrbgReseed s
  | .leaseRenewal cp count stroke offsetNs => Sys2Proof.Machine.execLeaseRenewal cp count stroke offsetNs s
  | .leaseLapse => Sys2Proof.Machine.execLeaseLapse s
  | .doubleClaim cp count stroke => Sys2Proof.Machine.execDoubleClaim cp count stroke s
  | .leaseRegrant cpA cpB => Sys2Proof.Machine.execLeaseRegrant cpA cpB s
  | .fenceRoundFail => Sys2Proof.Machine.execFenceRoundFail s
  | .hostLinkTraining flit rate width => Sys2Proof.Machine.execHostLinkTraining flit rate width s
  | .hostLinkDown => Sys2Proof.Machine.execHostLinkDown s
  | .functionLevelReset f => Sys2Proof.Machine.execFunctionLevelReset f s
  | .d3hotToD0 f => Sys2Proof.Machine.execD3hotToD0 f s
  | .vfEnableClear => Sys2Proof.Machine.execVfEnableClear s
  | .ideInsecure stream cause => Sys2Proof.Machine.execIdeInsecure stream cause s
  | .doeAbort f => Sys2Proof.Machine.execDoeAbort f s
  | .getVersion f => Sys2Proof.Machine.execGetVersion f s
  | .getCapabilities f version => Sys2Proof.Machine.execGetCapabilities f version s
  | .negotiateAlgorithms f offered => Sys2Proof.Machine.execNegotiateAlgorithms f offered s
  | .getDigests f => Sys2Proof.Machine.execGetDigests f s
  | .getCertificate f slot offset len => Sys2Proof.Machine.execGetCertificate f slot offset len s
  | .challenge f slot message => Sys2Proof.Machine.execChallenge f slot message s
  | .getMeasurements f index sign message => Sys2Proof.Machine.execGetMeasurements f index sign message s
  | .keyExchange f reqId ecdh mlkem message => Sys2Proof.Machine.execKeyExchange f reqId ecdh mlkem message s
  | .finish f session transcript sig mac => Sys2Proof.Machine.execFinish f session transcript sig mac s
  | .pqFinish f session sig => Sys2Proof.Machine.execPqFinish f session sig s
  | .pqFinishTimeout f session => Sys2Proof.Machine.execPqFinishTimeout f session s
  | .getPqSignature f => Sys2Proof.Machine.execGetPqSignature f s
  | .getPqCert f offset len => Sys2Proof.Machine.execGetPqCert f offset len s
  | .endSession f session => Sys2Proof.Machine.execEndSession f session s
  | .heartbeat f session => Sys2Proof.Machine.execHeartbeat f session s
  | .heartbeatMiss f session => Sys2Proof.Machine.execHeartbeatMiss f session s
  | .keyUpdate f session op => Sys2Proof.Machine.execKeyUpdate f session op s
  | .unsupportedSpdmRequest f code => Sys2Proof.Machine.execUnsupportedSpdmRequest f code s
  | .ideKmKeyProg f session block stream first last keySet => Sys2Proof.Machine.execIdeKmKeyProg f session block stream first last keySet s
  | .kSetGo f session stream keySet => Sys2Proof.Machine.execKSetGo f session stream keySet s
  | .lockInterfaceRequest f session k bar0 => Sys2Proof.Machine.execLockInterfaceRequest f session k bar0 s
  | .startInterfaceRequest f session k nonce => Sys2Proof.Machine.execStartInterfaceRequest f session k nonce s
  | .stopInterface f session k => Sys2Proof.Machine.execStopInterface f session k s
  | .tdiBind f session nonce => Sys2Proof.Machine.execTdiBind f session nonce s
  | .linkProbeBurst port => Sys2Proof.Machine.execLinkProbeBurst port s
  | .lightDetect port lanes => Sys2Proof.Machine.execLightDetect port lanes s
  | .laneLock port lanes => Sys2Proof.Machine.execLaneLock port lanes s
  | .lockTimeout port => Sys2Proof.Machine.execLockTimeout port s
  | .identifyMessage port m => Sys2Proof.Machine.execIdentifyMessage port m s
  | .identifyTimeout port => Sys2Proof.Machine.execIdentifyTimeout port s
  | .alignTimeout port => Sys2Proof.Machine.execAlignTimeout port s
  | .linkTrainTimeout port => Sys2Proof.Machine.execLinkTrainTimeout port s
  | .flitSlot port => Sys2Proof.Machine.execFlitSlot port s
  | .flitReceive port flit corrected uncorrectable => Sys2Proof.Machine.execFlitReceive port flit corrected uncorrectable s
  | .retryLimit port => Sys2Proof.Machine.execRetryLimit port s
  | .drainPoint port => Sys2Proof.Machine.execDrainPoint port s
  | .messageReceive port note => Sys2Proof.Machine.execMessageReceive port note s
  | .rekey port ecdh mlkem messages start => Sys2Proof.Machine.execRekey port ecdh mlkem messages start s
  | .keyEnd port => Sys2Proof.Machine.execKeyEnd port s
  | .lossOfLight port => Sys2Proof.Machine.execLossOfLight port s
  | .timingSend port tx => Sys2Proof.Machine.execTimingSend port tx s
  | .timingRecord port r rx => Sys2Proof.Machine.execTimingRecord port r rx s
  | .referenceMissing => Sys2Proof.Machine.execReferenceMissing s
  | .membership port members ref => Sys2Proof.Machine.execMembership port members ref s
  | .mreq k q => Sys2Proof.Machine.execMreq k q s
  | .mcpl k tensorId tile => Sys2Proof.Machine.execMcpl k tensorId tile s
  | .peerTimeout order => Sys2Proof.Machine.execPeerTimeout order s
  | .peerRelease node comp epoch => Sys2Proof.Machine.execPeerRelease node comp epoch s
  | .collDescriptor k g gen rank seq d => Sys2Proof.Machine.execCollDescriptor k g gen rank seq d s
  | .collData k g gen rank seq tiles => Sys2Proof.Machine.execCollData k g gen rank seq tiles s
  | .collReady k g gen rank seq => Sys2Proof.Machine.execCollReady k g gen rank seq s
  | .collCommit k g gen seq x => Sys2Proof.Machine.execCollCommit k g gen seq x s
  | .collAbandon k g gen seq why => Sys2Proof.Machine.execCollAbandon k g gen seq why s
  | .collTimeout k g => Sys2Proof.Machine.execCollTimeout k g s
  | .collGroupTimeout k g => Sys2Proof.Machine.execCollGroupTimeout k g s
  | .trainContribution k v target gen x => Sys2Proof.Machine.execTrainContribution k v target gen x s
  | .stepClose k v target => Sys2Proof.Machine.execStepClose k v target s
  | .laggedMark k v target replica => Sys2Proof.Machine.execLaggedMark k v target replica s
  | .trainUpdateMessage k v target gen m => Sys2Proof.Machine.execTrainUpdateMessage k v target gen m s
  | .trainUpdateApply k v target => Sys2Proof.Machine.execTrainUpdateApply k v target s
  | .partsTransfer k v target gen p => Sys2Proof.Machine.execPartsTransfer k v target gen p s
  | .groupJoin k v target n => Sys2Proof.Machine.execGroupJoin k v target n s
  | .trainTimeout order => Sys2Proof.Machine.execTrainTimeout order s
  | .sqTail f tee ring tail stores => Sys2Proof.Machine.execSqTail f tee ring tail stores s
  | .rqHead f tee head => Sys2Proof.Machine.execRqHead f tee head s
  | .eqHead head => Sys2Proof.Machine.execEqHead head s
  | .ringCtrlWrite f tee r value => Sys2Proof.Machine.execRingCtrlWrite f tee r value s
  | .ringGeometryWrite f tee r size value => Sys2Proof.Machine.execRingGeometryWrite f tee r size value s
  | .intStatus f tee value => Sys2Proof.Machine.execIntStatus f tee value s
  | .intMask f tee value => Sys2Proof.Machine.execIntMask f tee value s
  | .registerWrite f tee offset width value => Sys2Proof.Machine.execRegisterWrite f tee offset width value s
  | .alarmSlot value => Sys2Proof.Machine.execAlarmSlot value s
  | .alarmWindow len updatedAfterLatch => Sys2Proof.Machine.execAlarmWindow len updatedAfterLatch s
  | .summary len => Sys2Proof.Machine.execSummary len s
  | .eventFifo len => Sys2Proof.Machine.execEventFifo len s
  | .alarmAck bytes => Sys2Proof.Machine.execAlarmAck bytes s
  | .wake bytes => Sys2Proof.Machine.execWake bytes s
  | .entdaa addr => Sys2Proof.Machine.execEntdaa addr s
  | .setdasa addr => Sys2Proof.Machine.execSetdasa addr s
  | .diagnosticCommand c => Sys2Proof.Machine.execDiagnosticCommand c s
  | .deviceQuery c => Sys2Proof.Machine.execDeviceQuery c s
  | .strokeQuery c => Sys2Proof.Machine.execStrokeQuery c s
  | .strokeConfig c => Sys2Proof.Machine.execStrokeConfig c s
  | .sliceSet c => Sys2Proof.Machine.execSliceSet c s
  | .sliceQuery c => Sys2Proof.Machine.execSliceQuery c s
  | .lendGroup c => Sys2Proof.Machine.execLendGroup c s
  | .lendConsent c => Sys2Proof.Machine.execLendConsent c s
  | .strokeWait c => Sys2Proof.Machine.execStrokeWait c s
  | .fenceSc c => Sys2Proof.Machine.execFenceSc c s
  | .wordStore c => Sys2Proof.Machine.execWordStore c s
  | .wordLoad c => Sys2Proof.Machine.execWordLoad c s
  | .compCreate c => Sys2Proof.Machine.execCompCreate c s
  | .compDestroy c => Sys2Proof.Machine.execCompDestroy c s
  | .compQuench c => Sys2Proof.Machine.execCompQuench c s
  | .tenantChange c => Sys2Proof.Machine.execTenantChange c s
  | .compQuery c => Sys2Proof.Machine.execCompQuery c s
  | .farClear c => Sys2Proof.Machine.execFarClear c s
  | .deviceQuench c => Sys2Proof.Machine.execDeviceQuench c s
  | .certRead c => Sys2Proof.Machine.execCertRead c s
  | .attestReport c => Sys2Proof.Machine.execAttestReport c s
  | .sessionQuery c => Sys2Proof.Machine.execSessionQuery c s
  | .tenantClaim c => Sys2Proof.Machine.execTenantClaim c s
  | .keyDeliver c => Sys2Proof.Machine.execKeyDeliver c s
  | .keyQuery c => Sys2Proof.Machine.execKeyQuery c s
  | .keyPolicy c => Sys2Proof.Machine.execKeyPolicy c s
  | .keyRotate c => Sys2Proof.Machine.execKeyRotate c s
  | .keyDestroy c => Sys2Proof.Machine.execKeyDestroy c s
  | .lifecycleAdvance c => Sys2Proof.Machine.execLifecycleAdvance c s
  | .memConfig c => Sys2Proof.Machine.execMemConfig c s
  | .tensorCreate c => Sys2Proof.Machine.execTensorCreate c s
  | .bufferCreate c => Sys2Proof.Machine.execBufferCreate c s
  | .memFree c => Sys2Proof.Machine.execMemFree c s
  | .memQuery c => Sys2Proof.Machine.execMemQuery c s
  | .tensorPlace c => Sys2Proof.Machine.execTensorPlace c s
  | .tensorImport c => Sys2Proof.Machine.execTensorImport c s
  | .tensorExport c => Sys2Proof.Machine.execTensorExport c s
  | .matmul c => Sys2Proof.Machine.execMatmul c s
  | .conv c => Sys2Proof.Machine.execConv c s
  | .scan c => Sys2Proof.Machine.execScan c s
  | .moeRoute c => Sys2Proof.Machine.execMoeRoute c s
  | .moeMatmul c => Sys2Proof.Machine.execMoeMatmul c s
  | .engineQuery c => Sys2Proof.Machine.execEngineQuery c s
  | .numericConfig c => Sys2Proof.Machine.execNumericConfig c s
  | .numericQuery c => Sys2Proof.Machine.execNumericQuery c s
  | .scaleHistSet c => Sys2Proof.Machine.execScaleHistSet c s
  | .scaleHistRead c => Sys2Proof.Machine.execScaleHistRead c s
  | .streamOpen c => Sys2Proof.Machine.execStreamOpen c s
  | .streamClose c => Sys2Proof.Machine.execStreamClose c s
  | .streamQuery c => Sys2Proof.Machine.execStreamQuery c s
  | .kvAppend c => Sys2Proof.Machine.execKvAppend c s
  | .kvTruncate c => Sys2Proof.Machine.execKvTruncate c s
  | .mixQuery c => Sys2Proof.Machine.execMixQuery c s
  | .attend c => Sys2Proof.Machine.execAttend c s
  | .attendMat c => Sys2Proof.Machine.execAttendMat c s
  | .linmix c => Sys2Proof.Machine.execLinmix c s
  | .baseLoad c => Sys2Proof.Machine.execBaseLoad c s
  | .baseUnload c => Sys2Proof.Machine.execBaseUnload c s
  | .baseQuery c => Sys2Proof.Machine.execBaseQuery c s
  | .baseAttach c => Sys2Proof.Machine.execBaseAttach c s
  | .baseDetach c => Sys2Proof.Machine.execBaseDetach c s
  | .servePolicy c => Sys2Proof.Machine.execServePolicy c s
  | .variantRegister c => Sys2Proof.Machine.execVariantRegister c s
  | .variantLoad c => Sys2Proof.Machine.execVariantLoad c s
  | .variantReside c => Sys2Proof.Machine.execVariantReside c s
  | .variantPark c => Sys2Proof.Machine.execVariantPark c s
  | .variantSwap c => Sys2Proof.Machine.execVariantSwap c s
  | .variantMode c => Sys2Proof.Machine.execVariantMode c s
  | .variantRebase c => Sys2Proof.Machine.execVariantRebase c s
  | .variantCutover c => Sys2Proof.Machine.execVariantCutover c s
  | .variantUnregister c => Sys2Proof.Machine.execVariantUnregister c s
  | .variantQuery c => Sys2Proof.Machine.execVariantQuery c s
  | .variantMatmul c => Sys2Proof.Machine.execVariantMatmul c s
  | .trainOpen c => Sys2Proof.Machine.execTrainOpen c s
  | .trainClose c => Sys2Proof.Machine.execTrainClose c s
  | .trainConfig c => Sys2Proof.Machine.execTrainConfig c s
  | .trainQuery c => Sys2Proof.Machine.execTrainQuery c s
  | .feedbackSubmit c => Sys2Proof.Machine.execFeedbackSubmit c s
  | .feedbackTake c => Sys2Proof.Machine.execFeedbackTake c s
  | .trainStep c => Sys2Proof.Machine.execTrainStep c s
  | .trainCheckpoint c => Sys2Proof.Machine.execTrainCheckpoint c s
  | .trainPublish c => Sys2Proof.Machine.execTrainPublish c s
  | .trainExport c => Sys2Proof.Machine.execTrainExport c s
  | .trainImport c => Sys2Proof.Machine.execTrainImport c s
  | .linkConfig c => Sys2Proof.Machine.execLinkConfig c s
  | .linkEnable c => Sys2Proof.Machine.execLinkEnable c s
  | .linkQuery c => Sys2Proof.Machine.execLinkQuery c s
  | .cellSet c => Sys2Proof.Machine.execCellSet c s
  | .routeSet c => Sys2Proof.Machine.execRouteSet c s
  | .spanSet c => Sys2Proof.Machine.execSpanSet c s
  | .collGroup c => Sys2Proof.Machine.execCollGroup c s
  | .collRun c => Sys2Proof.Machine.execCollRun c s
  | .collQuery c => Sys2Proof.Machine.execCollQuery c s
  | .randGen c => Sys2Proof.Machine.execRandGen c s
  | .randQuery c => Sys2Proof.Machine.execRandQuery c s
  | .powerSet c => Sys2Proof.Machine.execPowerSet c s
  | .powerQuery c => Sys2Proof.Machine.execPowerQuery c s
  | .powerPin c => Sys2Proof.Machine.execPowerPin c s
  | .telemRead c => Sys2Proof.Machine.execTelemRead c s
  | .logConfig c => Sys2Proof.Machine.execLogConfig c s
  | .traceConfig c => Sys2Proof.Machine.execTraceConfig c s
  | .alarmRead c => Sys2Proof.Machine.execAlarmRead c s
  | .alarmAckCommand c => Sys2Proof.Machine.execAlarmAckCommand c s
  | .logQuery c => Sys2Proof.Machine.execLogQuery c s
  | .fwStage c => Sys2Proof.Machine.execFwStage c s
  | .fwActivate c => Sys2Proof.Machine.execFwActivate c s
  | .fwCommit c => Sys2Proof.Machine.execFwCommit c s
  | .fwQuery c => Sys2Proof.Machine.execFwQuery c s
  | .unassignedUnits fin => Sys2Proof.Machine.execUnassignedUnits fin s
  | .d0ToD3hot f => Sys2Proof.Machine.execD0ToD3hot f s
  | .vfEnableSet numVfs => Sys2Proof.Machine.execVfEnableSet numVfs s
  | .doeError f len => Sys2Proof.Machine.execDoeError f len s

end Sys2Proof.Machine
end

