-- ==== Sys2Proof/Safety.lean ====
section
/-! DEFINITION. What claims are stated in: which command carries which opcode, when a packet command is carried out, what an
answer is, and the invariants of host memory and of the registers that the host writes. -/

namespace Sys2Proof.Machine

/-! ### Packet commands -/

/-- The opcode and the command of a packet command; an event carries none (00 Table 0.3). -/
def packetOf (i : Instr) : Option (Nat × Cmd) :=
  match i with
  | .deviceQuery c => some (0x0001, c)
  | .strokeQuery c => some (0x0002, c)
  | .strokeConfig c => some (0x0003, c)
  | .sliceSet c => some (0x0004, c)
  | .sliceQuery c => some (0x0005, c)
  | .lendGroup c => some (0x0006, c)
  | .lendConsent c => some (0x0007, c)
  | .strokeWait c => some (0x0008, c)
  | .fenceSc c => some (0x0009, c)
  | .wordStore c => some (0x000A, c)
  | .wordLoad c => some (0x000B, c)
  | .compCreate c => some (0x0101, c)
  | .compDestroy c => some (0x0102, c)
  | .compQuench c => some (0x0103, c)
  | .tenantChange c => some (0x0104, c)
  | .compQuery c => some (0x0105, c)
  | .farClear c => some (0x0106, c)
  | .deviceQuench c => some (0x0107, c)
  | .certRead c => some (0x0201, c)
  | .attestReport c => some (0x0202, c)
  | .sessionQuery c => some (0x0203, c)
  | .tenantClaim c => some (0x0204, c)
  | .keyDeliver c => some (0x0210, c)
  | .keyQuery c => some (0x0211, c)
  | .keyPolicy c => some (0x0212, c)
  | .keyRotate c => some (0x0213, c)
  | .keyDestroy c => some (0x0214, c)
  | .memConfig c => some (0x0301, c)
  | .tensorCreate c => some (0x0302, c)
  | .bufferCreate c => some (0x0303, c)
  | .memFree c => some (0x0304, c)
  | .memQuery c => some (0x0305, c)
  | .tensorPlace c => some (0x0306, c)
  | .tensorImport c => some (0x0307, c)
  | .tensorExport c => some (0x0308, c)
  | .matmul c => some (0x0401, c)
  | .conv c => some (0x0402, c)
  | .scan c => some (0x0403, c)
  | .moeRoute c => some (0x0404, c)
  | .moeMatmul c => some (0x0405, c)
  | .engineQuery c => some (0x0406, c)
  | .numericConfig c => some (0x0440, c)
  | .numericQuery c => some (0x0441, c)
  | .scaleHistSet c => some (0x0442, c)
  | .scaleHistRead c => some (0x0443, c)
  | .streamOpen c => some (0x0501, c)
  | .streamClose c => some (0x0502, c)
  | .streamQuery c => some (0x0503, c)
  | .kvAppend c => some (0x0504, c)
  | .kvTruncate c => some (0x0505, c)
  | .mixQuery c => some (0x0506, c)
  | .attend c => some (0x0510, c)
  | .attendMat c => some (0x0511, c)
  | .linmix c => some (0x0512, c)
  | .baseLoad c => some (0x0601, c)
  | .baseUnload c => some (0x0602, c)
  | .baseQuery c => some (0x0603, c)
  | .baseAttach c => some (0x0604, c)
  | .baseDetach c => some (0x0605, c)
  | .servePolicy c => some (0x0606, c)
  | .variantRegister c => some (0x0610, c)
  | .variantLoad c => some (0x0611, c)
  | .variantReside c => some (0x0612, c)
  | .variantPark c => some (0x0613, c)
  | .variantSwap c => some (0x0614, c)
  | .variantMode c => some (0x0615, c)
  | .variantRebase c => some (0x0616, c)
  | .variantCutover c => some (0x0617, c)
  | .variantUnregister c => some (0x0618, c)
  | .variantQuery c => some (0x0619, c)
  | .variantMatmul c => some (0x0620, c)
  | .trainOpen c => some (0x0701, c)
  | .trainClose c => some (0x0702, c)
  | .trainConfig c => some (0x0703, c)
  | .trainQuery c => some (0x0704, c)
  | .feedbackSubmit c => some (0x0710, c)
  | .feedbackTake c => some (0x0711, c)
  | .trainStep c => some (0x0720, c)
  | .trainCheckpoint c => some (0x0721, c)
  | .trainPublish c => some (0x0722, c)
  | .trainExport c => some (0x0723, c)
  | .trainImport c => some (0x0724, c)
  | .linkConfig c => some (0x0801, c)
  | .linkEnable c => some (0x0802, c)
  | .linkQuery c => some (0x0803, c)
  | .cellSet c => some (0x0804, c)
  | .routeSet c => some (0x0805, c)
  | .spanSet c => some (0x0806, c)
  | .collGroup c => some (0x0810, c)
  | .collRun c => some (0x0811, c)
  | .collQuery c => some (0x0812, c)
  | .randGen c => some (0x0901, c)
  | .randQuery c => some (0x0902, c)
  | .powerSet c => some (0x0A01, c)
  | .powerQuery c => some (0x0A02, c)
  | .powerPin c => some (0x0A03, c)
  | .telemRead c => some (0x0A10, c)
  | .logConfig c => some (0x0A11, c)
  | .traceConfig c => some (0x0A12, c)
  | .alarmRead c => some (0x0A13, c)
  | .alarmAckCommand c => some (0x0A14, c)
  | .logQuery c => some (0x0A15, c)
  | .fwStage c => some (0x0B01, c)
  | .fwActivate c => some (0x0B02, c)
  | .fwCommit c => some (0x0B03, c)
  | .fwQuery c => some (0x0B04, c)
  | .lifecycleAdvance c => some (0x0B20, c)
  | .strokeBoundary _ => none
  | .intakePhase _ => none
  | .depHoldLimit _ _ => none
  | .planPhase => none
  | .slotWaitLimit _ => none
  | .runStart _ _ => none
  | .guardInterval _ _ _ => none
  | .quantumDone _ _ _ _ => none
  | .settlePhase => none
  | .reportPhase _ _ => none
  | .budgetPeriod => none
  | .drainLimit => none
  | .deferLimitExpiry _ => none
  | .strokeJoin _ _ => none
  | .forgeWindowEnd _ => none
  | .forgeCommit _ _ _ => none
  | .coldPageMove _ _ _ _ => none
  | .variantSwitch _ _ => none
  | .hearthRowClearDone _ => none
  | .tenantChangeDone _ => none
  | .hbmZeroingDone _ => none
  | .deviceHearthClearDone => none
  | .hostReadCompletion _ _ => none
  | .completionTimeout _ => none
  | .levelRise _ _ _ => none
  | .levelFall _ _ _ => none
  | .thermalTrip _ _ => none
  | .nightExit _ _ _ => none
  | .burstStart => none
  | .burstEnd => none
  | .inputUndervoltage _ => none
  | .standbyPowerOn => none
  | .standbyPowerLoss => none
  | .resetAssert _ => none
  | .resetRelease _ => none
  | .dawnStart _ => none
  | .refclkLoss => none
  | .refclkRestore => none
  | .nightwatchTick _ => none
  | .sensorFault _ => none
  | .ruleAssert _ => none
  | .ruleClear _ => none
  | .tamper _ => none
  | .entropyFault _ => none
  | .drbgReseed => none
  | .leaseRenewal _ _ _ _ => none
  | .leaseLapse => none
  | .doubleClaim _ _ _ => none
  | .leaseRegrant _ _ => none
  | .fenceRoundFail => none
  | .hostLinkTraining _ _ _ => none
  | .hostLinkDown => none
  | .functionLevelReset _ => none
  | .d3hotToD0 _ => none
  | .vfEnableClear => none
  | .ideInsecure _ _ => none
  | .doeAbort _ => none
  | .getVersion _ => none
  | .getCapabilities _ _ => none
  | .negotiateAlgorithms _ _ => none
  | .getDigests _ => none
  | .getCertificate _ _ _ _ => none
  | .challenge _ _ _ => none
  | .getMeasurements _ _ _ _ => none
  | .keyExchange _ _ _ _ _ => none
  | .finish _ _ _ _ _ => none
  | .pqFinish _ _ _ => none
  | .pqFinishTimeout _ _ => none
  | .getPqSignature _ => none
  | .getPqCert _ _ _ => none
  | .endSession _ _ => none
  | .heartbeat _ _ => none
  | .heartbeatMiss _ _ => none
  | .keyUpdate _ _ _ => none
  | .unsupportedSpdmRequest _ _ => none
  | .ideKmKeyProg _ _ _ _ _ _ _ => none
  | .kSetGo _ _ _ _ => none
  | .lockInterfaceRequest _ _ _ _ => none
  | .startInterfaceRequest _ _ _ _ => none
  | .stopInterface _ _ _ => none
  | .tdiBind _ _ _ => none
  | .linkProbeBurst _ => none
  | .lightDetect _ _ => none
  | .laneLock _ _ => none
  | .lockTimeout _ => none
  | .identifyMessage _ _ => none
  | .identifyTimeout _ => none
  | .alignTimeout _ => none
  | .linkTrainTimeout _ => none
  | .flitSlot _ => none
  | .flitReceive _ _ _ _ => none
  | .retryLimit _ => none
  | .drainPoint _ => none
  | .messageReceive _ _ => none
  | .rekey _ _ _ _ _ => none
  | .keyEnd _ => none
  | .lossOfLight _ => none
  | .timingSend _ _ => none
  | .timingRecord _ _ _ => none
  | .referenceMissing => none
  | .membership _ _ _ => none
  | .mreq _ _ => none
  | .mcpl _ _ _ => none
  | .peerTimeout _ => none
  | .peerRelease _ _ _ => none
  | .collDescriptor _ _ _ _ _ _ => none
  | .collData _ _ _ _ _ _ => none
  | .collReady _ _ _ _ _ => none
  | .collCommit _ _ _ _ _ => none
  | .collAbandon _ _ _ _ _ => none
  | .collTimeout _ _ => none
  | .collGroupTimeout _ _ => none
  | .trainContribution _ _ _ _ _ => none
  | .stepClose _ _ _ => none
  | .laggedMark _ _ _ _ => none
  | .trainUpdateMessage _ _ _ _ _ => none
  | .trainUpdateApply _ _ _ => none
  | .partsTransfer _ _ _ _ _ => none
  | .groupJoin _ _ _ _ => none
  | .trainTimeout _ => none
  | .sqTail _ _ _ _ _ => none
  | .rqHead _ _ _ => none
  | .eqHead _ => none
  | .ringCtrlWrite _ _ _ _ => none
  | .ringGeometryWrite _ _ _ _ _ => none
  | .intStatus _ _ _ => none
  | .intMask _ _ _ => none
  | .registerWrite _ _ _ _ _ => none
  | .alarmSlot _ => none
  | .alarmWindow _ _ => none
  | .summary _ => none
  | .eventFifo _ => none
  | .alarmAck _ => none
  | .wake _ => none
  | .entdaa _ => none
  | .setdasa _ => none
  | .diagnosticCommand _ => none
  | .unassignedUnits _ => none
  | .d0ToD3hot _ => none
  | .vfEnableSet _ => none
  | .doeError _ _ => none

/-- A command processor serves, nothing stops the command before its own checks (01 R24; 00 R9; 02 R70), and no work is in the
middle of a step (log 100). -/
abbrev State.admits (s : State) (op : Nat) (c : Cmd) : Prop := s.serving = true ∧ gate op c.fn s = none ∧ s.act = {}

/-- The reply entry of a command that was admitted (03 R104). -/
def replyOf (c : Cmd) (op : Nat) (st : Status) (detail : Nat) : Reply :=
  { cmd := c, op, status := st.code, detail, admitted := true, lost := false }

/-- The command is answered: one reply more waits for the report phase, and the command has left the queue (02 R46; 03 R104). -/
def Answered (s t : State) (c : Cmd) (op : Nat) (st : Status) (detail : Nat) : Prop :=
  t.replies = s.replies ++ [replyOf c op st detail] ∧ t.queue = s.queue.filter fun a => decide (a.cmd ≠ c)

/-- The parts of the state that every packet command leaves as they were (02 R37). -/
structure Kept (s t : State) : Prop where
  pending : t.pending = s.pending
  host : t.host = s.host
  transport : t.transport = s.transport
  number : t.stroke.number = s.stroke.number
  phase : t.stroke.phase = s.stroke.phase
  period : t.stroke.period = s.stroke.period
  burst : t.stroke.burst = s.stroke.burst
  state : t.power.state = s.power.state
  main : t.power.main = s.power.main
  cap : t.power.cap = s.power.cap
  lifecycle : t.dawn.lifecycle = s.dawn.lifecycle
  holder : t.dawn.holder = s.dawn.holder
  fence : t.dawn.fence = s.dawn.fence

/-! ### Work of a compartment -/

/-- What tile `n` of the tensor at an address holds, if it is written (06 R239). -/
def State.contents (s : State) (k addr n : Nat) : Option TileData := (Tab.find? (s.comp k).tensors addr).bind fun t => s.tileData t n

/-- What the work of a tenant's command leaves as it was: every other compartment and function, every tile until settle, the
base slots, host memory, the replies and the queue; what it adds to the results and records is its own (02 R65, R69; 12 R452). -/
structure OwnWork (c : Cmd) (k : Nat) (s t : State) : Prop where
  others : ∀ j, j ≠ k → t.comp j = s.comp j
  fns : ∀ f, f ≠ .vf k → t.fnOf f = s.fnOf f
  contents : ∀ j addr n, t.contents j addr n = s.contents j addr n
  commits : ∃ l, t.commits = s.commits ++ l ∧ ∀ w ∈ l, w.fn = c.fn ∧ w.order = c.order
  records : ∃ l, t.records = s.records ++ l ∧ ∀ w ∈ l, w.fn = c.fn
  bases : t.bases = s.bases
  replies : t.replies = s.replies
  queue : t.queue = s.queue
  hostMem : t.hostMem = s.hostMem
  words : t.wordStores = s.wordStores

/-- However the work of an admitted tenant's command ends, exec answers the next state of that work and its reply, and the work
is the compartment's own. -/
def Ends (i : Instr) (op : Nat) (c : Cmd) (k : Nat) (s : State) (body : Chk Fin) : Prop :=
  s.admits op c → ∀ s' st d, body = .ok (.done s' st d) →
    exec i s = .next ((s.framed op s').reply c op st d) ∧ OwnWork c k s s'

/-! ### Events -/

/-- No rule in force names an event (16 R571). -/
abbrev State.noEventRule (s : State) : Prop := ∀ r ∈ s.watch.table.rules, r.source ≠ 3

/-- Every event raised has been offered to the rules. -/
def State.quiet (s : State) : State := { s with watch := { s.watch with raised := [] } }

/-- No event waits for the rules, and no rule names one: a step that raises events takes no action of a rule (16 R571). -/
abbrev State.calm (s : State) : Prop := s.watch.raised = [] ∧ s.noEventRule

/-- A mailbox request answers: the response is there to be read, and no other function and no compartment has changed. -/
def Responds (i : Instr) (f : Fn) (r : DoeResp) (s : State) : Prop :=
  ∃ t, exec i s = .next t ∧ (t.fnOf f).doe = some r ∧ (∀ g, g ≠ f → t.fnOf g = s.fnOf g) ∧ t.comps = s.comps

/-! ### Host memory -/

/-- The host memory of every function is in canonical form: rising addresses, no byte listed that reads as the unlisted one. -/
def State.hostOk (s : State) : Bool := s.hostMem.all fun p => Mem.wf p.2

/-! ### Registers that the host writes (19 Table 19.1, Table 19.3, Table 19.4) -/

/-- A submission ring's registers keep their widths. -/
abbrev SqRing.widths (r : SqRing) : Prop := r.base < 2 ^ 64 ∧ r.sizeLog < 32 ∧ r.tail < 2 ^ 32

/-- A reply or event ring's registers keep their widths. -/
abbrev OutRing.widths (r : OutRing) : Prop := r.base < 2 ^ 64 ∧ r.sizeLog < 32 ∧ r.head < 2 ^ 32

/-- A function's registers keep their widths: the rings, and the four bits of INT_STATUS and INT_MASK. -/
abbrev FnState.widths (x : FnState) : Prop :=
  (∀ p ∈ x.sq, p.2.widths) ∧ x.rq.widths ∧ x.intStatus < 16 ∧ x.intMask < 16

/-- Every register that the host writes keeps its width, and host memory its form. -/
abbrev State.regsOk (s : State) : Prop := (∀ p ∈ s.fns, p.2.widths) ∧ s.watch.eq.widths ∧ s.hostOk = true

/-- The events of the host path: doorbells, control, geometry and interrupt registers, and generic writes (19 R654-R666). -/
def isHostWrite (i : Instr) : Bool :=
  match i with
  | .sqTail .. | .rqHead .. | .eqHead .. | .ringCtrlWrite .. | .ringGeometryWrite .. | .intStatus .. | .intMask .. | .registerWrite .. => true
  | _ => false

/-! ### Sample operands

Small states and commands, in which the work of the tenant commands with the longest conditions runs to its end. -/

/-- Bytes of (width, value) pairs, little-endian. -/
def Sample.bytes (l : List (Nat × Nat)) : List Byte := l.flatMap fun p => leBytes p.2 p.1

/-- A command of virtual function 0 with a block. -/
def Sample.cmd (stream : Nat) (l : List (Nat × Nat)) : Cmd :=
  { fn := .vf 0, ring := 0, seq := 0, tag := 65536, cookie := 7, flags := 0, stream, order := 5, stroke := 10, block := Sample.bytes l }

/-- An FP32 tensor in Hearth with one element given, the others unwritten. -/
def Sample.tensor (id cols : Nat) (code : Option Nat) : Tensor :=
  { id, fmt := 0, axis := 0, home := 0, cache := 0, rows := 1, cols, tiles := code.elim [] fun v => [(0, { data := some { elems := [v] } })] }

/-- A BF16 tensor of a variant's image. -/
def Sample.adapter (id : Nat) : Tensor := { Sample.tensor id 1 none with fmt := 2, axis := 1, home := 1, domain := some 0, keyRef := 0x4000, owner := 6 }

/-- A buffer whose first bytes are given. -/
def Sample.buffer (id : Nat) (l : List (Nat × Nat)) : Buffer :=
  { id, len := 4096, home := 0, mem := Mem.writeBytes [] 0 (Sample.bytes l), lines := (upFrom 0 64).map fun i => (i, ()) }

/-- SEQ_LENS of one sequence of one row (08 Table 8.6). -/
def Sample.lens (stream : Nat) : List (Nat × Nat) := [(4, stream), (4, 0), (4, 1), (4, 0), (8, 0), (8, 0)]

/-- A stream of one layer that holds one position in its staging page. -/
def Sample.stream : StreamCtx :=
  { handle := 65536, kvHeads := 1, fmt := 0x13, headDim := 32, ringPages := 0, stageHome := 0, coldHome := 1, hotPages := 1, variant := 0
    layers := [{ len := 1, stage := 0x5000 }] }

/-- A variant with one layer. -/
def Sample.variant (resident : Bool) : Variant :=
  { handle := 65536, keyHandle := 0x4000, baseSlot := 0, resident
    active := some { slot := 0, version := some 1, layers := [{ layer := 0, rank := 1, alpha := 0x3F800000, a := (0, 0xA000), b := (1, 0xB000), s := none }] } }

/-- A base tensor of one element. -/
def Sample.base : BaseTensor :=
  { fmt := 0x3A, axis := 0, split := 0, rows := 1, cols := 1, localRows := 1, localCols := 1, row0 := 0, col0 := 0, tiles := [{ elems := [0] }] }

/-- A compartment with tensors, buffers, a stream, a key and a variant, attached to the base slot or not. -/
def Sample.comp (attached resident : Bool) : Comp :=
  { st := .active, hearthUnits := 320, hbmGib := 1, tagQuota := 64, tagBase := 256, streamQuota := 8, domainQuota := 8, residentQuota := 2, keyQuota := 8
    slice := { first := 0, count := 16 }
    compKey := some { kind := 0, keyId := 0, sealerBase := 0x10, rotate := true, gens := [{ gen := 0, key := leBytes 3 32 }] }, hearthKey := some (leBytes 4 32)
    keys := [(0, { kind := 2, keyId := 2, sealerBase := 0x20, gens := [{ gen := 0, key := leBytes 5 32 }] })]
    hostWin := some (2 ^ 32, 2 ^ 40), tabNext := 0x100000, bufNext := 0x10000800000, idNext := 32
    streamIdx := { gens := [(0, 1)], fresh := 1, used := [0] }, streams := [(65536, Sample.stream)]
    domIdx := { gens := [(0, 1)], fresh := 1, used := [0] }, variants := [(0, Sample.variant resident)]
    attached := if attached then [(0, [0xD000])] else []
    tensors :=
      [(0x1000, Sample.tensor 1 1 (some 0x40000000)), (0x2000, Sample.tensor 2 1 (some 0x40400000)), (0x3000, Sample.tensor 3 1 none),
       (0x4000, Sample.tensor 4 2 none), (0x5000, Sample.stream.staging (none, 0) 5), (0x6000, Sample.tensor 6 32 none), (0x7000, Sample.tensor 7 32 none), (0x8000, Sample.tensor 8 1 none),
       (0x9000, { Sample.tensor 9 1 none with fmt := 2 }), (0xA000, Sample.adapter 10), (0xB000, Sample.adapter 11)] ++
      if attached then [(0xD000, Sample.base.alias_ 0 0 1)] else []
    buffers :=
      [(0x10000000000, Sample.buffer 20 (Sample.lens 65536)), (0x10000200000, { Sample.buffer 21 [(4, 1), (16, 0), (4, 1), (8, 0), (36, 0), (4, 0x3F800000)] with routes := [(0, routeLen 2 1 1, 2, 1, 1)] }),
       (0x10000400000, Sample.buffer 22 [(8, 0x2000), (8, 0x2000)]), (0x10000600000, Sample.buffer 23 (Sample.lens 0))] }

/-- The device at stroke 10 with that compartment and a READY base slot. -/
def Sample.state (attached resident : Bool) : State :=
  { State.reset with
    stroke := { State.reset.stroke with number := 10 }
    comps := [(0, Sample.comp attached resident)]
    bases := [(0, { st := .ready, cellSize := 1, imageId := 1, count := 1, tensors := [Sample.base], shardBytes := 64, tilesTotal := 1, tilesLoaded := 1 })] }

/-- The shared fields of the matrix commands for 1 × 1 operands (05 Table 5.8). -/
def Sample.mm (x w y : Nat) : List (Nat × Nat) :=
  [(8, x), (8, w), (8, y), (8, 0), (8, 0), (4, 1), (4, 1), (4, 1), (2, 1), (10, 0), (4, 0x3F800000), (76, 0)]

def Sample.matmul : Cmd := Sample.cmd 0 (Sample.mm 0x1000 0x2000 0x3000)
def Sample.conv : Cmd := Sample.cmd 0 (Sample.mm 0x1000 0x2000 0x3000 ++ [(2, 1), (2, 1), (1, 1), (1, 1), (1, 1), (1, 1), (1, 1), (1, 1), (6, 0)])
def Sample.scan : Cmd := Sample.cmd 0 [(8, 0x1000), (8, 0x2000), (8, 0), (8, 0x3000), (8, 0), (4, 1), (4, 1), (8, 0)]
def Sample.route : Cmd := Sample.cmd 0 [(8, 0x4000), (8, 0x10000200000), (4, 1), (2, 2), (1, 1), (1, 0), (4, 1), (4, 0)]
def Sample.moe : Cmd := Sample.cmd 0 (Sample.mm 0x1000 0x10000400000 0x3000 ++ [(8, 0x10000200000), (2, 2), (1, 1), (5, 0)])
def Sample.attend : Cmd :=
  Sample.cmd 0 [(8, 0x6000), (16, 0), (8, 0x7000), (8, 0x10000000000), (16, 0), (4, 1), (2, 1), (2, 0), (1, 1), (1, 0), (2, 32), (4, 0x3F800000), (56, 0)]
def Sample.linmix : Cmd :=
  Sample.cmd 0 [(8, 0x9000), (8, 0x9000), (8, 0x9000), (8, 0x8000), (8, 0x3000), (8, 0x10000600000), (4, 1), (2, 1), (1, 1), (1, 0), (2, 1), (2, 1), (4, 0)]
def Sample.rand : Cmd := Sample.cmd 0 [(8, 1), (8, 2), (8, 0x10000000000), (8, 0), (8, 1), (32, 0)]
def Sample.vmatmul : Cmd := Sample.cmd 0 (Sample.mm 0x9000 0xD000 0x3000 ++ [(16, 0)])
def Sample.streamOpen : Cmd := Sample.cmd 0 [(2, 1), (1, 1), (1, 0x13), (2, 32), (1, 1), (1, 1), (2, 0), (2, 1), (4, 0), (8, 64), (8, 0)]
def Sample.kvAppend : Cmd := Sample.cmd 65536 [(8, 0x6000), (8, 0x6000), (8, 1), (4, 0), (4, 1), (8, 0)]
def Sample.tensorImport : Cmd := Sample.cmd 0 [(8, 0x1000), (8, 64), (4, 0), (4, 1), (8, 0)]
def Sample.attach : Cmd := Sample.cmd 0 [(4, 0), (4, 1), (8, 64), (8, 128)]
def Sample.named : Cmd := Sample.cmd 0 [(4, 65536), (4, 0)]
def Sample.trainStep : Cmd := Sample.cmd 0 [(4, 65536), (4, 0), (8, 1), (4, 0x3F800000), (4, 0)]

/-- The results a state holds for its settle: the tables whose tiles are written, with the first element of the first tile. -/
def State.writing (s : State) : List (Nat × Nat) :=
  s.commits.filterMap fun c => match c.what with
    | .tileWrite _ addr ((_, x) :: _) => some (addr, ((x.data.map (·.elems)).getD []).headD 0)
    | _ => none

/-- The state of training that a state's results open. -/
def State.openedTrain (s : State) : Option Train := s.commits.findSome? fun c => match c.what with
  | .train _ _ _ t => t
  | _ => none

/-- A trainable tensor of one element. -/
def Sample.trainable : Trainable :=
  { no := 0, rows := 1, cols := 1, axis := 1, work := 0xA000, grad := 0x8000, err := { Sample.adapter 40 with home := 0 }, master := { Sample.adapter 41 with fmt := 0 }
    m1 := { Sample.adapter 42 with fmt := 0x4B }, m2 := { Sample.adapter 43 with fmt := 0x5B } }

/-- Training of one replica whose first update is not yet due. -/
def Sample.train : Train :=
  { target := 0, nearHome := 0, stateHome := 1, ckptHome := 1, peer := 0, replicas := 1, index := 0, copies := 1, shardRowTiles := 1, groupId := 0
    collGroup := 0, delay := 1, closeStrokes := 1, srWork := false, srMoments := false, digestInterval := 0, ckptInterval := 0, seed := 0, streamBase := 0
    tensors := [Sample.trainable], slot := 0, layers := []
    root := some { err := [[{ elems := [0] }]], joined := [0], digest := [] } }

/-- The sample state with that training open. -/
def Sample.training : State :=
  { Sample.state true true with
    comps := [(0, { Sample.comp true true with variants := [(0, { Sample.variant true with train0 := some Sample.train })] })] }

/-- The command runs to its end with success, and its results write these. -/
def Sample.Runs (i : Instr) (op : Nat) (c : Cmd) (s : State) (w : List (Nat × Nat)) : Prop :=
  ∃ t, exec i s = .next t ∧ Answered s t c op .ok 0 ∧ t.writing = w

end Sys2Proof.Machine
end

