-- ==== Sys2Proof/Certificates/Slice0/Obligations.lean ====
section
/-! DEFINITION. The statements about the block, for the provers: what each command and event does, what it leaves as it was,
and what every step keeps. -/

open Sys2Proof Sys2Proof.Machine

/-- For every command c, every list of commands that wait behind it and every state, step of the state with c at the front of
its queue is exec of c on the state with the rest of the queue. The queue of commands is the model's way of ordering what
reaches the block, and with an empty queue a step answers the state unchanged: the model's choices (log 1, DESIGN CHOICE).
(02_strokes.md R46; 03_command_packets.md R81) -/
def Obligations.StepRunsFrontCommand : Prop :=
  (∀ (c : Instr) (rest : List Instr) (s : State), step { s with pending := c :: rest } = exec c { s with pending := rest }) ∧
    ∀ s : State, s.pending = [] → step s = .next s

/-- State.reset is the device at the end of Dawn (log 3): stroke number 0 (R36), period 25 and policy FIXED (R38, R41), no
change pending, standalone with offset 0, every compartment absent, every submission ring DISABLED, the main domain in service
with a lease holder, no command waiting, no reply due, no work in the middle of a step, no host memory listed, no alarm recorded,
the registers of the host in their widths and no rule in force that names an event (log 11). (02_strokes.md R36, R38, R41, R60; 12_compartments_and_quench.md
R447; 15_power_states.md Table 15.1; 17_dawn_reset_faults.md R609) -/
def Obligations.ResetIsTheEndOfDawn : Prop :=
  State.reset.stroke.number = 0 ∧ State.reset.stroke.period = 25 ∧ State.reset.stroke.burst = false ∧
    State.reset.stroke.pending = none ∧ State.reset.stroke.align = .standalone ∧ State.reset.stroke.alignOffset = 0 ∧
    State.reset.serving = true ∧ (∀ k, (State.reset.comp k).st = .absent) ∧
    (∀ f r, ((State.reset.fnOf f).ring r).st = .disabled) ∧ State.reset.pending = [] ∧ State.reset.queue = [] ∧
    State.reset.replies = [] ∧ State.reset.act = {} ∧ State.reset.hostMem = [] ∧ State.reset.watch.alarms = [] ∧ State.reset.regsOk ∧ State.reset.calm

/-- For every 16-bit status code, in every class, the code reports success exactly when its low byte is at most 0x0F and failure
exactly when it lies in 0x10-0xFF; of the statuses that commands complete with, only OK and OK_NOTE report success. (R11) -/
def Obligations.StatusLowByteTellsSuccess : Prop :=
  (∀ code < 65536, (succeeded code = true ↔ code % 256 ≤ 0x0F) ∧ (succeeded code = false ↔ 0x10 ≤ code % 256 ∧ code % 256 ≤ 0xFF)) ∧
    ∀ st : Status, succeeded st.code = true ↔ st = .ok ∨ st = .okNote

/-- Take any of the 107 packet commands, while a command processor serves and nothing stops the command before its own checks.
Where its checks pass and its work ends with a status, exec answers the next state that holds the work's effect, framed by what
no packet command may change, and the reply with that status; where a check fails, the next state is the old one with the reply
only; where the command waits, it stays admitted and no reply is written; where a quantum ends with work left, it stays as it is.
(02_strokes.md R34, R35, R46, R50; 03_command_packets.md R87, R103, R104) -/
def Obligations.PacketCommandEndsAsItsWorkEnds : Prop :=
  ∀ (i : Instr) (op : Nat) (c : Cmd) (s : State), packetOf i = some (op, c) → s.admits op c →
    (∀ s' st d, opBody op c s = .ok (.done s' st d) → exec i s = .next ((s.framed op s').reply c op st d)) ∧
    (∀ e, opBody op c s = .error e → exec i s = .next (s.reply c op e.st e.detail)) ∧
    (∀ s', opBody op c s = .ok (.wait s') → exec i s = .next ((s.framed op s').keep c op)) ∧
    (∀ s', opBody op c s = .ok (.space s') → exec i s = .next ((s.framed op s').keepSpace c op)) ∧
    (∀ s', opBody op c s = .ok (.part s') → exec i s = .next (s.framed op s'))

/-- For every packet command: where its opcode, its issuing function, the lifecycle, the absence of its compartment or an
UNKEYED compartment stops it, exec answers the old state with the reply of that status and nothing else; while no command
processor serves, exec answers the state unchanged (log 2). A diagnostic command is answered with NOT_PERMITTED when the device
is DEPLOYED or RETIRED or when a virtual function issued it, and otherwise with BAD_OPCODE, as a part may do that implements no
diagnostic operation. (00_scope.md R9, R10, R19; 01_the_device.md R24; 03_command_packets.md Table 3.2;
12_compartments_and_quench.md R455) -/
def Obligations.PacketCommandStoppedBeforeItsChecks : Prop :=
  (∀ (i : Instr) (op : Nat) (c : Cmd) (s : State), packetOf i = some (op, c) →
    (∀ st, s.serving = true → gate op c.fn s = some st → exec i s = .next (s.reply c op st 0)) ∧
    (s.serving = false → exec i s = .next s)) ∧
  ∀ (c : Cmd) (s : State), s.serving = true →
    (s.dawn.lifecycle = 3 ∨ s.dawn.lifecycle = 4 ∨ c.fn ≠ .pf → exec (.diagnosticCommand c) s = .next (s.reply c 0xF000 .notPermitted 0)) ∧
    (s.dawn.lifecycle ≠ 3 → s.dawn.lifecycle ≠ 4 → c.fn = .pf → exec (.diagnosticCommand c) s = .next (s.reply c 0xF000 .badOpcode 0))

/-- Whatever a packet command does, the next state has the same commands waiting, the same HOST port and transport keys, the
same stroke number, phase, period and clock policy, the same power state, level and cap, the same lifecycle, lease holder and
fence; and host memory reads as before at every address of the physical function, and of a compartment's function at every
address outside its host window, to which the sealed forms of HOME 2 tiles are written, unless the command is FAR.CLEAR,
TENSOR.EXPORT or TRAIN.EXPORT, which store to it. Stated for states with no work in the middle of a step (log 100).
(02_strokes.md R37, R69; 03_command_packets.md R104; 06_memory_tiers.md R219, R227, R249; 12_compartments_and_quench.md R464) -/
def Obligations.PacketCommandLeavesTheRestAlone : Prop :=
  ∀ (i : Instr) (op : Nat) (c : Cmd) (s t : State), packetOf i = some (op, c) → s.act = {} → exec i s = .next t →
    Kept s t ∧ (movesHost op = false → ∀ f a, (∀ k w, f = .vf k → (s.comp k).hostWin = some w → a < w.1 ∨ w.1 + w.2 ≤ a) →
      Mem.read (Tab.get [] t.hostMem (fnKey f)) a = Mem.read (Tab.get [] s.hostMem (fnKey f)) a)

/-- Where a packet command's own checks fail with a failure status, the next state has one reply more, with that status and DETAIL,
and the command is no longer queued; of the results that wait for settle only its own are gone, and no result record, no host
memory, no compartment, no lending group and no pending change is touched, but for the counters that a status moves. (00_scope.md R12; 02_strokes.md R70, R76; 03_command_packets.md
R104) -/
def Obligations.FailedCheckCommitsNothing : Prop :=
  ∀ (i : Instr) (op : Nat) (c : Cmd) (s : State) (e : Err), packetOf i = some (op, c) → s.admits op c → opBody op c s = .error e →
    succeeded e.st.code = false →
    ∃ t, exec i s = .next t ∧ Answered s t c op e.st e.detail ∧ t.commits = s.commits.filter (fun p => p.order != c.order || p.what.stays) ∧ t.records = s.records ∧
      t.hostMem = s.hostMem ∧ t.comps = (s.countStatus c.fn e.st).comps ∧ t.stroke = s.stroke ∧ t.wordStores = s.wordStores ∧ t.bases = s.bases ∧
      t.link = s.link ∧ t.quench = s.quench ∧ t.watch = s.watch ∧ t.power = (s.countStatus c.fn e.st).power ∧ t.dawn = s.dawn

/-- A STROKE.CONFIG that is admitted and names a period of 9 or less or of 101 or more answers BAD_PARAM (0x0011) and changes
nothing but the reply and the queue; one with a period of 10 to 100, a target in range, a legal policy and zero reserved bytes
completes with OK and leaves exactly its change for settle, which makes it pending; the period after reset is 25. (R38) -/
def Obligations.StrokeConfigRefusesBadPeriod : Prop :=
  (∀ (c : Cmd) (s : State), s.admits 0x0003 c → (u16 c.block 8 ≤ 9 ∨ 101 ≤ u16 c.block 8) →
      exec (.strokeConfig c) s = .next (s.reply c 0x0003 .badParam 0)) ∧
    (∀ (c : Cmd) (s : State), s.admits 0x0003 c → c.block.length = 16 → s.stroke.number + 4 ≤ u64 c.block 0 →
      u64 c.block 0 ≤ s.stroke.number + 65536 → 10 ≤ u16 c.block 8 → u16 c.block 8 ≤ 100 → u8 c.block 10 ≤ 1 → zeroAt c.block 11 5 = true →
      exec (.strokeConfig c) s = .next ((s.commit c (.strokeConfig
        { target := u64 c.block 0, period := u16 c.block 8, burst := u8 c.block 10 == 1 })).reply c 0x0003 .ok 0)) ∧
    (∀ (s : State) (f : Fn) (p : PendingConfig), s.applyCommit f (.strokeConfig p) = { s with stroke := { s.stroke with pending := some p } }) ∧
    Status.badParam.code = 0x0011 ∧ State.reset.stroke.period = 25

/-- An admitted SLICE.SET that names an existing compartment, with a legal fill mode, first unit and count (0 or 4 to 256), a
run that ends by unit 256 and overlaps no other compartment's run in the layout with every accepted SLICE.SET applied, completes
with OK and leaves for settle its layout, effective two strokes on, and the step of CONFIG_EPOCH. At settle the layout is appended
to those that wait, CONFIG_EPOCH grows by one, and the affected function gets the slice notice; the layout in force is unchanged. A count of 1 to 3, a run past unit 256, an overlap or an
absent compartment completes with BAD_PARAM and changes nothing. (02_strokes.md R42, R47) -/
def Obligations.SliceSetIsPendingForTwoStrokes : Prop :=
  (∀ (c : Cmd) (s : State) (k : Nat) (sl : Slice), s.admits 0x0004 c → c.block.length = 8 → k = u8 c.block 0 →
      sl = { first := u16 c.block 2, count := u16 c.block 4, openFill := u8 c.block 1 == 1 } →
      u8 c.block 1 ≤ 1 → sl.first ≤ 255 → (sl.count = 0 ∨ (4 ≤ sl.count ∧ sl.count ≤ 256)) → sl.first + sl.count ≤ 256 →
      zeroAt c.block 6 2 = true → s.exists_ k = true → (∀ j < 64, j ≠ k → s.exists_ j = true → runsOverlap sl (s.layoutSlice j) = false) →
      exec (.sliceSet c) s = .next
        (((s.commit c (.sliceSet { comp := k, slice := sl, effective := s.stroke.number + 2 })).commit c .epochUp).reply c 0x0004 .ok 0)) ∧
    (∀ (s : State) (f : Fn) (p : PendingSlice),
      (s.applyCommit f (.sliceSet p)).stroke = { s.stroke with slices := s.stroke.slices ++ [p] } ∧
      (s.applyCommit f (.sliceSet p)).comps = s.comps ∧
      ((s.fnOf (.vf p.comp)).rq.st = .enabled →
        Tab.find? ((s.applyCommit f (.sliceSet p)).fnOf (.vf p.comp)).notices 1 = some (sliceNotice p.slice p.effective)) ∧
      (s.applyCommit f .epochUp).stroke.configEpoch = s.stroke.configEpoch + 1) ∧
    (∀ (c : Cmd) (s : State), s.admits 0x0004 c →
      ((1 ≤ u16 c.block 4 ∧ u16 c.block 4 ≤ 3) ∨ 257 ≤ u16 c.block 2 + u16 c.block 4 ∨ s.exists_ (u8 c.block 0) = false ∨
        ∃ j < 64, j ≠ u8 c.block 0 ∧ s.exists_ j = true ∧
          runsOverlap { first := u16 c.block 2, count := u16 c.block 4, openFill := u8 c.block 1 == 1 } (s.layoutSlice j) = true) →
      exec (.sliceSet c) s = .next (s.reply c 0x0004 .badParam 0))

/-- An admitted DEVICE.QUERY, STROKE.QUERY or SLICE.QUERY with a block of its length and an aligned result address completes
with OK and leaves exactly one result record, laid out as Table 2.8 says; SLICE.QUERY from a virtual function must name its own
compartment, else NOT_PERMITTED; from the physical function every counter field of the record is zero, and an absent compartment
shows no run and GROUP_ID 0xFF. (02_strokes.md R58, R70, R75 Table 2.8; 00_scope.md R2) -/
def Obligations.StrokeQueriesRecordTheState : Prop :=
  (∀ (c : Cmd) (s : State), s.admits 0x0001 c → c.block.length = 8 → u64 c.block 0 % 64 = 0 →
      exec (.deviceQuery c) s = .next ((s.record c.fn (u64 c.block 0) (layout 64
        [(0, 2, 0x00B1), (2, 2, s.dawn.fw.activeBank.verMajor), (4, 2, s.dawn.fw.activeBank.verMinor), (6, 2, s.watch.table.format),
         (8, 1, s.dawn.lifecycle)])).reply c 0x0001 .ok 0)) ∧
    (∀ (c : Cmd) (s : State) (p : PendingConfig), s.admits 0x0002 c → c.block.length = 8 → u64 c.block 0 % 64 = 0 →
      s.stroke.pending.getD { target := 0, period := 0, burst := false } = p →
      exec (.strokeQuery c) s = .next ((s.record c.fn (u64 c.block 0) (layout 64
        [(0, 8, s.stroke.number), (8, 2, s.stroke.period), (10, 1, bitNum s.stroke.burst), (11, 1, s.stroke.align.code),
         (12, 4, twos 32 s.stroke.alignOffset), (16, 8, s.stroke.configEpoch), (24, 8, p.target), (32, 2, p.period),
         (34, 1, bitNum p.burst)])).reply c 0x0002 .ok 0)) ∧
    (∀ (c : Cmd) (s : State), s.admits 0x0005 c → c.fn = .pf → c.block.length = 16 → u8 c.block 0 < 64 → zeroAt c.block 1 7 = true →
      u64 c.block 8 % 64 = 0 → s.exists_ (u8 c.block 0) = false →
      exec (.sliceQuery c) s = .next ((s.record .pf (u64 c.block 8)
        (layout 64 [(0, 2, 0), (2, 2, 0), (4, 1, 0), (5, 1, 0xFF), (6, 1, 0), (8, 8, s.stroke.configEpoch), (16, 8, 0), (24, 8, 0),
          (32, 8, 0), (40, 8, 0), (48, 8, 0), (56, 8, 0)])).reply c 0x0005 .ok 0)) ∧
    (∀ (c : Cmd) (s : State) (k : Nat) (gid act : Nat), s.admits 0x0005 c → (c.fn = .pf ∨ c.fn = .vf k) → c.block.length = 16 →
      k = u8 c.block 0 → k < 64 → zeroAt c.block 1 7 = true → u64 c.block 8 % 64 = 0 → s.exists_ k = true →
      (∀ g x, s.groupOf k = some (g, x) → gid = g ∧ act = bitNum x.active) → (s.groupOf k = none → gid = 0xFF ∧ act = 0) →
      exec (.sliceQuery c) s = .next ((s.record c.fn (u64 c.block 8) (layout 64
        ([(0, 2, (s.comp k).slice.first), (2, 2, (s.comp k).slice.count), (4, 1, bitNum (s.comp k).slice.openFill), (5, 1, gid),
          (6, 1, act), (8, 8, s.stroke.configEpoch)] ++
         if c.fn = .pf then [(16, 8, 0), (24, 8, 0), (32, 8, 0), (40, 8, 0), (48, 8, 0), (56, 8, 0)]
         else [(16, 8, ctrGet (s.comp k).ctrs .runStrokes), (24, 8, ctrGet (s.comp k).ctrs .idleNs),
           (32, 8, ctrGet (s.comp k).ctrs .lentNs), (40, 8, ctrGet (s.comp k).ctrs .borrowedNs),
           (48, 8, ctrGet (s.comp k).ctrs .guardCuts), (56, 8, ctrGet (s.comp k).ctrs .fences)]))).reply c 0x0005 .ok 0)) ∧
    ∀ (c : Cmd) (s : State) (k : Nat), s.admits 0x0005 c → c.fn = .vf k → c.block.length = 16 → k ≠ u8 c.block 0 →
      exec (.sliceQuery c) s = .next (s.reply c 0x0005 .notPermitted 0)

/-- An admitted LEND.GROUP with ACTION 0, a free GROUP_ID of 0 to 15 and two or more existing members that belong to no group
completes with OK and leaves the group for settle, inactive and without consents; with ACTION 1 and a defined group it leaves the
mark to dissolve. An admitted LEND.CONSENT of a member that names a tenant-authenticated session and the group's members leaves
its consent, bound to that session's transcript hash, or its withdrawal. Each leaves the step of CONFIG_EPOCH too; at settle the
group is defined, marked, and holds the one consent of the member or none. Groups that LEND.GROUPs of the same stroke define count
as defined (log 109). Naming a group that is defined already, or dissolving one that is not, completes with BAD_PARAM; a session that is not established and tenant-authenticated
completes with NOT_PERMITTED. (02_strokes.md R54, R55, R56, R72, R73) -/
def Obligations.LendingGroupIsDefinedAndDissolved : Prop :=
  (∀ (c : Cmd) (s : State) (g m : Nat), s.admits 0x0006 c → c.block.length = 16 → g = u8 c.block 0 → m = u64 c.block 8 → g ≤ 15 →
      u8 c.block 1 = 0 → zeroAt c.block 2 6 = true → 2 ≤ popCount m 64 →
      (∀ k ∈ bitList m 64, s.exists_ k = true ∧ ∀ p ∈ s.groupsSeen, bitOf p.2.members k = false) → Tab.find? s.groupsSeen g = none →
      exec (.lendGroup c) s = .next (((s.commit c (.lendGroup g { members := m, consents := [], active := false, dissolving := false })).commit c
        .epochUp).reply c 0x0006 .ok 0)) ∧
    (∀ (c : Cmd) (s : State) (g : Nat) (x : LendGroup), s.admits 0x0006 c → c.block.length = 16 → g = u8 c.block 0 → g ≤ 15 →
      u8 c.block 1 = 1 → zeroAt c.block 2 6 = true → Tab.find? s.groupsSeen g = some x →
      exec (.lendGroup c) s = .next (((s.commit c (.lendDissolve g)).commit c .epochUp).reply c 0x0006 .ok 0)) ∧
    (∀ (c : Cmd) (s : State), s.admits 0x0006 c →
      ((u8 c.block 1 = 0 ∧ (Tab.find? s.groupsSeen (u8 c.block 0)).isSome) ∨
        (u8 c.block 1 = 1 ∧ Tab.find? s.groupsSeen (u8 c.block 0) = none)) →
      exec (.lendGroup c) s = .next (s.reply c 0x0006 .badParam 0)) ∧
    (∀ (c : Cmd) (s : State) (k g : Nat) (x : LendGroup) (n : Session), s.admits 0x0007 c → c.fn = .vf k → c.block.length = 16 →
      g = u8 c.block 0 → g ≤ 15 → u8 c.block 1 ≤ 1 → zeroAt c.block 2 2 = true → Tab.find? s.stroke.groups g = some x →
      u64 c.block 8 = x.members → bitOf x.members k = true → s.session (.vf k) (u32 c.block 4) = some n → n.tenantAuth = true →
      exec (.lendConsent c) s = .next (((s.commit c (.consent g k (if u8 c.block 1 = 0 then some { comp := k, members := x.members, hash := n.th2 } else none))).commit c
        .epochUp).reply c 0x0007 .ok 0)) ∧
    (∀ (s : State) (f : Fn) (g k : Nat) (x y : LendGroup) (z : Option Consent), Tab.find? s.stroke.groups g = some y →
      Tab.find? (s.applyCommit f (.lendGroup g x)).stroke.groups g = some x ∧
      Tab.find? (s.applyCommit f (.lendDissolve g)).stroke.groups g = some { y with dissolving := true } ∧
      Tab.find? (s.applyCommit f (.consent g k z)).stroke.groups g =
        some { y with consents := (y.consents.filter fun w => w.comp != k) ++ z.toList }) ∧
    ∀ (c : Cmd) (s : State) (k : Nat) (x : LendGroup), s.admits 0x0007 c → c.fn = .vf k → c.block.length = 16 →
      u8 c.block 0 ≤ 15 → u8 c.block 1 ≤ 1 → zeroAt c.block 2 2 = true → Tab.find? s.stroke.groups (u8 c.block 0) = some x →
      u64 c.block 8 = x.members → bitOf x.members k = true →
      (∀ n, s.session (.vf k) (u32 c.block 4) = some n → n.tenantAuth = false) →
      exec (.lendConsent c) s = .next (s.reply c 0x0007 .notPermitted 0)

/-- An admitted STROKE.WAIT with an eight-byte block completes with OK when the stroke number has reached its target; with
OK_NOTE when the target was at or below the stroke number at intake; with BAD_PARAM when it lies above the current stroke number
plus 2^32; otherwise it stays admitted, and its tag stays in use. Nothing about its compartment's run is asked. (R74) -/
def Obligations.StrokeWaitCompletesAtItsTarget : Prop :=
  ∀ (c : Cmd) (s : State) (n : Nat), s.admits 0x0008 c → c.block.length = 8 → u64 c.block 0 = n →
    (c.stroke < n → n ≤ s.stroke.number → exec (.strokeWait c) s = .next (s.reply c 0x0008 .ok 0)) ∧
    (n ≤ c.stroke → n ≤ s.stroke.number + 2 ^ 32 → exec (.strokeWait c) s = .next (s.reply c 0x0008 .okNote 0)) ∧
    (s.stroke.number + 2 ^ 32 < n → exec (.strokeWait c) s = .next (s.reply c 0x0008 .badParam 0)) ∧
    (c.stroke < n → s.stroke.number < n → n ≤ s.stroke.number + 2 ^ 32 →
      exec (.strokeWait c) s = .next (s.keep c 0x0008) ∧ (s.keep c 0x0008).replies = s.replies ∧
        ∃ a ∈ (s.keep c 0x0008).queue, a.cmd = c ∧ a.waiting = true)

/-- An admitted WORD.STORE of index 0 to 4,095 adds a store that is not yet visible, ordered after those of its word that its
queue has fenced, and leaves every signal word as it was; an admitted WORD.LOAD leaves one record whose value is one of those its
word may hold, the only one where there is one; an admitted FENCE.SC makes every pending store of its own queue, and no other,
visible and adds one to FENCES. An index above 4,095 completes WORD.STORE and WORD.LOAD with BAD_PARAM. (02_strokes.md R66, R67,
R70, R76) -/
def Obligations.WordCommandsComplete : Prop :=
  (∀ (c : Cmd) (s : State) (k : Nat), s.admits 0x000A c → c.fn = .vf k → c.block.length = 16 → u16 c.block 0 ≤ 4095 → zeroAt c.block 2 6 = true →
      ∃ earlier, exec (.wordStore c) s = .next (({ s with
          wordStores := earlier ++ [{ order := c.order, comp := k, index := u16 c.block 0, value := u64 c.block 8, ring := c.ring }] } : State).reply c 0x000A .ok 0) ∧
        (earlier.map (·.later)) = s.wordStores.map (fun w => if w.comp = k ∧ w.index = u16 c.block 0 ∧ c.ring ∈ w.fencedBy then w.later ++ [c.order] else w.later) ∧
        earlier.map (fun w => (w.comp, w.index, w.value, w.ring, w.visible)) =
          s.wordStores.map (fun w => (w.comp, w.index, w.value, w.ring, w.visible))) ∧
    (∀ (c : Cmd) (s : State) (k : Nat), s.admits 0x000B c → c.fn = .vf k → c.block.length = 16 → u16 c.block 0 ≤ 4095 → zeroAt c.block 2 6 = true →
      u64 c.block 8 % 64 = 0 → ∃ v n, v ∈ s.wordValues k (u16 c.block 0) ∧
        exec (.wordLoad c) s = .next ((({ s with free := n } : State).record (.vf k) (u64 c.block 8) (leBytes v 8)).reply c 0x000B .ok 0)) ∧
    (∀ (c : Cmd) (s : State) (k : Nat), s.admits 0x0009 c → c.fn = .vf k → c.block.length = 8 → zeroAt c.block 0 8 = true →
      exec (.fenceSc c) s = .next (((s.fenceStores k c.ring).bump k .fences 1).reply c 0x0009 .ok 0) ∧
      (s.fenceStores k c.ring).wordStores.map (fun w => (w.comp, w.index, w.value, w.ring, w.visible)) =
        s.wordStores.map (fun w => (w.comp, w.index, w.value, w.ring, w.visible || w.comp == k && w.ring == c.ring)) ∧
      ∀ w ∈ (s.fenceStores k c.ring).wordStores, w.comp = k → w.visible = true → c.ring ∈ w.fencedBy) ∧
    (∀ (c : Cmd) (s : State), s.admits 0x000A c → 4095 < u16 c.block 0 → exec (.wordStore c) s = .next (s.reply c 0x000A .badParam 0)) ∧
    ∀ (c : Cmd) (s : State), s.admits 0x000B c → 4095 < u16 c.block 0 → exec (.wordLoad c) s = .next (s.reply c 0x000B .badParam 0)

/-- Settle leaves in each signal word that was stored in the stroke exactly one of the values stored to it that no later ordered
store replaced, and in every other word of every compartment what it held; no store stays pending. The order that stores are in is
the one that fences make: a store's later ones are those that came after it behind a fence. (02_strokes.md R66, R67, R69) -/
def Obligations.SettledWordHoldsOneStore : Prop :=
  ∀ (s : State) (k i : Nat), s.settleWords.wordStores = [] ∧
    (s.storesTo k i = [] → Tab.get 0 (s.settleWords.comp k).words i = Tab.get 0 (s.comp k).words i) ∧
    ((∃ w ∈ s.storesTo k i, ∀ v ∈ s.storesTo k i, v.order ∉ w.later) →
      ∃ w ∈ s.storesTo k i, (∀ v ∈ s.storesTo k i, v.order ∉ w.later) ∧ Tab.get 0 (s.settleWords.comp k).words i = w.value)

/-- Two queues of one compartment each store 1 to their own word, fence, then load the other's word, in one stroke and from
words that hold 0. Whatever order the six commands are carried out in that keeps each queue's order, and whatever values the
loads pick, the two loads do not both read 0. (02_strokes.md R66, R67, Table 2.5) -/
def Obligations.FencedTwoFlagTestNeverReadsZeroTwice : Prop :=
  ∀ (s t : State) (k rx ry ax ay : Nat) (sx fx lx sy fy ly : Cmd) (l : List Instr), rx ≠ ry → ax ≠ ay →
    (∀ c ∈ [sx, fx, lx], c.fn = .vf k ∧ c.ring = rx) → (∀ c ∈ [sy, fy, ly], c.fn = .vf k ∧ c.ring = ry) →
    (∀ c ∈ [sx, sy, lx, ly], c.block.length = 16 ∧ zeroAt c.block 2 6 = true) → (∀ c ∈ [fx, fy], c.block.length = 8 ∧ zeroAt c.block 0 8 = true) →
    u16 sx.block 0 = 0 → u64 sx.block 8 = 1 → u16 lx.block 0 = 1 → u64 lx.block 8 = ax →
    u16 sy.block 0 = 1 → u64 sy.block 8 = 1 → u16 ly.block 0 = 0 → u64 ly.block 8 = ay →
    List.Sublist [.wordStore sx, .fenceSc fx, .wordLoad lx] l → List.Sublist [.wordStore sy, .fenceSc fy, .wordLoad ly] l → l.length = 6 →
    (∀ op ∈ [0x0009, 0x000A, 0x000B], s.admits op sx) → s.wordStores = [] → s.records = [] →
    Tab.get 0 (s.comp k).words 0 = 0 → Tab.get 0 (s.comp k).words 1 = 0 → core.run 6 { s with pending := l } = .next t →
    ¬ ({ fn := .vf k, addr := ax, bytes := leBytes 0 8 } ∈ t.records ∧ { fn := .vf k, addr := ay, bytes := leBytes 0 8 } ∈ t.records)

/-- An admitted COMP.DESTROY, COMP.QUENCH or TENANT.CHANGE with an eight-byte block that names, with zero reserved bytes, a
compartment that is ACTIVE, QUENCHING or CHANGING (a virtual function its own), and whose new EPOCH does not await zeroing,
completes with OK and leaves its quench for settle, which makes it due at the next boundary and adds one to CONFIG_EPOCH for a
destruction alone; the compartment itself is as before. Where the new EPOCH awaits zeroing, the command stays admitted. A
compartment that is ABSENT or DESTROYING gives BAD_PARAM with DETAIL 0. DEVICE.QUENCH with its confirmation word leaves the
whole-device quench for settle, and without it completes with BAD_PARAM, DETAIL 0. (12_compartments_and_quench.md R457, R463, R466,
R467, R468, R470, R471) -/
def Obligations.CompartmentCommandsRecordTheRequest : Prop :=
  (∀ (c : Cmd) (s : State) (k : Nat), c.block.length = 8 → k = u8 c.block 0 → k < 64 → mayName c.fn k = true → zeroAt c.block 1 7 = true →
      ((s.comp k).st = .active ∨ (s.comp k).st = .quenching ∨ (s.comp k).st = .changing) →
      (∀ q : QuenchDue, q = { comp := k, kind := .destroy, cause := 0 } → s.admits 0x0102 c → exec (.compDestroy c) s = .next (if s.quenchHeld q
        then s.keep c 0x0102 else (s.commit c (.quenchDue q)).reply c 0x0102 .ok 0)) ∧
      (∀ q : QuenchDue, q = { comp := k, kind := .quench, cause := if c.fn = .pf then 0 else 1 } → s.admits 0x0103 c → exec (.compQuench c) s = .next
        (if s.quenchHeld q then s.keep c 0x0103 else (s.commit c (.quenchDue q)).reply c 0x0103 .ok 0)) ∧
      (∀ q : QuenchDue, q = { comp := k, kind := .change, cause := 0 } → s.admits 0x0104 c → exec (.tenantChange c) s = .next (if s.quenchHeld q
        then s.keep c 0x0104 else (s.commit c (.quenchDue q)).reply c 0x0104 .ok 0))) ∧
    (∀ (s : State) (f : Fn) (q : QuenchDue), (s.applyCommit f (.quenchDue q)).quench.due = s.quench.due ++ [q] ∧ (s.applyCommit f (.quenchDue q)).comps = s.comps ∧
      (s.applyCommit f (.quenchDue q)).stroke.configEpoch = (if q.kind = .destroy then s.stroke.configEpoch + 1 else s.stroke.configEpoch) ∧
      (s.applyCommit f .deviceDue).quench.deviceDue = true) ∧
    (∀ (c : Cmd) (s : State), c.block.length = 8 → mayName c.fn (u8 c.block 0) = true →
      (64 ≤ u8 c.block 0 ∨ (s.comp (u8 c.block 0)).st = .absent ∨ (s.comp (u8 c.block 0)).st = .destroying) →
      (s.admits 0x0102 c → exec (.compDestroy c) s = .next (s.reply c 0x0102 .badParam 0)) ∧
      (s.admits 0x0103 c → exec (.compQuench c) s = .next (s.reply c 0x0103 .badParam 0)) ∧
      (s.admits 0x0104 c → exec (.tenantChange c) s = .next (s.reply c 0x0104 .badParam 0))) ∧
    ∀ (c : Cmd) (s : State), s.admits 0x0107 c → c.block.length = 8 →
      (u32 c.block 0 = 0x51554E43 → zeroAt c.block 4 4 = true →
        exec (.deviceQuench c) s = .next ((s.commit c .deviceDue).reply c 0x0107 .ok 0)) ∧
      (u32 c.block 0 ≠ 0x51554E43 → exec (.deviceQuench c) s = .next (s.reply c 0x0107 .badParam 0))

/-- Where an admitted COMP.CREATE passes its checks and its shares fit, exec answers a next state in which no compartment has
changed, two results more wait for settle, of which one makes an ACTIVE compartment that did not exist with the quotas of the
block and keys of its own, and the tag range of its function, and one adds one to CONFIG_EPOCH; the record of the new compartment
is left at RESULT_ADDR.
(12_compartments_and_quench.md R447, R448, R449, R450, R472) -/
def Obligations.CompCreateCommitsAtSettle : Prop :=
  ∀ (c : Cmd) (s s' : State) (st : Status) (d : Nat), s.admits 0x0101 c → opCompCreate c s = .ok (.done s' st d) →
    ∃ k x r t, exec (.compCreate c) s = .next t ∧ st = .ok ∧ Answered s t c 0x0101 .ok 0 ∧ t.comps = s.comps ∧ k < 64 ∧ s.exists_ k = false ∧
      t.commits = s.commits ++ [{ fn := c.fn, order := c.order, what := .compActive k x r }, { fn := c.fn, order := c.order, what := .epochUp }] ∧
      t.records = s.records ++ [{ fn := c.fn, addr := u64 c.block 24, bytes := compRecord k x 0 }] ∧
      r.used = [] ∧ r.freed = [] ∧ x.st = .active ∧ x.hearthUnits = u16 c.block 2 ∧ x.hbmGib = u16 c.block 4 ∧
      x.tagQuota = u16 c.block 6 ∧ x.streamQuota = u16 c.block 8 ∧ x.residentQuota = u16 c.block 10 ∧ x.domainQuota = u32 c.block 12 ∧
      x.keyQuota = u16 c.block 16 ∧ x.compKey.isSome ∧ x.hearthKey.isSome ∧ x.claim = none ∧ x.slice.count = 0

/-- Where an admitted COMP.CREATE succeeds, each index range of the new compartment (tags from 256 to 16,383, streams from 0 to
32,767, domains from 0 to 65,535, keys from 0 to 32,767) lies inside its table and shares no index with the range of any
compartment that exists or is being created, and the sums of Hearth, HBM, tag and resident shares stay within the device's, of
which the device keeps 2 GiB of HBM.
(12_compartments_and_quench.md R447, R448) -/
def Obligations.CreatedSharesNeverOverlap : Prop :=
  ∀ (c : Cmd) (s s' : State) (st : Status) (d k : Nat) (x : Comp) (r : IdxRange), opCompCreate c s = .ok (.done s' st d) →
    { fn := c.fn, order := c.order, what := .compActive k x r } ∈ s'.commits.drop s.commits.length →
    (256 ≤ x.tagBase ∧ x.tagBase + x.tagQuota ≤ 16384) ∧ (x.streamBase + x.streamQuota ≤ 32768) ∧
    (x.domainBase + x.domainQuota ≤ 65536) ∧ (x.keyBase + x.keyQuota ≤ 32768) ∧
    (∀ p ∈ s.holders, p.2.tagQuota = 0 ∨ p.2.tagBase + p.2.tagQuota ≤ x.tagBase ∨ x.tagBase + x.tagQuota ≤ p.2.tagBase) ∧
    (∀ p ∈ s.holders, x.streamQuota = 0 ∨ p.2.streamQuota = 0 ∨ p.2.streamBase + p.2.streamQuota ≤ x.streamBase ∨
      x.streamBase + x.streamQuota ≤ p.2.streamBase) ∧
    (∀ p ∈ s.holders, p.2.keyQuota = 0 ∨ p.2.keyBase + p.2.keyQuota ≤ x.keyBase ∨ x.keyBase + x.keyQuota ≤ p.2.keyBase) ∧
    s.total (·.hearthUnits) + x.hearthUnits ≤ 320 ∧ s.total (·.tagQuota) + x.tagQuota ≤ 16128 ∧
    s.total (·.residentQuota) + x.residentQuota ≤ 16384 ∧ (s.total (·.hbmGib) + x.hbmGib + 2) * 2 ^ 30 + s.baseBytes ≤ 384 * 2 ^ 30

/-- Every one of HEARTH_ROW_CLEAR_DONE, TENANT_CHANGE_DONE, HBM_ZEROING_DONE, DEVICE_HEARTH_CLEAR_DONE answers a next state in
every state, whatever its operands; what that state holds: An admitted COMP.QUERY of a compartment that the function may name
completes with OK and the compartment's record, KEYS_HELD zero for the physical function. An admitted FAR.CLEAR with no far
range pending completes with OK_NOTE and changes nothing; with one pending that meets no host window it completes with OK, every
byte of the range in the function's host memory reads as zero, every other byte as before, and FAR_PENDING is cleared; with one
that meets the host window it completes with BAD_PARAM. In the time of a compartment's run, or of unassigned units where it has
none, HEARTH_ROW_CLEAR_DONE of a compartment that is being cleared, outside a whole-device clear, makes a QUENCHING compartment
ACTIVE, keeps a CHANGING one CHANGING with its clear ended, and makes a DESTROYING one ABSENT with its HBM share awaiting
zeroing; TENANT_CHANGE_DONE makes a CHANGING compartment ACTIVE once its clear has ended; at other times both change nothing.
HBM_ZEROING_DONE frees the lines that awaited zeroing under its number and, with no creation and no quench waiting, changes
nothing else. DEVICE_HEARTH_CLEAR_DONE in the plan or execute phase ends the device's clear and makes its effect due at the
boundary. (12_compartments_and_quench.md R449, R460, R461, R464, R466, R467, R468, R469, R470, R471) -/
def Obligations.CompQueryFarClearAndClearingEventsComplete : Prop :=
  (∀ (s : State) (a : Nat),
    ∀ i ∈ ([.hearthRowClearDone a, .tenantChangeDone a, .hbmZeroingDone a, .deviceHearthClearDone] : List Instr), ∃ t, exec i s = .next t) ∧
  ((∀ (c : Cmd) (s : State) (k : Nat), s.admits 0x0105 c → c.block.length = 16 → k = u8 c.block 0 → mayName c.fn k = true → k < 64 →
      zeroAt c.block 1 7 = true → u64 c.block 8 % 64 = 0 →
      exec (.compQuery c) s = .next ((s.record c.fn (u64 c.block 8)
        (compRecord k (s.comp k) (if c.fn = .pf then 0 else (s.comp k).keys.length))).reply c 0x0105 .ok 0)) ∧
    (∀ (c : Cmd) (s : State) (k : Nat), s.admits 0x0106 c → c.fn = .vf k → c.block.length = 8 → zeroAt c.block 0 8 = true →
      (s.comp k).farPending = none → exec (.farClear c) s = .next (s.reply c 0x0106 .okNote 0)) ∧
    (∀ (c : Cmd) (s : State) (k : Nat) (far : Nat × Nat), s.admits 0x0106 c → c.fn = .vf k → c.block.length = 8 → zeroAt c.block 0 8 = true →
      (s.comp k).farPending = some far → ((s.comp k).hostWin.any fun w => rangesMeet w far) = false →
      ∃ t, exec (.farClear c) s = .next t ∧ Answered s t c 0x0106 .ok 0 ∧ (t.comp k).farPending = none ∧
        (∀ a, far.1 ≤ a → a < far.1 + far.2 → Mem.read (Tab.get [] t.hostMem (fnKey (.vf k))) a = 0) ∧
        (∀ f a, (f ≠ .vf k ∨ a < far.1 ∨ far.1 + far.2 ≤ a) →
          Mem.read (Tab.get [] t.hostMem (fnKey f)) a = Mem.read (Tab.get [] s.hostMem (fnKey f)) a)) ∧
    ∀ (c : Cmd) (s : State) (k : Nat) (far : Nat × Nat), s.admits 0x0106 c → c.fn = .vf k → c.block.length = 8 → zeroAt c.block 0 8 = true →
      (s.comp k).farPending = some far → ((s.comp k).hostWin.any fun w => rangesMeet w far) = true →
      exec (.farClear c) s = .next (s.reply c 0x0106 .badParam noField)) ∧
  (∀ (s : State) (k : Nat), (s.comp k).clearing = true → s.quench.deviceClearing = false → s.clearsNow k = true →
      ((s.comp k).st = .quenching →
        exec (.hearthRowClearDone k) s = .next (s.setComp k { s.comp k with clearing := false, st := .active })) ∧
      ((s.comp k).st = .changing → exec (.hearthRowClearDone k) s = .next (s.setComp k { s.comp k with clearing := false })) ∧
      ((s.comp k).st = .destroying → ∃ t, exec (.hearthRowClearDone k) s = .next t ∧ (t.comp k).st = .absent ∧
        t.quench.hbmAwaiting = s.quench.hbmAwaiting ++ [(k, (s.comp k).hbmGib * 2 ^ 30)] ∧ ∀ j, j ≠ k → (t.comp j) = (s.comp j))) ∧
    (∀ (s : State) (k : Nat), (s.comp k).st = .changing → (s.comp k).clearing = false → s.clearsNow k = true →
      exec (.tenantChangeDone k) s = .next (s.setComp k { s.comp k with st := .active })) ∧
    (∀ (s : State) (k : Nat), s.clearsNow k = false → exec (.hearthRowClearDone k) s = .next s ∧ exec (.tenantChangeDone k) s = .next s) ∧
    (∀ (s : State) (k : Nat), s.exists_ k = true → (∀ a ∈ s.queue, a.waiting = false) →
      exec (.hbmZeroingDone k) s = .next (({ s with quench := { s.quench with
        hbmAwaiting := s.quench.hbmAwaiting.filter fun p => p.1 != k } } : State).setComp k { s.comp k with zeroing := [] })) ∧
    (∀ s : State, s.quench.deviceClearing = true → (s.stroke.phase = .plan ∨ s.stroke.phase = .execute) → exec .deviceHearthClearDone s = .next
      { s with quench := { s.quench with deviceClearing := false, deviceCleared := true } }) ∧
    ∀ s : State, s.stroke.phase ≠ .plan → s.stroke.phase ≠ .execute → exec .deviceHearthClearDone s = .next s

/-- Every one of STROKE_BOUNDARY, INTAKE_PHASE, PLAN_PHASE, SETTLE_PHASE, REPORT_PHASE answers a next state in every state,
whatever its operands; what that state holds: While a command processor serves, INTAKE_PHASE after the boundary, PLAN_PHASE
after intake, SETTLE_PHASE after plan or execute, REPORT_PHASE after settle and STROKE_BOUNDARY after report each answer a next
state; unless the device leaves service in that step, the phase is then the named one and the stroke number is the same, or one
more after the boundary; after settle no signal-word store is pending, and after report no result record. In any other phase the
event changes nothing (log 2). (02_strokes.md R33, R34, R36; 03_command_packets.md R81, R104) -/
def Obligations.PhaseEventsMoveTheStrokeOn : Prop :=
  (∀ (s : State) (a : Nat) (b : Int) (c : List Fn),
    ∀ i ∈ ([.strokeBoundary a, .intakePhase c, .planPhase, .settlePhase, .reportPhase b c] : List Instr), ∃ t, exec i s = .next t) ∧
  (∀ (s : State) (rf : List Fn), s.serving = true → s.stroke.phase = .boundary →
      ∃ t, exec (.intakePhase rf) s = .next t ∧ (t.power.main = .service → t.stroke.phase = .intake ∧ t.stroke.number = s.stroke.number)) ∧
    (∀ s : State, s.serving = true → s.stroke.phase = .intake →
      ∃ t, exec .planPhase s = .next t ∧ (t.power.main = .service → t.stroke.phase = .plan ∧ t.stroke.number = s.stroke.number)) ∧
    (∀ s : State, s.serving = true → (s.stroke.phase = .plan ∨ s.stroke.phase = .execute) →
      ∃ t, exec .settlePhase s = .next t ∧ (t.power.main = .service →
        t.stroke.phase = .settle ∧ t.stroke.number = s.stroke.number ∧ t.wordStores = [])) ∧
    (∀ (s : State) (ps : Int) (wf : List Fn), s.serving = true → s.stroke.phase = .settle →
      ∃ t, exec (.reportPhase ps wf) s = .next t ∧ (t.power.main = .service →
        t.stroke.phase = .report ∧ t.stroke.number = s.stroke.number ∧ t.records = [])) ∧
    (∀ (s : State) (p : Nat), s.serving = true → s.stroke.phase = .report →
      ∃ t, exec (.strokeBoundary p) s = .next t ∧ (t.power.main = .service →
        t.stroke.phase = .boundary ∧ t.stroke.number = s.stroke.number + 1)) ∧
    ∀ s : State, s.watch.raised = [] →
      (s.stroke.phase ≠ .boundary → ∀ rf, exec (.intakePhase rf) s = .next s) ∧ (s.stroke.phase ≠ .intake → exec .planPhase s = .next s) ∧
      (s.stroke.phase ≠ .plan → s.stroke.phase ≠ .execute → exec .settlePhase s = .next s) ∧
      (s.stroke.phase ≠ .settle → ∀ ps wf, exec (.reportPhase ps wf) s = .next s) ∧
      (s.stroke.phase ≠ .report → ∀ p, exec (.strokeBoundary p) s = .next s)

/-- In the boundary's work, a pending period and policy take effect when the new stroke number has reached their target and stay
pending before it; each accepted SLICE.SET takes effect when the number has reached its effective stroke, the last of one
compartment deciding its run, and stays pending before it; the run of a compartment that no due SLICE.SET names is unchanged.
Where a change to FIXED ends a burst while the levels allow no state but Night, the device enters Night instead (15 R548).
(02_strokes.md R37, R39, R47) -/
def Obligations.PendingChangesWaitForTheirStroke : Prop :=
  (∀ (s : State) (p : PendingConfig), s.stroke.pending = some p →
      (s.stroke.number < p.target → s.applyPeriod = s) ∧
      (p.target ≤ s.stroke.number → (s.power.burst.isSome = true → p.burst = false → s.allowed ≠ .night) →
        s.applyPeriod.stroke.period = p.period ∧ s.applyPeriod.stroke.burst = p.burst ∧ s.applyPeriod.stroke.pending = none)) ∧
    (∀ s : State, s.stroke.pending = none → s.applyPeriod = s) ∧
    ∀ (s : State) (k : Nat), s.exists_ k = true →
      (s.applySlices.comp k).slice =
        ((s.stroke.slices.filter fun p => decide (p.effective ≤ s.stroke.number) && p.comp == k).foldl (fun _ p => p.slice) (s.comp k).slice) ∧
      s.applySlices.stroke.slices = s.stroke.slices.filter fun p => s.stroke.number < p.effective

/-- For a packet at the head of a submission ring: where a check fails, its units are consumed, a reply with that status and
without a tag waits, PKTS_REFUSED counts one, and the queue and the ring's next sequence number are as before; where every check
passes, it is not held and a tag is free, its units are consumed, the next sequence number goes up by one, PKTS_ADMITTED counts
one and the queue ends with the command, its tag the index assigned with its generation; where no tag is free it is refused with
NO_RESOURCE. (03_command_packets.md R78, R83, R92, R96, R99, R103, R113) -/
def Obligations.AdmittedPacketTakesTagAndSequence : Prop :=
  ∀ (s t : State) (f : Fn) (n units : Nat) (a b : Allow) (h : Header) (block : List Byte) (within : Bool) (more : Took),
    s.takeCommand f n a h block within units = (t, b, more) →
    (∀ st, s.packetCheck f n ((s.fnOf f).ring n).nextSeq h within = some st →
      t.queue = s.queue ∧ ((t.fnOf f).ring n).nextSeq = ((s.fnOf f).ring n).nextSeq ∧
      ((t.fnOf f).ring n).head = (((s.fnOf f).ring n).head + units) % 2 ^ 32 ∧
      Tab.get 0 (t.fnOf f).counters 1 = sat64 (Tab.get 0 (s.fnOf f).counters 1) 1 ∧
      ∃ r, t.replies = s.replies ++ [r] ∧ r.status = st.code ∧ r.admitted = false ∧ r.cmd.tag = 0 ∧ r.cmd.cookie = h.cookie) ∧
    (∀ i g tags, s.packetCheck f n ((s.fnOf f).ring n).nextSeq h within = none → s.stateRuns f n h.op h.stream = true →
      (s.fnOf f).held n (h.depList n ((s.fnOf f).ring n).nextSeq) = false →
      (s.fnOf f).tags.assign (s.tagRange f).1 (s.tagRange f).2 = some (i, g, tags) →
      t.replies = s.replies ∧ ((t.fnOf f).ring n).nextSeq = ((s.fnOf f).ring n).nextSeq + 1 ∧
      ((t.fnOf f).ring n).head = (((s.fnOf f).ring n).head + units) % 2 ^ 32 ∧ (t.fnOf f).tags = tags ∧
      Tab.get 0 (t.fnOf f).counters 0 = sat64 (Tab.get 0 (s.fnOf f).counters 0) 1 ∧ t.stroke.nextOrder = s.stroke.nextOrder + 1 ∧
      ∃ x, t.queue = s.queue ++ [x] ∧ x.cmd.fn = f ∧ x.cmd.ring = n ∧ x.cmd.seq = ((s.fnOf f).ring n).nextSeq ∧
        x.cmd.tag = handleOf g i ∧ x.cmd.order = s.stroke.nextOrder ∧ x.cmd.stroke = s.stroke.number ∧ x.op = h.op ∧ x.cmd.block = block) ∧
    (s.packetCheck f n ((s.fnOf f).ring n).nextSeq h within = none → s.stateRuns f n h.op h.stream = true →
      (s.fnOf f).held n (h.depList n ((s.fnOf f).ring n).nextSeq) = false →
      (s.fnOf f).tags.assign (s.tagRange f).1 (s.tagRange f).2 = none →
      t.queue = s.queue ∧ ∃ r, t.replies = s.replies ++ [r] ∧ r.status = Status.noResource.code ∧ r.cmd.tag = 0)

/-- From a range set up anew, indices are assigned in ascending order; once each has been used, the one freed longest ago comes
first; an assigned index lies in the range, was not in use, gets the GENERATION after its last one, and 0x0001 comes after
0xFFFF; a range with no free index assigns none; freeing an index in use puts it last. The range's own invariant, stated here as
a premise, is that the indices in use and the freed ones are, without repeats, exactly those below the first never used.
(03_command_packets.md R96, R97, R99, R103) -/
def Obligations.IndexFreedLeastRecentlyIsAssigned : Prop :=
  ∀ (r : IdxRange) (base quota : Nat), r.fresh ≤ quota → (r.used ++ r.freed).Nodup →
    (∀ j, j ∈ r.used ++ r.freed ↔ base ≤ j ∧ j < base + r.fresh) →
    (r.assign base quota = none ↔ r.freed = [] ∧ r.fresh = quota) ∧
    (∀ i g q, r.assign base quota = some (i, g, q) →
      base ≤ i ∧ i < base + quota ∧ i ∉ r.used ∧ i ∈ q.used ∧ g = (if r.gen i ≥ 0xFFFF then 1 else r.gen i + 1) ∧ g ≠ 0 ∧ q.gen i = g ∧
      (∀ j, j ≠ i → q.gen j = r.gen j) ∧ (r.fresh < quota → i = base + r.fresh) ∧ (r.fresh = quota → r.freed = i :: q.freed) ∧
      q.fresh ≤ quota ∧ (q.used ++ q.freed).Nodup ∧ (∀ j, j ∈ q.used ++ q.freed ↔ base ≤ j ∧ j < base + q.fresh)) ∧
    (∀ i, i ∈ r.used → (r.free i).freed = r.freed ++ [i] ∧ i ∉ (r.free i).used ∧ (r.free i).gen i = r.gen i)

/-- The list of results that settle carries out is the list of those that wait, none lost and none added, sorted by admission
order, and the results of one command keep the order in which the command left them; so of two commands that commit one tile at
the same settle the later admitted prevails. (02_strokes.md R65, R69) -/
def Obligations.CommitsTakeEffectInAdmissionOrder : Prop :=
  ∀ l : List PendingCommit, (byOrder l).Perm l ∧ (byOrder l).Pairwise (fun a b => a.order ≤ b.order) ∧
    ∀ o, (byOrder l).filter (fun c => c.order == o) = l.filter fun c => c.order == o

/-- The replies that a report phase writes for a function are exactly those due to it that no peer holds back, those of refused
packets before those of admitted commands, the latter by admission order. Writing one puts its 32 bytes at the tail, moves the
tail by one and frees the command's tag. The PHASE of an entry is 1 on the first pass after enable and inverts exactly when the
tail passes the end of the ring. (02_strokes.md R46; 03_command_packets.md R83, R103, R104, R105) -/
def Obligations.RepliesAreWrittenInAdmissionOrder : Prop :=
  (∀ (s : State) (f : Fn), (s.repliesOf f).Perm (s.replies.filter fun r => decide (r.cmd.fn = f) && !s.moveOpen r.cmd.order) ∧
      ∃ a b, s.repliesOf f = a ++ b ∧ (∀ r ∈ a, r.admitted = false) ∧ (∀ r ∈ b, r.admitted = true) ∧
        b.Pairwise (fun x y => x.cmd.order ≤ y.cmd.order)) ∧
    (∀ (s : State) (f : Fn) (b : OutRing → List Byte), (∀ r, (b r).length = 32) →
      (s.putReply f b).hostRead f ((s.fnOf f).rq.slot 32) 32 = b (s.fnOf f).rq ∧
      ((s.putReply f b).fnOf f).rq.tail = ((s.fnOf f).rq.tail + 1) % 2 ^ 32) ∧
    (∀ (s : State) (r : Reply), r.admitted = true →
      (((s.finishReply r).fnOf r.cmd.fn).tags) = ((s.fnOf r.cmd.fn).tags.free (r.cmd.tag % 2 ^ 14))) ∧
    ∀ r : OutRing, 6 ≤ r.sizeLog → r.sizeLog ≤ 16 → r.tail < 2 ^ 32 →
      (r.tail = 0 → r.phase = true) ∧ (r.push.phase = r.phase ↔ (r.tail + 1) % 2 ^ r.sizeLog ≠ 0)

/-- Every one of DEP_HOLD_LIMIT, SLOT_WAIT_LIMIT, DRAIN_LIMIT, DEFER_LIMIT_EXPIRY, HOST_READ_COMPLETION, COMPLETION_TIMEOUT
answers a next state in every state, whatever its operands; what that state holds: The limits of waiting complete with their own
effect, under these conditions alone. SLOT_WAIT_LIMIT of an unplanned command in its 64th stroke of waiting, or of a planned one
that holds no slot space then, answers the reply NO_RESOURCE; DEFER_LIMIT_EXPIRY of a deferrable command held for DEFER_LIMIT
strokes the reply DEFERRED; DEP_HOLD_LIMIT of a packet that intake stands at in its 256th stroke of holding consumes it with
DEP_FAILED and no tag, and intake goes on with its ring; HOST_READ_COMPLETION of a command's own read, in the run of its
compartment and with the link up, gives it its block, and one that fails or is poisoned completes it with PARAM_FETCH_FAIL, or
AUTH_FAIL for IDE; COMPLETION_TIMEOUT completes it with PARAM_FETCH_FAIL; DRAIN_LIMIT leaves no command whose drain has ended,
but for those never aborted and waits that have reached their stroke, and the reply of a drained command that still waits for a
peer reports no success. (03_command_packets.md R89, R93, R94, R110; 06_memory_tiers.md R228; 14_host_link.md R520;
15_power_states.md R536) -/
def Obligations.LimitEventsEndTheirCommands : Prop :=
  (∀ (s : State) (a : Nat) (b : Fn) (c : ReadOutcome),
    ∀ i ∈ ([.depHoldLimit b a, .slotWaitLimit a, .drainLimit, .deferLimitExpiry a, .hostReadCompletion a c, .completionTimeout a] : List Instr), ∃ t, exec i s =
      .next t) ∧
  (∀ (s : State) (o : Nat) (a : Adm), s.admOf o = some a → s.serving = true → s.stroke.phase = .plan → 64 ≤ a.slotWait →
      (a.planned = false ∨ ∀ r ∈ s.resv, r.order ≠ o) →
      exec (.slotWaitLimit o) s = .next (s.reply a.cmd a.op .noResource 0)) ∧
    (∀ (s : State) (o : Nat) (a : Adm), s.admOf o = some a → s.serving = true → s.stroke.phase = .plan → isDeferrable a.op = true →
      s.holdsDeferred = true → s.power.deferLimit ≤ a.heldStrokes → a.planned = false →
      exec (.deferLimitExpiry o) s = .next (s.reply a.cmd a.op .deferred 0)) ∧
    (∀ (s : State) (f : Fn) (n : Nat), s.serving = true → s.stroke.phase = .intake → s.atLimit f n = true →
      ∃ t, exec (.depHoldLimit f n) s = .next t ∧ ∃ r ∈ t.replies, r.status = Status.depFailed.code ∧ r.admitted = false ∧ r.cmd.fn = f ∧ r.cmd.tag = 0) ∧
    (∀ (s : State) (o addr len : Nat) (a : Adm) (b : List Byte), s.admOf o = some a → s.readable a = true → a.ref = some (addr, len) →
      (b.length = len → s.host.up = true → exec (.hostReadCompletion o (.data b)) s = .next (s.setBlock a b)) ∧
      exec (.hostReadCompletion o .error) s = .next (s.reply a.cmd a.op .paramFetchFail 0) ∧
      exec (.hostReadCompletion o .ide) s = .next (s.reply a.cmd a.op .authFail 0) ∧
      exec (.completionTimeout o) s = .next (s.reply a.cmd a.op .paramFetchFail 0)) ∧
    ∀ s : State, s.power.main = .service → s.stroke.phase = .settle →
      ∃ t, exec .drainLimit s = .next t ∧ t.stroke = s.stroke ∧
        ∀ a ∈ t.queue, a ∈ s.queue ∧ ((∃ e, a.drainEnd = some e ∧ e ≤ s.stroke.number) → s.waitReached a = true ∨ (a.drainShed = false ∧ neverAborted a.op = true)) ∧
        ∀ r ∈ t.replies, r.admitted = true → neverAborted r.op = false → (r.op = 0x0B02 → u8 r.cmd.block 1 ≠ 1) → s.moveOpen r.cmd.order = true →
          (∃ e, r.drainEnd = some e ∧ e ≤ s.stroke.number) → succeeded r.status = false

/-- Every one of RUN_START, GUARD_INTERVAL, QUANTUM_DONE, UNASSIGNED_UNITS answers a next state in every state, whatever its
operands; what that state holds: RUN_START of a compartment whose run is due (it has units, has not run in this stroke, every
run before it has ended, and no device-wide Hearth clear goes on) answers a next state in which, unless the device leaves
service, the compartment's run is under way, its guard interval not begun, and the phase is execute; a run that is not due does
not begin. GUARD_INTERVAL of the run under way, whatever quanta it cuts, begins the guard interval and adds the run's idle time,
at most what is left of its usable time, to IDLE_NS; in it nothing more of the compartment executes. QUANTUM_DONE of the run
under way under OPEN carries out quanta of the compartment that stand in admission order and fit; between members of an active
lending group, with time left for a change of borrower and the borrower's turn not past, it adds the time to the lender's
LENT_NS and the borrower's BORROWED_NS and carries out the borrower's quanta; and it does nothing without such a group.
UNASSIGNED_UNITS, where some unit is assigned to no compartment, ends the run under way, clears what the engines and Tongs hold
and carries out bulk quanta, in the execute phase. Each completes so for any list of quanta. (02_strokes.md R42, R43, R44, R51,
R52, R53, R55, R75) -/
def Obligations.RunEventsAccountForTheirTime : Prop :=
  (∀ (s : State) (a b c : Nat) (d : List RunItem),
    ∀ i ∈ ([.runStart a d, .guardInterval a d b, .quantumDone a b d c, .unassignedUnits d] : List Instr), ∃ t, exec i s = .next t) ∧
  (∀ (s : State) (k : Nat) (fin : List RunItem), s.executing = true → s.quench.deviceClearing = false → s.exists_ k = true →
      (s.comp k).slice.count ≠ 0 → k ∉ s.stroke.ran →
      (∀ j ∈ s.stroke.ran, (s.comp j).slice.first + (s.comp j).slice.count ≤ (s.comp k).slice.first) →
      ∃ t, exec (.runStart k fin) s = .next t ∧ t = ((s.enterExecute.beginRun k).runItems k fin).watchEvents ∧
        (t.power.main = .service → t.stroke.phase = .execute ∧ t.stroke.ran = s.stroke.ran ++ [k] ∧ t.stroke.current = some k ∧ t.stroke.guard = false)) ∧
    (∀ (s : State) (k : Nat) (fin : List RunItem), (s.quench.deviceClearing = true ∨ (s.comp k).slice.count = 0 ∨ k ∈ s.stroke.ran) →
      s.watch.raised = [] → exec (.runStart k fin) s = .next s) ∧
    (∀ (s : State) (k idle : Nat) (cut : List RunItem), s.inRun k = true →
      ∃ t, exec (.guardInterval k cut idle) s = .next t ∧ (t.power.main = .service → t.stroke.guard = true ∧ t.inRun k = false ∧ t.stroke.ran = s.stroke.ran) ∧
        (cut = [] → s.calm → t = { (s.bump k .idleNs (min idle s.leftNs)) with stroke := { s.stroke with guard := true } })) ∧
    (∀ (s : State) (a b used : Nat) (fin : List RunItem), s.inRun a = true → a ≠ b → s.mayBorrow a b = true → s.changeNs b ≤ s.leftNs →
      ∃ t, exec (.quantumDone a b fin used) s = .next t ∧
        (t.power.main = .service → t.stroke.borrower = some b ∧ t.stroke.current = some a) ∧
        (fin = [] → s.calm → t = (((s.lendTo b).bump a .lentNs (min used (s.lendTo b).leftNs)).bump b .borrowedNs (min used (s.lendTo b).leftNs)))) ∧
    (∀ (s : State) (a b used : Nat) (fin : List RunItem), a ≠ b → s.lends a b = false → s.watch.raised = [] →
      exec (.quantumDone a b fin used) s = .next s) ∧
    (∀ (s : State) (a used : Nat) (fin : List RunItem), s.inRun a = true → (s.comp a).slice.openFill = true → s.stroke.borrower = none →
      exec (.quantumDone a a fin used) s = .next (s.runItems a (inOrder 0 fin)).watchEvents) ∧
    (∀ (s : State) (k : Nat) (x : RunItem), s.leftNs < x.ns → s.fitItem k x = s) ∧
    ∀ (s : State) (fin : List RunItem), s.executing = true → s.unassigned ≠ 0 →
      exec (.unassignedUnits fin) s = .next (fin.foldl (State.runItem .pf s.bulkRuns) s.enterExecute.endRun.switchInterval).watchEvents ∧
      s.enterExecute.endRun.switchInterval.stroke.phase = .execute ∧ s.enterExecute.endRun.switchInterval.tongs = [] ∧
      s.enterExecute.endRun.switchInterval.anvils = []

/-- Quenching compartment k leaves k without tensors, buffers, streams, variants, delivered keys, signal words and counters,
without an admitted command of its function but those never aborted, and keyed anew where the entropy source is good, UNKEYED
where it is not; nothing of it stays in the engines, their SRAM and the Tongs, and no result of it waits for settle but a quench; its shares, index ranges, next addresses, run, claim and serving policy are kept, its EPOCH goes up by one modulo 256 and the
old one awaits zeroing. Every other compartment is exactly as before, and every other function but for its counters.
(12_compartments_and_quench.md R457, R463, Table 12.1; 11_crucible_and_keys.md R432) -/
def Obligations.QuenchClearsOneCompartment : Prop :=
  ∀ (s : State) (k : Nat) (replies : Bool),
    let t := s.quenchComp k replies
    let x := s.comp k
    let y := t.comp k
    (y.tensors = [] ∧ y.buffers = [] ∧ y.streams = [] ∧ y.variants = [] ∧ y.keys = [] ∧ y.words = [] ∧ y.ctrs = [] ∧ y.trace = none) ∧
    (y.st = (if x.st = .changing then .changing else .quenching) ∧ y.clearing = true ∧ y.epoch = (x.epoch + 1) % 256 ∧ x.epoch ∈ y.zeroing) ∧
    (y.hearthUnits = x.hearthUnits ∧ y.hbmGib = x.hbmGib ∧ y.tagQuota = x.tagQuota ∧ y.streamQuota = x.streamQuota ∧
      y.domainQuota = x.domainQuota ∧ y.keyQuota = x.keyQuota ∧ y.slice = x.slice ∧ y.claim = x.claim ∧ y.policy = x.policy) ∧
    (∀ a ∈ t.queue, a.cmd.fn = .vf k → neverAborted a.op = true) ∧ (∀ c ∈ t.commits, c.fn = .vf k → c.what.lasting = true) ∧
    (∀ w ∈ t.works, w.comp ≠ k) ∧ (∀ p ∈ t.tongs, p.2.comp ≠ k) ∧ (∀ x ∈ t.sram, x.comp ≠ k) ∧ (y.tabNext = x.tabNext ∧ y.bufNext = x.bufNext ∧ y.idNext = x.idNext) ∧
    (∀ w ∈ t.wordStores, w.comp ≠ k) ∧
    (if s.dawn.entropyOk then y.compKey.isSome ∧ y.hearthKey.isSome ∧ y.unkeyed = false else y.compKey = none ∧ y.hearthKey = none ∧ y.unkeyed = true) ∧
    (∀ j, j ≠ k → t.comp j = s.comp j) ∧ (∀ f, f ≠ .vf k → { t.fnOf f with counters := (s.fnOf f).counters } = s.fnOf f) ∧ t.bases = s.bases ∧ t.hostMem = s.hostMem

/-- An admitted CERT.READ or ATTEST.REPORT with legal fields completes with OK, the whole chain or report as its record and its
length in DETAIL, where BUFFER_LEN allows it; otherwise with OK_NOTE, the length needed in DETAIL and no record. An admitted
SESSION.QUERY completes with OK and the record of the session that its function has, with OK_NOTE and a record that holds the
identifier asked for where it has none. (11_crucible_and_keys.md R420, R421, R442, R444) -/
def Obligations.ReadsOfCertificatesAndSessions : Prop :=
  (∀ (c : Cmd) (s : State), s.admits 0x0201 c → c.block.length = 16 → u8 c.block 0 ≤ 1 → zeroAt c.block 1 3 = true →
      64 ≤ u32 c.block 4 → u32 c.block 4 ≤ 65536 → u32 c.block 4 % 64 = 0 → u64 c.block 8 % 64 = 0 →
      exec (.certRead c) s = .next (if u32 c.block 4 < (Config.certChain (u8 c.block 0)).length
        then s.reply c 0x0201 .okNote (Config.certChain (u8 c.block 0)).length
        else (s.record c.fn (u64 c.block 8) (Config.certChain (u8 c.block 0))).reply c 0x0201 .ok (Config.certChain (u8 c.block 0)).length)) ∧
    (∀ (c : Cmd) (s : State) (r : List Byte), s.admits 0x0202 c → c.block.length = 48 → u64 c.block 32 % 64 = 0 → u32 c.block 44 = 0 →
      64 ≤ u32 c.block 40 → u32 c.block 40 ≤ 65536 → u32 c.block 40 % 64 = 0 →
      r = s.attestRecord c.fn (c.block.take 32) (s.report c.fn) →
      exec (.attestReport c) s = .next (if u32 c.block 40 < r.length then s.reply c 0x0202 .okNote r.length
        else (s.record c.fn (u64 c.block 32) r).reply c 0x0202 .ok r.length)) ∧
    ∀ (c : Cmd) (s : State), s.admits 0x0203 c → c.block.length = 16 → zeroAt c.block 4 4 = true → u64 c.block 8 % 64 = 0 →
      ((∀ y ∈ (s.fnOf c.fn).sessions, y.id ≠ u32 c.block 0) →
        ∃ b, exec (.sessionQuery c) s = .next ((s.record c.fn (u64 c.block 8) b).reply c 0x0203 .okNote 0) ∧ u32 b 0 = u32 c.block 0) ∧
      (∀ y, ((s.fnOf c.fn).sessions.find? fun y => y.id == u32 c.block 0) = some y →
        exec (.sessionQuery c) s = .next ((s.record c.fn (u64 c.block 8) (padTo 128
          (layout 16 [(0, 4, y.id), (4, 1, if y.established then 2 else 1), (5, 1, bitNum y.mutualAuth + 2 * bitNum y.tenantAuth), (8, 8, y.blobSeq)] ++
            padTo 48 y.th2 ++ (tenantDigest (s.compOf c.fn) ++ [BitVec.ofNat 8 (bitNum (s.compOf c.fn).claimed)])))).reply c 0x0203 .ok 0))

/-- An admitted TENANT.CLAIM with a point on P-384, an established session and an unclaimed compartment leaves the claim with
the digest of both keys; KEY.POLICY of a live VARIANT key leaves its ROTATE setting; KEY.ROTATE of a key that can take a
generation, with a good entropy source for the compartment key, leaves the rotation; KEY.DESTROY of a live key that nothing uses
and no earlier command names leaves the erasure, and with something using it completes with KEY_IN_USE. Each completes with OK
and changes no key itself before settle. (11_crucible_and_keys.md R417, R432, R435, R442, R443) -/
def Obligations.ClaimAndKeyCommandsCommitAtSettle : Prop :=
  (∀ (c : Cmd) (s : State) (k : Nat), s.admits 0x0204 c → c.fn = .vf k → c.block.length = 2752 → zeroAt c.block 4 4 = true →
      zeroAt c.block 105 7 = true → zeroAt c.block 2704 48 = true → p384Point ((c.block.drop 8).take 97) = true →
      (s.session c.fn (u32 c.block 0)).isSome = true → (s.comp k).claim = none → s.claimDue k = false →
      exec (.tenantClaim c) s = .next ((s.commit c (.claim k ⟨(c.block.drop 8).take 97, (c.block.drop 112).take 2592,
        sha384 ((c.block.drop 8).take 97 ++ (c.block.drop 112).take 2592)⟩)).reply c 0x0204 .ok 0)) ∧
    (∀ (c : Cmd) (s : State) (k : Nat) (e : KeyEntry), s.admits 0x0212 c → c.fn = .vf k → c.block.length = 8 → keyHandleKind (u16 c.block 0) = 2 →
      u8 c.block 2 ≤ 1 → zeroAt c.block 3 5 = true → s.liveKey c (u16 c.block 0) = some e →
      exec (.keyPolicy c) s = .next ((s.commit c (.keyPolicy k (keyHandleIndex (u16 c.block 0)) (u8 c.block 2 == 1))).reply c 0x0212 .ok 0)) ∧
    (∀ (c : Cmd) (s : State) (k : Nat) (e : KeyEntry), s.admits 0x0213 c → c.fn = .vf k → c.block.length = 8 →
      (u16 c.block 0 = 0 ∨ keyHandleKind (u16 c.block 0) = 2) → zeroAt c.block 2 6 = true → s.liveKey c (u16 c.block 0) = some e →
      (e.kind ≠ 0 ∨ s.dawn.entropyOk = true) → e.full = false →
      exec (.keyRotate c) s = .next ((s.commit c (.keyRotate k (u16 c.block 0))).reply c 0x0213 .ok 0)) ∧
    ∀ (c : Cmd) (s : State) (e : KeyEntry) (h : Nat), s.admits 0x0214 c → c.block.length = 8 → h = u16 c.block 0 → 1 ≤ keyHandleKind h →
      keyHandleKind h ≤ 3 → zeroAt c.block 2 6 = true → kindAllowed c.fn (keyHandleKind h) = true → s.keyEntry c.fn h = some e →
      (e.destroying = none ∨ e.destroying = some c.order) → (s.queue.any fun a => decide (a.cmd.order < c.order) && namesKey c.fn h a) = false →
      ((s.markKey c.fn h (some c.order)).keyInUse c.fn h = false →
        exec (.keyDestroy c) s = .next (((s.markKey c.fn h (some c.order)).commit c (.keyDestroy h)).reply c 0x0214 .ok 0)) ∧
      ((s.markKey c.fn h (some c.order)).keyInUse c.fn h = true →
        exec (.keyDestroy c) s = .next (((s.markKey c.fn h (some c.order)).markKey c.fn h none).reply c 0x0214 .keyInUse 0))

/-- An admitted KEY.DELIVER in PROVISIONED or DEPLOYED completes with AUTH_FAIL where the session is not established, a tenant
key comes outside a tenant-authenticated session, the tag does not verify or BLOB_SEQ does not rise; with NOT_PERMITTED where
KIND or COMPARTMENT does not match the function; with NO_RESOURCE where the table is full; and otherwise with OK: the session
remembers BLOB_SEQ, the key waits for settle at the lowest free index, and the record gives its handle, SEALER_BASE and KEY_ID.
In another lifecycle state it completes with NOT_PERMITTED. (11_crucible_and_keys.md R425, R426, R427, Table 11.7, Table 11.8)
-/
def Obligations.KeyDeliverChecksInTheirOrder : Prop :=
  ∀ (c : Cmd) (s : State) (blob : List Byte), s.admits 0x0210 c → c.block.length = 128 → u64 c.block 0 % 64 = 0 → zeroAt c.block 8 8 = true →
    blob = c.block.drop 16 →
    (s.dawn.lifecycle ≠ 2 → s.dawn.lifecycle ≠ 3 → exec (.keyDeliver c) s = .next (s.reply c 0x0210 .notPermitted 0)) ∧
    ((s.dawn.lifecycle = 2 ∨ s.dawn.lifecycle = 3) →
      (s.session c.fn (u32 blob 4) = none → exec (.keyDeliver c) s = .next (s.reply c 0x0210 .authFail 0)) ∧
      ∀ y, s.session c.fn (u32 blob 4) = some y →
        ((u8 blob 1 = 2 ∨ u8 blob 1 = 3) → y.tenantAuth = false → exec (.keyDeliver c) s = .next (s.reply c 0x0210 .authFail 0)) ∧
        (openBlob y blob = none → exec (.keyDeliver c) s = .next (s.reply c 0x0210 .authFail 0)) ∧
        (∀ key, openBlob y blob = some key → ((u8 blob 1 ≠ 2 ∧ u8 blob 1 ≠ 3) ∨ y.tenantAuth = true) →
          (u64 blob 24 ≤ y.blobSeq → exec (.keyDeliver c) s = .next (s.reply c 0x0210 .authFail 0)) ∧
          (y.blobSeq < u64 blob 24 → blobMatches c.fn (u8 blob 1) (u8 blob 2) = false →
            exec (.keyDeliver c) s = .next (s.reply c 0x0210 .notPermitted 0)) ∧
          (y.blobSeq < u64 blob 24 → blobMatches c.fn (u8 blob 1) (u8 blob 2) = true → u8 blob 0 = 1 → u8 blob 3 = 0 →
            sealerValid (u8 blob 1) (u32 blob 8) = true → zeroAt blob 12 4 = true → zeroAt blob 32 32 = true →
            (s.freeKeyIndex c.fn = none → exec (.keyDeliver c) s = .next (s.reply c 0x0210 .noResource 0)) ∧
            ∀ i, s.freeKeyIndex c.fn = some i → ∃ t, exec (.keyDeliver c) s = .next t ∧ Answered s t c 0x0210 .ok 0 ∧
              t.records = s.records ++ [⟨c.fn, u64 c.block 0,
                layout 64 [(0, 2, keyHandle (u8 blob 1) i), (4, 4, u32 blob 8), (8, 8, u64 blob 16)]⟩] ∧
              (∃ e, t.commits = s.commits ++ [{ fn := c.fn, order := c.order, what := .keyDeliver i e }] ∧ e.gens = [{ gen := 0, key := key }] ∧
                e.kind = u8 blob 1 ∧ e.sealerBase = u32 blob 8) ∧
              (∀ z ∈ (t.fnOf c.fn).sessions, z.id = y.id → z.blobSeq = u64 blob 24) ∧ t.comps = s.comps ∧ t.baseKeys = s.baseKeys)))

/-- An admitted KEY.QUERY of a live key of a kind the function may name completes with OK and the record of Table 11.13, which
shows no key bytes: it is the same whatever the keys of its generations are. A kind the function may not name completes with
NOT_PERMITTED, a handle with no live key with KEY_ABSENT. (11_crucible_and_keys.md R425, R430, R444, Table 11.13) -/
def Obligations.KeyQueryShowsTheKey : Prop :=
  ∀ (c : Cmd) (s : State) (h : Nat), s.admits 0x0211 c → c.block.length = 16 → zeroAt c.block 2 6 = true → u64 c.block 8 % 64 = 0 →
    h = u16 c.block 0 → keyHandleKind h ≤ 3 → (keyHandleKind h ≠ 0 ∨ h = 0) →
    (kindAllowed c.fn (keyHandleKind h) = false → exec (.keyQuery c) s = .next (s.reply c 0x0211 .notPermitted 0)) ∧
    (kindAllowed c.fn (keyHandleKind h) = true → s.liveKey c h = none → exec (.keyQuery c) s = .next (s.reply c 0x0211 .keyAbsent 0)) ∧
    (∀ e, kindAllowed c.fn (keyHandleKind h) = true → s.liveKey c h = some e →
      exec (.keyQuery c) s = .next ((s.record c.fn (u64 c.block 8) (padTo 128
        (layout 64 [(0, 2, h), (2, 1, e.kind), (3, 1, bitNum e.rotate + 2 * bitNum e.destroying.isSome), (4, 4, e.sealerBase),
          (8, 8, e.keyId), (16, 4, e.newest.gen), (20, 1, e.gens.length), (24, 8, e.newest.count), (32, 8, 2 ^ 40), (40, 8, e.rotations),
          (48, 8, e.exhaustions)] ++
         e.gens.flatMap fun g => layout 16 [(0, 4, g.gen), (4, 4, e.sealerId g.gen), (8, 8, g.live)]))).reply c 0x0211 .ok 0))

/-- Take a key of a compartment whose generations rise. A seal under it uses the newest generation and a count of 1 to 2^40. The
next seal under it either uses the same generation and the next count, or, the count having reached 2^40 and ROTATE being set,
the next generation with count 1. So no pair of generation and count is ever used twice. (11_crucible_and_keys.md R429, R430,
R433) -/
def Obligations.SealCountsNeverRepeat : Prop :=
  ∀ (s t u : State) (k h : Nat) (e : KeyEntry) (x y : Seal), s.keyEntry (.vf k) h = some e → e.gens ≠ [] →
    e.gens.Pairwise (fun a b => a.gen < b.gen) → e.newest.count ≤ 2 ^ 40 → s.seal k h = (t, .ok x) → t.seal k h = (u, .ok y) →
    (1 ≤ x.count ∧ x.count ≤ 2 ^ 40) ∧ (1 ≤ y.count ∧ y.count ≤ 2 ^ 40) ∧
    ((y.gen = x.gen ∧ y.count = x.count + 1) ∨ (y.gen = x.gen + 1 ∧ y.count = 1 ∧ x.count = 2 ^ 40)) ∧
    ((x.gen = e.newest.gen ∧ x.count = e.newest.count + 1) ∨ (x.gen = e.newest.gen + 1 ∧ x.count = 1 ∧ e.newest.count = 2 ^ 40))

/-- For MEM.CONFIG, TENSOR.CREATE, BUFFER.CREATE, MEM.FREE, MEM.QUERY, TENSOR.PLACE and TENSOR.IMPORT of a compartment,
admitted: whatever status the command's work ends with, exec answers the next state of that work with that reply, and the work
leaves every other compartment and function, every tile's contents, the base slots and host memory as they were, and adds only
results and records of its own. (06_memory_tiers.md R210, R229, R244, R246, R248, R249, R250; 02_strokes.md R65, R69) -/
def Obligations.MemoryCommandsEndAsTheirWorkEnds : Prop :=
  ∀ (c : Cmd) (k : Nat) (s : State), c.fn = .vf k →
    Ends (.memConfig c) 0x0301 c k s (opMemConfig c s) ∧ Ends (.tensorCreate c) 0x0302 c k s (opTensorCreate c s) ∧
    Ends (.bufferCreate c) 0x0303 c k s (opBufferCreate c s) ∧ Ends (.memFree c) 0x0304 c k s (opMemFree c s) ∧
    Ends (.memQuery c) 0x0305 c k s (opMemQuery c s) ∧ Ends (.tensorPlace c) 0x0306 c k s (opTensorPlace c s) ∧
    Ends (.tensorImport c) 0x0307 c k s (opTensorImport c s)

/-- An admitted MEM.CONFIG with legal fields, no host window in force and none pending leaves its setting pending for the
boundary. BUFFER.CREATE with a legal length and room takes the next buffer address and the next identifier, leaves the buffer
for settle and records its address. MEM.FREE of a live tensor that the tenant owns marks it closing and leaves the erasure for
settle. TENSOR.PLACE that changes CACHE alone leaves it pending for the boundary. MEM.QUERY records the space in use and the
counters. (06_memory_tiers.md R210, R211, R218, R244, R245, R246, R247, R248, R250) -/
def Obligations.MemoryObjectsAreMadeAndFreed : Prop :=
  (∀ (c : Cmd) (s : State) (k : Nat), s.admits 0x0301 c → c.fn = .vf k → c.block.length = 24 → u8 c.block 0 ≤ 1 → u8 c.block 1 ≤ 16 →
      zeroAt c.block 2 6 = true → u64 c.block 8 = 0 → u64 c.block 16 = 0 → (s.comp k).windowAhead = none →
      exec (.memConfig c) s = .next ((s.modComp k fun x =>
        { x with memPending := x.memPending ++ [(⟨u8 c.block 0 == 1, u8 c.block 1⟩, none)] }).reply c 0x0301 .ok 0)) ∧
    (∀ (c : Cmd) (s : State) (k n : Nat), s.admits 0x0303 c → c.fn = .vf k → c.block.length = 24 → n = u64 c.block 0 → 64 ≤ n → n ≤ 2 ^ 36 →
      n % 64 = 0 → u8 c.block 8 ≤ 1 → zeroAt c.block 9 7 = true → u64 c.block 16 % 64 = 0 →
      s.spaceFree k c.order (Buffer.space { id := 0, len := n, home := u8 c.block 8 }) = true →
      (s.comp k).bufNext + 2097152 * ceilDiv n 2097152 ≤ 0x1000000000000 →
      ∃ t, exec (.bufferCreate c) s = .next t ∧ Answered s t c 0x0303 .ok 0 ∧
        t.commits = s.commits ++ [⟨c.fn, c.order, .bufferNew k (s.comp k).bufNext { id := (s.comp k).idNext, len := n, home := u8 c.block 8 }⟩] ∧
        t.records = s.records ++ [⟨c.fn, u64 c.block 16, layout 64 [(0, 8, (s.comp k).bufNext)]⟩] ∧
        (t.comp k).bufNext = (s.comp k).bufNext + 2097152 * ceilDiv n 2097152 ∧ (t.comp k).idNext = ((s.comp k).idNext + 1) % 2 ^ 64) ∧
    (∀ (c : Cmd) (s : State) (k a : Nat) (t : Tensor), s.admits 0x0304 c → c.fn = .vf k → c.block.length = 8 → a = u64 c.block 0 → a < 2 ^ 48 →
      Tab.find? (s.comp k).tensors a = some t → liveFor t.closing c = true → t.owner = 3 →
      exec (.memFree c) s = .next (((s.modComp k fun x => { x with tensors := Tab.set x.tensors a { t with closing := some c.order } }).commit c
        (.memFree k a)).reply c 0x0304 .ok 0)) ∧
    (∀ (c : Cmd) (s : State) (k a : Nat) (t : Tensor), s.admits 0x0306 c → c.fn = .vf k → c.block.length = 16 → a = u64 c.block 0 → a < 2 ^ 48 →
      Tab.find? (s.comp k).tensors a = some t → liveFor t.closing c = true → t.base = none → t.home = u8 c.block 8 → t.peer = u8 c.block 10 →
      (t.home = 1 ∨ t.home = 2) → t.peer = 0 → u8 c.block 9 ≤ 3 → zeroAt c.block 11 5 = true →
      exec (.tensorPlace c) s = .next ((s.modComp k fun x => { x with placePending := x.placePending ++ [(a, u8 c.block 9)] }).reply c 0x0306 .ok 0)) ∧
    ∀ (c : Cmd) (s : State) (k : Nat), s.admits 0x0305 c → c.fn = .vf k → c.block.length = 8 → u64 c.block 0 % 64 = 0 →
      ∃ b, exec (.memQuery c) s = .next ((s.record c.fn (u64 c.block 0) b).reply c 0x0305 .ok 0) ∧ b.length = 128 ∧
        u64 b 0 = (s.spaceUsed k (2 ^ 64)).1 % 2 ^ 64 ∧ u64 b 16 = (s.spaceUsed k (2 ^ 64)).2.1 % 2 ^ 64 ∧
        u64 b 48 = ctrGet (s.comp k).ctrs .unwrittenReads % 2 ^ 64

/-- However an admitted TENSOR.EXPORT ends, the next state holds its reply; every byte of host memory of every other function,
and every byte of its own function outside the images of the tiles it names from IMAGE_ADDR on, reads as before, and every tile
of every tensor holds what it held. (06_memory_tiers.md R244, R249) -/
def Obligations.TensorExportStoresOnlyItsImages : Prop :=
  ∀ (c : Cmd) (k : Nat) (s s' : State) (st : Status) (d : Nat) (t : Tensor), s.admits 0x0308 c → c.fn = .vf k →
    opTensorExport c s = .ok (.done s' st d) → Tab.find? (s.comp k).tensors (u64 c.block 0) = some t →
    exec (.tensorExport c) s = .next ((s.framed 0x0308 s').reply c 0x0308 st d) ∧ (∀ j a n, s'.contents j a n = s.contents j a n) ∧
    (∀ f a, (f ≠ .vf k ∨ a < u64 c.block 8 ∨ u64 c.block 8 + u32 c.block 20 * imageBytes t.fmt ≤ a) →
      Mem.read (Tab.get [] s'.hostMem (fnKey f)) a = Mem.read (Tab.get [] s.hostMem (fnKey f)) a)

/-- An admitted NUMERIC.CONFIG or SCALE.HIST.SET with legal fields completes with OK and leaves its setting pending, the
settings in force unchanged, of two that wait the one admitted later (log 115); at the boundary the numeric settings take effect. NUMERIC.QUERY, ENGINE.QUERY and RAND.QUERY
complete with OK and one record of their counters, and SCALE.HIST.READ of a slot that is not set with OK_NOTE and a record of
zeros, of one that is set with OK. (04_number_formats.md R155, R156, R157, R158; 05_anvil_engines.md R204; 10_random_bits.md
R405) -/
def Obligations.NumericSettingsWaitForTheBoundary : Prop :=
  (∀ (c : Cmd) (s : State) (k : Nat), s.admits 0x0440 c → c.fn = .vf k → c.block.length = 8 → (u8 c.block 0 = 1 ∨ u8 c.block 0 = 2) →
      (u8 c.block 1 = 1 ∨ u8 c.block 1 = 2) → u32 c.block 2 ≤ 65536 → u8 c.block 6 ≤ 8 → u8 c.block 7 = 0 →
      exec (.numericConfig c) s = .next ((s.modComp k fun x => { x with numPending := match x.numPending with
        | some p => if c.order < p.1 then some p else some (c.order, ⟨u8 c.block 0 == 2, u8 c.block 1 == 1, u32 c.block 2, u8 c.block 6⟩)
        | none => some (c.order, ⟨u8 c.block 0 == 2, u8 c.block 1 == 1, u32 c.block 2, u8 c.block 6⟩) }).reply c 0x0440 .ok 0)) ∧
    (∀ (s : State) (k o : Nat) (x : NumCfg), (s.comp k).numPending = some (o, x) →
      ((s.applyNumeric k).comp k).num = x ∧ ((s.applyNumeric k).comp k).numPending = none) ∧
    (∀ (c : Cmd) (s : State) (k : Nat), s.admits 0x0442 c → c.fn = .vf k → c.block.length = 16 → u16 c.block 0 ≤ 4095 → u8 c.block 5 = 1 →
      zeroAt c.block 6 2 = true → zeroAt c.block 12 4 = true →
      exec (.scaleHistSet c) s = .next ((s.modComp k fun x => { x with histPending := x.histPending ++ [⟨u16 c.block 0, c.order, none⟩] }).reply c 0x0442 .ok 0)) ∧
    (∀ (c : Cmd) (s : State) (k : Nat), c.fn = .vf k → c.block.length = 8 → u64 c.block 0 % 64 = 0 →
      (s.admits 0x0441 c → ∃ b, exec (.numericQuery c) s = .next ((s.record c.fn (u64 c.block 0) b).reply c 0x0441 .ok 0) ∧ b.length = 64 ∧
        u64 b 0 = ctrGet (s.comp k).ctrs .elemsEncoded % 2 ^ 64 ∧ u64 b 56 = ctrGet (s.comp k).ctrs .srElems % 2 ^ 64) ∧
      (s.admits 0x0406 c → ∃ b, exec (.engineQuery c) s = .next ((s.record c.fn (u64 c.block 0) b).reply c 0x0406 .ok 0) ∧ b.length = 64 ∧
        u64 b 0 = ctrGet (s.comp k).ctrs .steps % 2 ^ 64 ∧ u64 b 56 = ctrGet (s.comp k).ctrs .routeNanLogits % 2 ^ 64) ∧
      (s.admits 0x0902 c → ∃ b, exec (.randQuery c) s = .next ((s.record c.fn (u64 c.block 0) b).reply c 0x0902 .ok 0) ∧ b.length = 64 ∧
        u64 b 0 = ctrGet (s.comp k).ctrs .randCommands % 2 ^ 64 ∧ u64 b 32 = ctrGet (s.comp k).ctrs .maskZeros % 2 ^ 64)) ∧
    ∀ (c : Cmd) (s : State) (k : Nat), s.admits 0x0443 c → c.fn = .vf k → c.block.length = 16 → u16 c.block 0 ≤ 4095 → zeroAt c.block 2 6 = true →
      u64 c.block 8 % 64 = 0 →
      (Tab.find? (s.comp k).hist (u16 c.block 0) = none →
        exec (.scaleHistRead c) s = .next ((s.record c.fn (u64 c.block 8) (layout 128 [])).reply c 0x0443 .okNote 0)) ∧
      (∀ h, Tab.find? (s.comp k).hist (u16 c.block 0) = some h →
        ∃ b, exec (.scaleHistRead c) s = .next ((s.record c.fn (u64 c.block 8) b).reply c 0x0443 .ok 0) ∧ u32 b 0 = h.d % 2 ^ 32 ∧ u8 b 4 = h.fmt % 256 ∧
          u8 b 7 = 1)

/-- For the computing commands of a compartment, admitted: whatever status the command's work ends with, exec answers the next
state of that work with that reply; its outputs wait for settle, so every tile of every tensor holds what it held, and no other
compartment, function, base slot or host memory has changed. (05_anvil_engines.md R161, R195, R196, R199, R200, R201, R202,
R203; 08_sequence_mixing.md R308, R312, R321, R330; 10_random_bits.md R402; 02_strokes.md R65, R69) -/
def Obligations.ComputeCommandsEndAsTheirWorkEnds : Prop :=
  ∀ (c : Cmd) (k : Nat) (s : State), c.fn = .vf k →
    Ends (.matmul c) 0x0401 c k s (opMatmul c s) ∧ Ends (.conv c) 0x0402 c k s (opConv c s) ∧ Ends (.scan c) 0x0403 c k s (opScan c s) ∧
    Ends (.moeRoute c) 0x0404 c k s (opMoeRoute c s) ∧ Ends (.moeMatmul c) 0x0405 c k s (opMoeMatmul c s) ∧
    Ends (.attend c) 0x0510 c k s (opAttention false c s) ∧ Ends (.attendMat c) 0x0511 c k s (opAttention true c s) ∧
    Ends (.linmix c) 0x0512 c k s (opLinmix c s) ∧ Ends (.variantMatmul c) 0x0620 c k s (opVariantMatmul c s) ∧
    Ends (.randGen c) 0x0901 c k s (opRandGen c s)

/-- For the stream commands, BASE.ATTACH and BASE.DETACH, the VARIANT commands that do not switch, and TRAIN.OPEN, CONFIG,
QUERY, STEP, CHECKPOINT, PUBLISH and IMPORT, FEEDBACK.SUBMIT and FEEDBACK.TAKE, each of a compartment and admitted: whatever
status the command's work ends with, exec answers the next state of that work with that reply; every tile of every tensor holds
what it held, no other compartment, function, base slot or host memory has changed, and what the command leaves for settle and
for the report is its own. (07_base_and_variants.md R267, R272, R275, R279, R280, R281, R298; 08_sequence_mixing.md R305, R311,
R341; 09_continuous_adaptation.md R345, R355, R368, R375, R379, R385, R386, R389; 02_strokes.md R65, R69) -/
def Obligations.ServingCommandsEndAsTheirWorkEnds : Prop :=
  ∀ (c : Cmd) (k : Nat) (s : State), c.fn = .vf k →
    (Ends (.streamOpen c) 0x0501 c k s (opStreamOpen c s) ∧ Ends (.streamClose c) 0x0502 c k s (opStreamClose c s) ∧
      Ends (.streamQuery c) 0x0503 c k s (opStreamQuery c s) ∧ Ends (.kvAppend c) 0x0504 c k s (opKvAppend c s) ∧
      Ends (.kvTruncate c) 0x0505 c k s (opKvTruncate c s) ∧ Ends (.mixQuery c) 0x0506 c k s (opMixQuery c s)) ∧
    (Ends (.baseAttach c) 0x0604 c k s (opBaseAttach c s) ∧ Ends (.baseDetach c) 0x0605 c k s (opBaseDetach c s) ∧
      Ends (.variantRegister c) 0x0610 c k s (opVariantRegister c s) ∧ Ends (.variantLoad c) 0x0611 c k s (opVariantLoad c s) ∧
      Ends (.variantReside c) 0x0612 c k s (opVariantReside c s) ∧ Ends (.variantPark c) 0x0613 c k s (opVariantPark c s) ∧
      Ends (.variantMode c) 0x0615 c k s (opVariantMode c s) ∧ Ends (.variantRebase c) 0x0616 c k s (opVariantRebase c s) ∧
      Ends (.variantUnregister c) 0x0618 c k s (opVariantUnregister c s) ∧ Ends (.variantQuery c) 0x0619 c k s (opVariantQuery c s)) ∧
    (Ends (.trainOpen c) 0x0701 c k s (opTrainOpen c s) ∧ Ends (.trainConfig c) 0x0703 c k s (opTrainConfig c s) ∧
      Ends (.trainQuery c) 0x0704 c k s (opTrainQuery c s) ∧ Ends (.feedbackSubmit c) 0x0710 c k s (opFeedbackSubmit c s) ∧
      Ends (.feedbackTake c) 0x0711 c k s (opFeedbackTake c s) ∧ Ends (.trainStep c) 0x0720 c k s (opTrainStep c s) ∧
      Ends (.trainCheckpoint c) 0x0721 c k s (opTrainCheckpoint c s) ∧ Ends (.trainPublish c) 0x0722 c k s (opTrainPublish c s) ∧
      Ends (.trainImport c) 0x0724 c k s (opTrainImport c s))

/-- Each COLD_PAGE_MOVE answers a next state in every state, whatever its operands; what that state holds: An append of
n tokens to a layer of length L without a ring flushes the pages L/256 to (L+n)/256 - 1; with a ring of r pages, those of them
that are among the last r. An admitted KV.TRUNCATE of one layer of a live stream, with no earlier change of that stream waiting,
completes with OK and leaves the new length for settle where the length lies between the last page boundary and the layer's
length, and with KV_PAGE_SEALED below that boundary; at settle the layer then has that length and its pages as before. MIX.QUERY
completes with its record. COLD_PAGE_MOVE changes nothing where no page of the stream is due, and in the settle phase of a
stroke in which the compartment ran moves the page that is due to the host window, counted, where forges run and the window has
room; stated here for a page with no written tile. (08_sequence_mixing.md R311, R315, R317, R318, R320, R342) -/
def Obligations.LayersGrowByPagesAndShrinkWithinTheOpenPage : Prop :=
  (∀ (s : State) (a b c d : Nat), ∃ t, exec (.coldPageMove a b c d) s = .next t) ∧
  (∀ ring len n j, j ∈ flushPages ring len n ↔ len / 256 ≤ j ∧ j < (len + n) / 256 ∧ (ring = 0 ∨ (len + n) / 256 ≤ j + ring)) ∧
    (∀ (c : Cmd) (s : State) (k li len : Nat) (st : StreamCtx) (l : KvLayer), s.admits 0x0505 c → c.fn = .vf k → c.block.length = 16 →
      s.streamOf k c.stream c = some st → li = u16 c.block 0 → st.layers[li]? = some l → len = u64 c.block 8 → zeroAt c.block 2 6 = true →
      s.kvPending k st.handle c.order = false → li ≠ 0xFFFF →
      (len ≤ l.len → l.len - l.len % 256 ≤ len →
        exec (.kvTruncate c) s = .next ((s.commit c (.kvLayer k st.handle li len [] [])).reply c 0x0505 .ok 0)) ∧
      (len < l.len - l.len % 256 → exec (.kvTruncate c) s = .next (s.reply c 0x0505 .kvPageSealed 0))) ∧
    (∀ (s : State) (k h li len : Nat) (st : StreamCtx) (l : KvLayer), Tab.find? (s.comp k).streams h = some st → st.layers[li]? = some l →
      Tab.find? ((s.commitLayer k h li len [] []).comp k).streams h = some { st with layers := st.layers.set li { l with len } }) ∧
    (∀ (c : Cmd) (s : State) (k : Nat), s.admits 0x0506 c → c.fn = .vf k → c.block.length = 8 → u64 c.block 0 % 64 = 0 →
      ∃ b, exec (.mixQuery c) s = .next ((s.record c.fn (u64 c.block 0) b).reply c 0x0506 .ok 0) ∧ b.length = 64 ∧
        u64 b 0 = ctrGet (s.comp k).ctrs .tokensAppended % 2 ^ 64 ∧ u64 b 56 = (s.comp k).streams.length % 2 ^ 64) ∧
    (∀ (s : State) (k h layer page : Nat), (∀ st, Tab.find? (s.comp k).streams h = some st → s.coldNext k st = none) →
      exec (.coldPageMove k h layer page) s = .next s) ∧
    ∀ (s : State) (k h layer page addr : Nat) (st : StreamCtx) (t : Tensor), Tab.find? (s.comp k).streams h = some st → st.coldHome = 2 →
      s.coldNext k st = some (layer, page, addr) → Tab.find? (s.comp k).tensors addr = some t → t.tiles = [] → s.forgesRun = true →
      s.stroke.phase = .settle → k ∈ s.stroke.ran → s.spaceFree k 0 (0, 0, Tensor.homeBytes { t with home := 2 }) = true →
      ∃ u, exec (.coldPageMove k h layer page) s = .next u ∧ Tab.find? (u.comp k).tensors addr = some { t with home := 2 } ∧
        ctrGet (u.comp k).ctrs .pagesColdMoved = sat64 (ctrGet (s.comp k).ctrs .pagesColdMoved) 1 ∧ ∀ j, j ≠ k → u.comp j = s.comp j

/-- A BASE.LOAD whose image opens completes with OK and leaves a READY slot with the image's identifier for settle; one that
fails commits nothing and leaves every slot and compartment as it was. A BASE.UNLOAD of a READY slot that no variant is bound to makes it UNLOADING: it leaves the
EMPTY slot for settle where no earlier command reads the base, and waits where one does. BASE.QUERY completes with its record;
what the manifest of a load gives is shown once the load has read it (log 32). BASE.DETACH of an attached slot with no bound variant closes the alias tables and leaves the
detachment for settle. SERVE.POLICY of a compartment leaves the policy for the boundary and the step of CONFIG_EPOCH for settle,
and the boundary puts it in force. (07_base_and_variants.md R257, R258, R260, R261, R263, R268, R288, R302, R303) -/
def Obligations.BaseSlotCommandsComplete : Prop :=
  (∀ (c : Cmd) (s s' : State) (st : Status) (d : Nat), s.admits 0x0601 c → opBaseLoad c s = .ok (.done s' st d) →
      exec (.baseLoad c) s = .next ((s.framed 0x0601 s').reply c 0x0601 st d) ∧ s'.comps = s.comps ∧ s'.bases = s.bases ∧
      (st = .ok → ∃ x, s'.commits = s.commits ++ [⟨c.fn, c.order, .baseSlot (u8 c.block 0) x⟩] ∧ x.st = .ready ∧
        ((s.baseSlot (u8 c.block 0)).image = [] → x.imageId = u32 c.block 24) ∧ x.cellSize = u8 c.block 1 ∧ x.cellPos = u8 c.block 2 ∧ x.order = none) ∧
      (st ≠ .ok → s'.commits = s.commits ∧ s'.records = s.records)) ∧
    (∀ (c : Cmd) (s : State) (i : Nat), s.admits 0x0602 c → c.block.length = 8 → i = u8 c.block 0 → i ≤ 1 → zeroAt c.block 1 7 = true →
      ((s.baseSlot i).st = .ready ∨ (s.baseSlot i).st = .unloading ∧ (s.baseSlot i).order = some c.order) →
      (s.comps.any fun p => p.2.boundVariants i != 0) = false →
      exec (.baseUnload c) s = .next (if s.baseRead i c.order
        then (s.setBase i { s.baseSlot i with st := .unloading, order := some c.order }).keep c 0x0602
        else ((s.setBase i { s.baseSlot i with st := .unloading, order := some c.order }).commit c (.baseSlot i {})).reply c 0x0602 .ok 0)) ∧
    (∀ (c : Cmd) (s : State) (i : Nat), s.admits 0x0603 c → c.block.length = 16 → i = u8 c.block 0 → i ≤ 1 → zeroAt c.block 1 7 = true →
      u64 c.block 8 % 64 = 0 → (s.baseSlot i).st ≠ .loading →
      ∃ b, exec (.baseQuery c) s = .next ((s.record c.fn (u64 c.block 8) b).reply c 0x0603 .ok 0) ∧ u8 b 0 = (s.baseSlot i).st.code ∧
        u32 b 4 = (s.baseSlot i).imageId % 2 ^ 32 ∧ u64 b 8 = (s.baseSlot i).shardBytes % 2 ^ 64) ∧
    (∀ (c : Cmd) (s : State) (i : Nat), s.admits 0x0603 c → c.block.length = 16 → i = u8 c.block 0 → i ≤ 1 → zeroAt c.block 1 7 = true →
      u64 c.block 8 % 64 = 0 → (s.baseSlot i).st = .loading →
      ∃ t b, exec (.baseQuery c) s = .next t ∧ Answered s t c 0x0603 .ok 0 ∧ t.records = s.records ++ [⟨c.fn, u64 c.block 8, b⟩] ∧ u8 b 0 = 1 ∧
        u64 b 24 = (s.baseSlot i).tilesLoaded % 2 ^ 64 ∧ ((s.baseSlot i).image ≠ [] → u64 b 8 = (s.baseSlot i).shardBytes % 2 ^ 64 ∧
        u64 b 16 = (s.baseSlot i).tilesTotal % 2 ^ 64 ∧ u32 b 32 = (s.baseSlot i).count % 2 ^ 32)) ∧
    (∀ (c : Cmd) (s : State) (k i : Nat), s.admits 0x0605 c → c.fn = .vf k → c.block.length = 8 → i = u8 c.block 0 → i ≤ 1 →
      zeroAt c.block 1 7 = true → (s.comp k).aliases i ≠ [] → (s.comp k).boundVariants i = 0 →
      ∃ t, exec (.baseDetach c) s = .next t ∧ Answered s t c 0x0605 .ok 0 ∧ t.commits = s.commits ++ [⟨c.fn, c.order, .detach k i⟩] ∧
        t.records = s.records ∧ (∀ a x, Tab.find? (s.comp k).tensors a = some x → Tab.find? (t.comp k).tensors a =
          some (if ((s.comp k).aliases i).contains a = true then { x with closing := some c.order } else x))) ∧
    (∀ (c : Cmd) (s : State) (k : Nat) (p : Policy), s.admits 0x0606 c → c.block.length = 16 → k = u8 c.block 0 → s.exists_ k = true →
      p = ⟨u8 c.block 1, u32 c.block 4, u32 c.block 8, u32 c.block 12⟩ → p.cap ≤ 16 → u16 c.block 2 = 0 → 16 ≤ p.window → p.window ≤ 65536 →
      1 ≤ p.hot → p.cold < p.hot →
      exec (.servePolicy c) s = .next (((s.modComp k fun x => { x with policyPending := some p }).commit c .epochUp).reply c 0x0606 .ok 0) ∧
        (((s.modComp k fun x => { x with policyPending := some p }).comp k).applyPolicy).policy = p) ∧
    (BaseSt.empty.code, BaseSt.loading.code, BaseSt.ready.code, BaseSt.unloading.code) = (0, 1, 2, 3)

/-- Each VARIANT_SWITCH answers a next state in every state, whatever its operands; what that state holds: An admitted
VARIANT.SWAP or VARIANT.CUTOVER of a resident variant with no switch under way marks the switch at its admission order and waits
without a reply; of a variant that is not resident it completes with VARIANT_NOT_RESIDENT. VARIANT_SWITCH of a planned switch of
a resident variant, in the settle phase and where no command bound to the old set is left, completes the waiting command: with
VARIANT_NO_SHADOW where the set is missing; otherwise with OK, the set active under the next version number, the switch ended
and counted, for a swap the old active set now the shadow, for a cutover neither shadow nor successor left. Until then it
changes nothing. (07_base_and_variants.md R277, R295, R296, R297, R299) -/
def Obligations.SwitchesDivideTheOrderAndTakeEffectAtOnce : Prop :=
  (∀ (s : State) (a b : Nat), ∃ t, exec (.variantSwitch a b) s = .next t) ∧
  (∀ (c : Cmd) (s : State) (k : Nat) (v : Variant) (cut : Bool), c.fn = .vf k → c.block.length = 8 → zeroAt c.block 4 4 = true →
      s.admits (if cut then 0x0617 else 0x0614) c → s.variantOf k (u32 c.block 0) c = some v → v.switch = none →
      exec (if cut then .variantCutover c else .variantSwap c) s = .next (if v.resident
        then (s.modVariant k (varIndex v.handle) fun v => { v with switch := (v.switch.or (some ⟨c.order, cut⟩)) }).keep c (if cut then 0x0617 else 0x0614)
        else s.reply c (if cut then 0x0617 else 0x0614) .variantNotResident 0)) ∧
    (∀ (s : State) (k i : Nat) (v : Variant) (w : Switch) (a : Adm), Tab.find? (s.comp k).variants i = some v → v.switch = some w →
      s.stroke.phase = .settle → s.admOf w.order = some a → v.resident = true → a.planned = true →
      (s.boundBefore k v.handle w.order = true → exec (.variantSwitch k i) s = .next s) ∧
      (s.boundBefore k v.handle w.order = false → v.next w.cutover = none →
        ∃ t, exec (.variantSwitch k i) s = .next t ∧ Answered s t a.cmd a.op .variantNoShadow 0) ∧
      ∀ x, s.boundBefore k v.handle w.order = false → v.next w.cutover = some x →
        ∃ t u, exec (.variantSwitch k i) s = .next t ∧ Answered s t a.cmd a.op .ok 0 ∧ Tab.find? (t.comp k).variants i = some u ∧
          u.active = some { x with version := some (v.version + 1) } ∧ u.version = v.version + 1 ∧ u.switch = none ∧
          u.switches = sat64 v.switches 1 ∧ (if w.cutover then u.shadow = none ∧ u.successor = none ∧ u.baseSlot = x.slot else u.shadow = v.active) ∧
          ∀ j, j ≠ k → (t.comp j).variants = (s.comp j).variants) ∧
    ∀ (s : State) (k i : Nat), (Tab.find? (s.comp k).variants i).bind (·.switch) = none ∨ s.stroke.phase ≠ .settle →
      exec (.variantSwitch k i) s = .next s

/-- Every one of FORGE_WINDOW_END, FORGE_COMMIT answers a next state in every state, whatever its operands; what that state
holds: At a window's end every variant's served rows become its last window's and count from zero again, and no forge starts
that would take the compartment over its cap; outside the settle of a window's last stroke nothing changes. FORGE_COMMIT of a
variant with no forge in progress, or outside the settle phase, changes nothing; in it a forge that is due (its reservation
stands and its compartment ran in this stroke) and whose reads fault ends refused; one whose values are not all finite ends as a
fault; one that is finite becomes the forged copy, counted, from this stroke on. (07_base_and_variants.md R288, R290, R291,
R292, R294) -/
def Obligations.ForgesFollowTheirWindowsAndCaps : Prop :=
  (∀ (s : State) (a b : Nat) (c : RunFault),
    ∀ i ∈ ([.forgeWindowEnd a, .forgeCommit a b c] : List Instr), ∃ t, exec i s = .next t) ∧
  (∀ (s : State) (k : Nat), (s.stroke.phase ≠ .settle ∨ (s.stroke.number + 1) % (s.comp k).policy.window ≠ 0) →
      exec (.forgeWindowEnd k) s = .next s) ∧
    (∀ (s : State) (k i : Nat) (v : Variant), s.stroke.phase = .settle → (s.stroke.number + 1) % (s.comp k).policy.window = 0 →
      Tab.find? (s.comp k).variants i = some v →
      ∃ t u, exec (.forgeWindowEnd k) s = .next t ∧ Tab.find? (t.comp k).variants i = some u ∧ u.lastRows = v.servedRows ∧ u.servedRows = 0 ∧
        u.active = v.active ∧ u.mode = v.mode) ∧
    (∀ (s : State) (k i : Nat) (all : Bool) (v : Variant), Tab.find? (s.comp k).variants i = some v →
      (s.comp k).forgeCap < s.forgeUse k i + s.forgeNeed v all →
      ∀ u, Tab.find? ((s.startForge k i all).comp k).variants i = some u → u.forging = v.forging) ∧
    (∀ (s : State) (k i : Nat) (f : RunFault), (Tab.find? (s.comp k).variants i).bind (·.forging) = none ∨ s.stroke.phase ≠ .settle →
      exec (.forgeCommit k i f) s = .next s) ∧
    (∀ (s : State) (k i : Nat) (f : RunFault) (v : Variant) (w : ForgeWork), Tab.find? (s.comp k).variants i = some v → v.forging = some w →
      s.forgeDue k v w = true → f ≠ .none →
      ∃ t u, exec (.forgeCommit k i f) s = .next t ∧ Tab.find? (t.comp k).variants i = some u ∧ u.forging = none ∧
        u.forgeRefused = sat64 v.forgeRefused 1 ∧ u.forge = v.forge ∧ u.forges = v.forges ∧ u.forgeFaults = v.forgeFaults) ∧
    (∀ (s s' : State) (k i : Nat) (v : Variant) (w : ForgeWork), Tab.find? (s.comp k).variants i = some v → v.forging = some w →
      s.forgeDue k v w = true → s.workNow (forgeWork k ((v.active.map (·.slot)).getD v.baseSlot) v (s.forgeLayers v w.all)) = (some none, s') →
      ∃ t u, exec (.forgeCommit k i .none) s = .next t ∧ Tab.find? (t.comp k).variants i = some u ∧ u.forging = none ∧
        u.forgeFaults = sat64 v.forgeFaults 1 ∧ u.forge = v.forge ∧ u.forges = v.forges ∧ u.forgeRefused = v.forgeRefused) ∧
    ∀ (s s' : State) (k i : Nat) (v : Variant) (w : ForgeWork) (l : List (Nat × Nat × Tensor)), Tab.find? (s.comp k).variants i = some v →
      v.forging = some w → s.forgeDue k v w = true →
      s.workNow (forgeWork k ((v.active.map (·.slot)).getD v.baseSlot) v (s.forgeLayers v w.all)) = (some (some l), s') →
      ∃ t u, exec (.forgeCommit k i .none) s = .next t ∧ Tab.find? (t.comp k).variants i = some u ∧ u.forging = none ∧ u.forges = sat64 v.forges 1 ∧
        u.forge = some { copies := l.map fun p => (p.1, p.2.1), since := s.stroke.number, all := w.all }

/-- Every one of GROUP_JOIN, TRAIN_TIMEOUT answers a next state in every state, whatever its operands; what that state holds: An
admitted TRAIN.CLOSE of an open training state completes with OK, aborts exactly the training commands of that state admitted
before it, drops their results and leaves the freeing for settle. However TRAIN.EXPORT ends, it changes no tile, and every byte
outside the image that IMAGE_ADDR and IMAGE_LEN name in its own function's memory reads as before. The root's answer completes a
waiting TRAIN.OPEN that is no rejoin with OK, or with GROUP_MISMATCH, freeing the state; TRAIN_TIMEOUT at the 4,096th stroke of
waiting completes a TRAIN.OPEN or TRAIN.STEP with TRAIN_TIMEOUT. (09_continuous_adaptation.md R376, R377, R378, R382, R383,
R384, R387) -/
def Obligations.TrainingEndsAndLeavesTheDevice : Prop :=
  (∀ (s : State) (a b c : Nat) (d : JoinNote),
    ∀ i ∈ ([.groupJoin a b c d, .trainTimeout a] : List Instr), ∃ t, exec i s = .next t) ∧
  (∀ (c : Cmd) (s : State) (k target : Nat) (v : Variant) (x : Train), s.admits 0x0702 c → c.fn = .vf k → c.block.length = 8 →
      s.variantOf k (u32 c.block 0) c = some v → (u8 c.block 4 = 0 ∨ u8 c.block 4 = 2) → target = v.targetOf c → zeroAt c.block 5 3 = true →
      v.train? target = some x →
      ∃ t l, exec (.trainClose c) s = .next t ∧ t.replies = s.replies ++ l ++ [replyOf c 0x0702 .ok 0] ∧
        (∀ r ∈ l, r.status = Status.aborted.code ∧ r.cmd.fn = c.fn) ∧
        (∀ a ∈ t.queue, a ∈ s.queue ∧ a.cmd ≠ c ∧ (a.cmd.order < c.order → trainCmd k v target a = false)) ∧
        (∃ w, t.commits = w ++ [⟨c.fn, c.order, .train k (varIndex v.handle) target none⟩] ∧ ∀ y ∈ w, y ∈ s.commits)) ∧
    (∀ (c : Cmd) (s s' : State) (k d : Nat) (st : Status), s.admits 0x0723 c → c.fn = .vf k → opTrainExport c s = .ok (.done s' st d) →
      exec (.trainExport c) s = .next ((s.framed 0x0723 s').reply c 0x0723 st d) ∧ (∀ j a n, s'.contents j a n = s.contents j a n) ∧
      ∀ f a, (f ≠ .vf k ∨ a < u64 c.block 8 ∨ u64 c.block 8 + u64 c.block 16 ≤ a) →
        Mem.read (Tab.get [] s'.hostMem (fnKey f)) a = Mem.read (Tab.get [] s.hostMem (fnKey f)) a) ∧
    (∀ (s : State) (k i target : Nat) (x : Train) (o : TrainOpening) (a : Adm), s.trainOf k i target = some x → x.root = none →
      x.opening = some o → s.admOf o.order = some a →
      (∃ t, exec (.groupJoin k i target .mismatch) s = .next t ∧ Answered s t a.cmd a.op .groupMismatch 0 ∧ t.trainOf k i target = none) ∧
      (o.rejoin = false → ∃ t, exec (.groupJoin k i target .formed) s = .next t ∧ t.replies = s.replies ++ [replyOf a.cmd a.op .ok 0] ∧
        t.commits = s.commits ++ o.tables.map (fun p => ⟨a.cmd.fn, a.cmd.order, .tensorNew k p.1 p.2⟩) ++
          [⟨a.cmd.fn, a.cmd.order, .train k i target (some { x with opening := none })⟩] ∧
        t.records = s.records ++ o.records.map fun r => ⟨a.cmd.fn, r.1, r.2⟩)) ∧
    ∀ (s : State) (o k target : Nat) (x : Train) (a : Adm), s.admOf o = some a → a.cmd.fn = .vf k → (target = 0 ∨ target = 2) →
      (∀ z, s.trainOf k (varIndex (u32 a.cmd.block 0)) (2 - target) = some z → (∀ y, z.opening = some y → y.order ≠ o) ∧ ∀ y, z.stepping = some y → y.order ≠ o) →
      s.trainOf k (varIndex (u32 a.cmd.block 0)) target = some x →
      (∀ y, x.opening = some y → y.order = o → y.start + 4095 ≤ s.stroke.number →
        ∃ t, exec (.trainTimeout o) s = .next t ∧ Answered s t a.cmd a.op .trainTimeout 0 ∧ t.trainOf k (varIndex (u32 a.cmd.block 0)) target = none) ∧
      (∀ y, x.opening = none → x.stepping = some y → y.order = o → y.start + 4095 ≤ s.stroke.number →
        ∃ t, exec (.trainTimeout o) s = .next t ∧ Answered s t a.cmd a.op .trainTimeout 0 ∧
          t.trainOf k (varIndex (u32 a.cmd.block 0)) target = some { x with stepping := none }) ∧
      ((∀ y, x.opening = some y → y.order = o → s.stroke.number < y.start + 4095) →
        (∀ y, x.stepping = some y → y.order = o → s.stroke.number < y.start + 4095) → exec (.trainTimeout o) s = .next s)

/-- Every one of TRAIN_CONTRIBUTION, STEP_CLOSE, LAGGED_MARK, TRAIN_UPDATE_MESSAGE, TRAIN_UPDATE_APPLY, PARTS_TRANSFER answers a
next state in every state, whatever its operands; what that state holds: A message of an older group generation counts as stale
and is discarded. Otherwise a contribution reaches the root: of an older root generation it counts as stale, a second one of a
replica's step as a duplicate, and a first one is held; an update message is held from the next stroke on by a state that is
open, and parts replace those held for the same shard, update and part. LAGGED_MARK marks a replica that has missed 64 closed
steps. STEP_CLOSE, where the root may close its step, leaves one message for that step and goes on to the next, unless the
message rolls back: then the generation goes up and nothing is held. TRAIN_UPDATE_APPLY completes the waiting TRAIN.STEP in the
run of its compartment, before the guard interval, as its work ends, and changes nothing at another time.
(09_continuous_adaptation.md R358, R360, R361, R362, R363, R373, R374, R376) -/
def Obligations.TrainingMessagesReachTheirState : Prop :=
  (∀ (s : State) (a b c d : Nat) (e : Contribution) (f : Parts) (g : UpdMsg),
    ∀ i ∈ ([.trainContribution a b c d e, .stepClose a b c, .laggedMark a b c d, .trainUpdateMessage a b c d g, .trainUpdateApply a b c, .partsTransfer a b c d
      f] : List Instr), ∃ t, exec i s = .next t) ∧
  (∀ (s : State) (k i target gen : Nat) (t : Train), s.trainOf k i target = some t →
      (∀ gi g, s.groupAt k t.collGroup = some (gi, g) → gen < g.gen →
        (∀ x, exec (.trainContribution k i target gen x) s = .next (s.modGroup k gi fun g => { g with staleDropped := sat64 g.staleDropped 1 })) ∧
        (∀ m, exec (.trainUpdateMessage k i target gen m) s = .next (s.modGroup k gi fun g => { g with staleDropped := sat64 g.staleDropped 1 })) ∧
        ∀ p, exec (.partsTransfer k i target gen p) s = .next (s.modGroup k gi fun g => { g with staleDropped := sat64 g.staleDropped 1 })) ∧
      ((∀ gi g, s.groupAt k t.collGroup = some (gi, g) → g.gen ≤ gen) →
        (∀ x, ∃ u, exec (.trainContribution k i target gen x) s = .next u ∧ u.trainOf k i target = some (t.rootReceive s.stroke.number x)) ∧
        (t.opening = none → ∀ m, ∃ u, exec (.trainUpdateMessage k i target gen m) s = .next u ∧
          u.trainOf k i target = some (t.hold (s.stroke.number + 1) m)) ∧
        (t.opening = none → ∀ p, ∃ u, exec (.partsTransfer k i target gen p) s = .next u ∧ u.trainOf k i target =
          some { t with received := (t.received.filter fun q => !(q.shard == p.shard && q.update == p.update && q.part == p.part)) ++ [p] }))) ∧
    (∀ (t : Train) (r : TrainRoot) (now : Nat) (x : Contribution), t.root = some r →
      (x.gen < r.gen → t.rootReceive now x = { t with stale := sat64 t.stale 1 }) ∧
      (r.gen ≤ x.gen → (x.replica, x.step) ∈ r.arrived → t.rootReceive now x = { t with duplicates := sat64 t.duplicates 1 }) ∧
      (r.gen ≤ x.gen → (x.replica, x.step) ∉ r.arrived → ∃ q, (t.rootReceive now x).root = some q ∧
        q.arrived = r.arrived ++ [(x.replica, x.step)] ∧ q.held = r.held ++ [(now, x)] ∧ q.nextClose = r.nextClose ∧ q.gen = r.gen)) ∧
    (∀ (s : State) (k i target j : Nat) (t : Train) (r : TrainRoot), s.trainOf k i target = some t → t.root = some r →
      64 ≤ Tab.get 0 r.missed j → j ∉ r.lagged →
      ∃ u, exec (.laggedMark k i target j) s = .next u ∧ u.trainOf k i target = some { t with root := some { r with lagged := r.lagged ++ [j] } }) ∧
    (∀ (s : State) (k i target : Nat) (t : Train) (r : TrainRoot), s.trainOf k i target = some t → t.root = some r → t.opening = none →
      s.stroke.phase = .settle → s.rootRuns = true → t.closable r s.stroke.number = true →
      ∃ u q m, exec (.stepClose k i target) s = .next u ∧ u.trainOf k i target = some { t with root := some q } ∧ q.outbox = r.outbox ++ [m] ∧
        m.step = r.nextClose ∧ m.gen = r.gen ∧ (m.rollback = false → q.nextClose = r.nextClose + 1 ∧ q.gen = r.gen) ∧
        (m.rollback = true → q.gen = r.gen + 1 ∧ q.held = [] ∧ q.arrived = [])) ∧
    ∀ (s : State) (k i target : Nat) (t : Train) (x : Stepping) (a : Adm), s.trainOf k i target = some t → t.stepping = some x → s.admOf x.order = some a →
      ((s.inRunOf k = false ∨ s.stroke.guard = true) → exec (.trainUpdateApply k i target) s = .next s) ∧
      ∀ s' st d, s.inRunOf k = true → s.stroke.guard = false →
        (ExceptT.run (applyUpdate a.cmd k i target)).run { s with act := { order := some a.cmd.order, snap := a.snap } } = (.ok (st, d), s') →
        st ≠ .replicaDiverged → exec (.trainUpdateApply k i target) s = .next (s'.flushWindow.reply a.cmd a.op st d)

/-- With legal fields: LINK.CONFIG with every port DARK sets NODE_ID and ALIGN_PRIORITY, else it is NOT_PERMITTED. LINK.ENABLE
of a DARK port with a NODE_ID and no join refused starts training and waits; of an UP port it completes with OK; a disable of a
DARK port does nothing, and of another waits for the boundary after next stroke's number. LINK.QUERY gives a virtual function
state, width and peer alone. CELL.SET of a cell that names this device at its position, and its dissolution where no slot holds
a base of several devices, complete; ROUTE.SET sets the mask of a node; SPAN.SET dissolves a span and releases what the
compartment holds for peers. CELL.SET, ROUTE.SET and SPAN.SET each
leave a step of CONFIG_EPOCH too; what these commands leave takes effect at settle. (13_optical_links.md R475, R481,
R484, R485, R490, R491, R494, R495, R497, R499, R508, R509) -/
def Obligations.LinkAndCellCommandsComplete : Prop :=
  (∀ (c : Cmd) (s : State), s.admits 0x0801 c → c.block.length = 8 → u16 c.block 0 ≤ 8191 → zeroAt c.block 3 5 = true →
      exec (.linkConfig c) s = .next (if (upFrom 0 16).all (fun p => decide ((s.port p).st = .dark))
        then (s.commit c (.linkConfig (u16 c.block 0) (u8 c.block 2))).reply c 0x0801 .ok 0
        else s.reply c 0x0801 .notPermitted 0)) ∧
    (∀ (c : Cmd) (s : State) (p lanes : Nat), s.admits 0x0802 c → c.block.length = 8 → p = u8 c.block 0 → p ≤ 15 → u8 c.block 1 = 0 → lanes = u8 c.block 2 →
      (lanes = 2 ∨ lanes = 4 ∨ lanes = 8) → u8 c.block 3 = 0 → u16 c.block 4 ≤ 60000 → u16 c.block 6 = 0 →
      (s.nodeSeen = none → exec (.linkEnable c) s = .next (s.reply c 0x0802 .notPermitted 0)) ∧
      (∀ d, s.nodeSeen.isSome = true → s.link.refused = some d → exec (.linkEnable c) s = .next (s.reply c 0x0802 .joinRefused d)) ∧
      (s.nodeSeen.isSome = true → s.link.refused = none → (s.port p).order = none → (s.port p).disable = none → s.disabling p = false →
        ((s.port p).st = .up → exec (.linkEnable c) s = .next (s.reply c 0x0802 .ok 0)) ∧
        ((s.port p).st = .dark → exec (.linkEnable c) s = .next ((s.modPort p fun x =>
          { x with st := .probe, maxLanes := lanes, order := some c.order, timeoutMs := u16 c.block 4 }).keep c 0x0802)))) ∧
    (∀ (c : Cmd) (s : State) (p : Nat), s.admits 0x0802 c → c.block.length = 8 → p = u8 c.block 0 → p ≤ 15 → (u8 c.block 1 = 1 ∨ u8 c.block 1 = 2) →
      u8 c.block 2 = 0 → u8 c.block 3 = 0 → u16 c.block 4 ≤ 60000 → u16 c.block 6 = 0 →
      exec (.linkEnable c) s = .next ((if (s.port p).st = .dark then s
        else s.commit c (.portDisable p (s.stroke.number + 1) (u8 c.block 1 == 2))).reply c 0x0802 .ok 0)) ∧
    (∀ (c : Cmd) (s : State), s.admits 0x0803 c → c.block.length = 16 → u8 c.block 0 ≤ 15 → zeroAt c.block 1 7 = true → u64 c.block 8 % 64 = 0 →
      ∃ b, exec (.linkQuery c) s = .next ((s.record c.fn (u64 c.block 8) b).reply c 0x0803 .ok 0) ∧ b.length = 64 ∧
        u8 b 0 = (s.port (u8 c.block 0)).st.code ∧ u8 b 1 = (s.port (u8 c.block 0)).width % 256 ∧
        u16 b 2 = ((s.port (u8 c.block 0)).peer.getD 0xFFFF) % 65536 ∧ (c.fn ≠ .pf → zeroAt b 4 60 = true)) ∧
    (∀ (c : Cmd) (s : State) (size pos : Nat) (nodes : List Nat), s.admits 0x0804 c → c.block.length = 48 → size = u8 c.block 5 → pos = u8 c.block 6 →
      nodes = (upFrom 0 size).map (fun i => u16 c.block (8 + 2 * i)) → u8 c.block 4 = 0 → 2 ≤ size → size ≤ 16 → pos < size → u8 c.block 7 = 0 →
      (∀ n ∈ nodes, n ≤ 8191) → (∀ i, size ≤ i → i < 16 → u16 c.block (8 + 2 * i) = 0xFFFF) → zeroAt c.block 40 8 = true →
      s.nodeSeen = some (u16 c.block (8 + 2 * pos)) → (∀ x, s.cellSeen = some x → x.1 = u32 c.block 0) →
      exec (.cellSet c) s = .next (((s.commit c (.cellSet (some (u32 c.block 0, pos, nodes)))).commit c .epochUp).reply c 0x0804 .ok 0)) ∧
    (∀ (c : Cmd) (s : State), s.admits 0x0805 c → c.block.length = 8 → u16 c.block 0 ≤ 8191 → u32 c.block 4 = 0 →
      exec (.routeSet c) s = .next (((s.commit c (.routeSet (u16 c.block 0) (u16 c.block 2))).commit c .epochUp).reply c 0x0805 .ok 0)) ∧
    (∀ (c : Cmd) (s : State) (k : Nat) (sp : Span), s.admits 0x0806 c → c.block.length = 24 → k = u8 c.block 2 → s.exists_ k = true → u8 c.block 3 = 1 →
      u32 c.block 4 = 0 → u64 c.block 8 % 64 = 0 → zeroAt c.block 16 8 = true → s.spanSeen k = some sp → sp.id = u16 c.block 0 →
      exec (.spanSet c) s = .next (((s.commit c (.spanSet k (u16 c.block 0) none)).commit c .epochUp).reply c 0x0806 .ok 0)) ∧
    ∀ (s : State) (f : Fn),
      (∀ n q, s.applyCommit f (.linkConfig n q) = { s with link := { s.link with node := some n, priority := q } }) ∧
      (∀ p from_ abort, s.applyCommit f (.portDisable p from_ abort) = s.modPort p fun x => { x with disable := some (from_, abort) }) ∧
      (∀ x, s.applyCommit f (.cellSet x) = { s with link := { s.link with cell := x } }) ∧
      (∀ d m, Tab.get 0 (s.applyCommit f (.routeSet d m)).link.routes d = m ∧
        ∀ n, n ≠ d → Tab.get 0 (s.applyCommit f (.routeSet d m)).link.routes n = Tab.get 0 s.link.routes n) ∧
      ∀ k id, (s.exists_ k = true → (s.applyCommit f (.spanSet k id none)).comp k = { s.comp k with span := none, peerHeld := [] }) ∧
        ∀ j, j ≠ k → (s.applyCommit f (.spanSet k id none)).comp j = s.comp j

/-- Every one of LINK_PROBE_BURST, LIGHT_DETECT, LANE_LOCK, LOCK_TIMEOUT, IDENTIFY_MESSAGE, IDENTIFY_TIMEOUT, ALIGN_TIMEOUT,
LINK_TRAIN_TIMEOUT, FLIT_SLOT, FLIT_RECEIVE, RETRY_LIMIT, DRAIN_POINT, REKEY, KEY_END, LOSS_OF_LIGHT answers a next state in
every state, whatever its operands; what that state holds: For a port p below 16: a probe burst in PROBE counts; light on two
lanes takes PROBE to LOCK; lanes that lock choose the width and take LOCK to IDENTIFY with its flit counters at zero, fewer than
two lanes back to PROBE; the timeouts of LOCK and IDENTIFY return to PROBE; 64 strokes in ALIGN, and TIMEOUT_MS in PROBE, darken
the port and complete the waiting LINK.ENABLE with LINK_TRAIN_TIMEOUT; the peer that is admitted and whose set this device leads
makes the port UP, and a peer that is not admitted leaves it DARK. An UP port goes DOWN, to PROBE, counted, when a flit has been
resent 32 times, at the end of its key and at the loss of light. A drain point stops new data; a flit sent advances the transmit
counter and one received the receive counter; REKEY names an epoch start for later. In any other state the event changes
nothing; stated for steps in which no rule acts on an event. (13_optical_links.md R475, R476, R479, R480, R485, R486, R488,
R489, R490, R491, Table 13.4; 18_package_and_pins.md R649) -/
def Obligations.PortsTrainAndFallBackByTheirTable : Prop :=
  (∀ (s : State) (a b c : Nat) (d : IdentMsg) (e f g : List Byte) (h : List Nat),
    ∀ i ∈ ([.linkProbeBurst a, .lightDetect a b, .laneLock a h, .lockTimeout a, .identifyMessage a d, .identifyTimeout a, .alignTimeout a, .linkTrainTimeout a,
      .flitSlot a, .flitReceive a e b c, .retryLimit a, .drainPoint a, .rekey a e f g b, .keyEnd a, .lossOfLight a] : List Instr), ∃ t, exec i s = .next t) ∧
  ∀ (s : State) (p : Nat), p < 16 → s.calm →
    ((s.port p).st = .probe → exec (.linkProbeBurst p) s = .next (s.modPort p fun x => { x with probes := x.probes + 1 }) ∧
      (∀ n, 2 ≤ n → exec (.lightDetect p n) s = .next (s.modPort p fun x => { x with st := .lock })) ∧
      (∀ a, (s.port p).timeoutMs ≠ 0 → (s.port p).order = some a.cmd.order → s.admOf a.cmd.order = some a →
        ∃ t, exec (.linkTrainTimeout p) s = .next t ∧ Answered s t a.cmd a.op .linkTrainTimeout 0 ∧ (t.port p).st = .dark)) ∧
    ((s.port p).st = .lock → exec (.lockTimeout p) s = .next (s.modPort p fun x => x.idle .probe) ∧
      (∀ l, ∃ t, exec (.laneLock p l) s = .next t ∧ (t.port p).width = widthOf (s.port p).maxLanes ((upFrom 0 8).filter fun i => l.contains i).length ∧
        (t.port p).txCount = 0 ∧ (t.port p).rxCount = 0 ∧
        ((t.port p).width = 0 → (t.port p).st = .probe) ∧ ((t.port p).width ≠ 0 → (t.port p).st = .identify ∧ (t.port p).lanes.length = (t.port p).width))) ∧
    ((s.port p).st = .identify → exec (.identifyTimeout p) s = .next (s.modPort p fun x => x.idle .probe) ∧
      (∀ m, s.peerAdmitted m = false → ∃ t, exec (.identifyMessage p m) s = .next t ∧ (t.port p).st = .dark ∧ (t.port p).prk = []) ∧
      (∀ m, s.peerAdmitted m = true → nodeClash m.members s.self = false → nodeClash s.link.members m.peer = false → m.peer.node ≠ s.self.node →
        s.link.members = [] → m.members.length < 8192 → (unionMembers (m.members ++ [s.self, m.peer])).length ≤ 8192 → s.joinRef m = some s.self.node → (s.port p).order = none →
        ∃ t, exec (.identifyMessage p m) s = .next t ∧ (t.port p).st = .up ∧ (t.port p).peer = some m.peer.node ∧ (t.port p).keyEpoch = 0 ∧
          t.stroke.align = .aligned ∧ t.link.members = unionMembers (m.members ++ [s.self, m.peer]))) ∧
    ((s.port p).st = .align → (s.port p).alignSince + 64 ≤ s.stroke.number → ∀ a, (s.port p).order = some a.cmd.order → s.admOf a.cmd.order = some a →
      ∃ t, exec (.alignTimeout p) s = .next t ∧ Answered s t a.cmd a.op .linkTrainTimeout 0 ∧ (t.port p).st = .dark) ∧
    ((s.port p).st = .up →
      (∀ e, e = .lossOfLight p ∨ (e = .keyEnd p ∧ (s.port p).epochStart + 2 ^ 40 ≤ max (s.port p).txCount (s.port p).rxCount) ∨
          (e = .retryLimit p ∧ ∃ f ∈ (s.port p).retry, 32 ≤ f.sends) →
        ∃ t, exec e s = .next t ∧ (t.port p).st = .probe ∧ (t.port p).downs = sat64 (s.port p).downs 1 ∧ (t.port p).prk = []) ∧
      exec (.drainPoint p) s = .next (s.modPort p fun x => { x with draining := true }) ∧
      (∀ e m l n, (s.port p).epochStart + 2 ^ 36 ≤ max (s.port p).txCount (s.port p).rxCount → (s.port p).nextPrk = none →
        max (s.port p).txCount (s.port p).rxCount + 4096 ≤ n →
        ∃ t prk, exec (.rekey p e m l n) s = .next t ∧ t.port p = { s.port p with nextPrk := some (n, prk) })) ∧
    (((s.port p).st = .identify ∨ (s.port p).st = .align ∨ (s.port p).st = .up) →
      (∃ t, exec (.flitSlot p) s = .next t ∧ (t.port p).txCount = (s.port p).txCount + 1 ∧ (t.port p).st = (s.port p).st) ∧
      ∀ f n u, ∃ t, exec (.flitReceive p f n u) s = .next t ∧ (t.port p).rxCount = (s.port p).rxCount + 1 ∧ (t.port p).st = (s.port p).st ∧
        (t.port p).corrected = sat64 (s.port p).corrected n ∧ (u ≠ 0 → (t.port p).corrupt = sat64 (s.port p).corrupt 1 ∧ (t.port p).nak = true)) ∧
    ((s.port p).st = .dark → ∀ n l m f u e w z, exec (.linkProbeBurst p) s = .next s ∧ exec (.lightDetect p n) s = .next s ∧ exec (.laneLock p l) s = .next s ∧
      exec (.lockTimeout p) s = .next s ∧ exec (.identifyMessage p m) s = .next s ∧ exec (.identifyTimeout p) s = .next s ∧
      exec (.alignTimeout p) s = .next s ∧ exec (.linkTrainTimeout p) s = .next s ∧ exec (.flitSlot p) s = .next s ∧
      exec (.flitReceive p f n u) s = .next s ∧ exec (.retryLimit p) s = .next s ∧ exec (.drainPoint p) s = .next s ∧
      exec (.rekey p e w z n) s = .next s ∧ exec (.keyEnd p) s = .next s ∧ exec (.lossOfLight p) s = .next s)

/-- Every one of COLL_DESCRIPTOR, COLL_DATA, COLL_READY, COLL_COMMIT, COLL_ABANDON, COLL_TIMEOUT, COLL_GROUP_TIMEOUT answers a
next state in every state, whatever its operands; what that state holds: An admitted COLL.GROUP that creates or resets waits
with its group FORMING or RESETTING; one that frees leaves the freeing for settle. A COLL.RUN that starts its collective waits
with the collective running under the next COLL_SEQ, issued counted. COLL.QUERY completes with its record. A message of an older
generation counts as dropped. At rank 0 a descriptor is held for its rank and READY is noted; data are held until a member has
every part; COMMIT of a stroke to come fixes the commit of a collective whose work is done; ABANDON ends the collective on a
member without a commit, and the waiting command with its status; a collective with no COMMIT within its limit ends with
COLL_TIMEOUT and breaks the group; a group that does not form within 4,096 strokes is freed. (13_optical_links.md R500, R501,
R502, R504, R505, R508, R509) -/
def Obligations.CollectivesFormRunAndEnd : Prop :=
  (∀ (s : State) (a b c d e : Nat) (f : Abandon) (g : CollDesc) (h : List (Nat × TileData)),
    ∀ i ∈ ([.collDescriptor a b c d e g, .collData a b c d e h, .collReady a b c d e, .collCommit a b c d e, .collAbandon a b c d f, .collTimeout a b,
      .collGroupTimeout a b] : List Instr), ∃ t, exec i s = .next t) ∧
  (∀ (c : Cmd) (s s' : State) (k i : Nat) (g : CollGroup), s.admits 0x0811 c → c.fn = .vf k → s.groupAt k (u32 c.block 0) = some (i, g) →
      g.running = none → opCollRun c s = .ok (.wait s') → (∀ a t, Tab.find? (s.comp k).tensors a = some t → t.home ≠ 3) →
      exec (.collRun c) s = .next ((s.framed 0x0811 s').keep c 0x0811) ∧ u64 c.block 8 = g.issued + 1 ∧
      ∃ q r, s'.collGroup k i = some q ∧ q.issued = g.issued + 1 ∧ q.running = some r ∧ r.order = c.order ∧ r.seq = u64 c.block 8 ∧
        r.timeout = u16 c.block 56 ∧ r.done = false ∧ r.commitAt = none) ∧
    (∀ (c : Cmd) (s : State) (k i : Nat) (g : CollGroup), s.admits 0x0810 c → c.fn = .vf k → c.block.length = 32 →
      s.groupAt k (u32 c.block 0) = some (i, g) → u8 c.block 5 = 0 → u16 c.block 6 = 0 → u16 c.block 8 = 0 → zeroAt c.block 10 6 = true →
      u64 c.block 16 % 64 = 0 → u64 c.block 24 % 64 = 0 →
      (u8 c.block 4 = 1 → exec (.collGroup c) s = .next ((s.commit c (.groupFree k i)).reply c 0x0810 .ok 0)) ∧
      (u8 c.block 4 = 2 → g.order = none → g.running = none →
        ∃ t q, exec (.collGroup c) s = .next t ∧ t.replies = s.replies ∧ t.collGroup k i = some q ∧ q.st = .resetting ∧ q.order = some c.order ∧
          q.heard = [g.rank] ∧ q.since = s.stroke.number)) ∧
    (∀ (c : Cmd) (s : State) (k i : Nat) (g : CollGroup), s.admits 0x0812 c → c.fn = .vf k → c.block.length = 16 →
      s.groupAt k (u32 c.block 0) = some (i, g) → zeroAt c.block 4 4 = true → u64 c.block 8 % 64 = 0 →
      ∃ b, exec (.collQuery c) s = .next ((s.record c.fn (u64 c.block 8) b).reply c 0x0812 .ok 0) ∧ b.length = 64 ∧ u8 b 4 = g.st.code ∧
        u64 b 16 = (g.issued + 1) % 2 ^ 64 ∧ u64 b 24 = g.committed % 2 ^ 64) ∧
    (∀ (s : State) (k i gen rank seq : Nat) (g : CollGroup), s.collGroup k i = some g →
      (gen < g.gen → ∀ e, (∃ d, e = .collDescriptor k i gen rank seq d) ∨ (∃ l, e = .collData k i gen rank seq l) ∨ e = .collReady k i gen rank seq ∨
          (∃ x, e = .collCommit k i gen seq x) ∨ (∃ w, e = .collAbandon k i gen seq w) →
        ∃ t, exec e s = .next t ∧ t.collGroup k i = some { g with staleDropped := sat64 g.staleDropped 1 }) ∧
      (gen = g.gen →
        (∀ d, g.rank = 0 → g.running = none → exec (.collDescriptor k i gen rank seq d) s = .next (s.modGroup k i fun g =>
          { g with descs := (g.descs.filter fun x => !(x.1 == collKey gen seq && x.2.1 == rank)) ++ [(collKey gen seq, rank, d)] })) ∧
        (∀ l, g.running = none → g.issued < seq → exec (.collData k i gen rank seq l) s = .next (s.modGroup k i fun g =>
          { g with data := (g.data.filter fun x => !(x.1 == collKey gen seq && x.2.1 == rank)) ++ [(collKey gen seq, rank, l)] })) ∧
        (g.rank = 0 → exec (.collReady k i gen rank seq) s = .next (s.modGroup k i fun g => { g with ready := g.ready ++ [(collKey gen seq, rank)] })) ∧
        ∀ r, g.running = some r → r.seq = seq →
          (∀ x, r.done = true → s.stroke.number < x → exec (.collCommit k i gen seq x) s = .next (s.modGroup k i fun g =>
            { g with running := g.running.map fun r => { r with commitAt := some x } })) ∧
          ∀ w a, g.rank ≠ 0 → s.admOf r.order = some a →
            ∃ t q, exec (.collAbandon k i gen seq w) s = .next t ∧ Answered s t a.cmd a.op (abandonStatus w) 0 ∧ t.collGroup k i = some q ∧
              q.running = none ∧ q.abandoned = sat64 g.abandoned 1 ∧ ∀ y ∈ t.commits, y.order ≠ r.order)) ∧
    (∀ (s : State) (k i : Nat) (g : CollGroup) (r : CollRunning) (a : Adm), s.collGroup k i = some g → g.running = some r → s.admOf r.order = some a →
      (r.commitAt.isSome = true ∨ s.stroke.number < r.start + r.timeout → exec (.collTimeout k i) s = .next s) ∧
      (r.commitAt = none → r.start + r.timeout ≤ s.stroke.number → ∃ t q, exec (.collTimeout k i) s = .next t ∧
        Answered s t a.cmd a.op .collTimeout 0 ∧ t.collGroup k i = some q ∧ q.running = none ∧ q.st = .broken ∧ q.timeouts = sat64 g.timeouts 1)) ∧
    ∀ (s : State) (k i o : Nat) (g : CollGroup) (a : Adm), s.collGroup k i = some g → g.order = some o → s.admOf o = some a →
      g.since + 4096 ≤ s.stroke.number → ∃ t, exec (.collGroupTimeout k i) s = .next t ∧ Answered s t a.cmd a.op .collTimeout 0 ∧
        (g.st = .forming → t.collGroup k i = none) ∧ (g.st ≠ .forming → ∃ q, t.collGroup k i = some q ∧ q.st = .broken)

/-- Every one of STROKE_JOIN, MESSAGE_RECEIVE, TIMING_SEND, TIMING_RECORD, REFERENCE_MISSING, MEMBERSHIP, MREQ, MCPL,
PEER_TIMEOUT, PEER_RELEASE answers a next state in every state, whatever its operands; what that state holds: MREQ stores a
peer's line exactly as received and completes it, where the holder's share has room for it; MCPL marks the move arrived and
keeps the form returned; PEER_TIMEOUT after 16 strokes ends the command with PEER_UNREACHABLE and none of its results, also
where only its results waited; PEER_RELEASE drops exactly the lines of an ended EPOCH of that owner. A whole message that cannot
be parsed is dropped from its port; one for this device lands in MSG_ID order, one for another is forwarded, one of no span here
is dropped and counted. TIMING_SEND sends the record of the stroke, the last exchange, the depth and the offset; TIMING_RECORD on a port that is not the parent's keeps the record and
the peer's depth alone. REFERENCE_MISSING for 16 strokes makes an ALIGNED device UNALIGNED. MEMBERSHIP joins the list received
to this device. STROKE_JOIN in the report phase takes the reference's stroke number, aligned, where it is ahead and the period
is the same; it refuses the join where it is not ahead; the ALIGN_OFFSET of 0 that a join leaves is the model's choice (log
123). (02_strokes.md R60, R62; 13_optical_links.md R480, R481, R482, R484, R491, R492, R493, R494, R498, R499) -/
def Obligations.PeersExchangeMessagesTilesAndTime : Prop :=
  (∀ (s : State) (a b c : Nat) (d : Int) (e : LinkNote) (f : List Member) (g : PeerReq) (h : PeerTile) (i1 : TimingRec),
    ∀ i ∈ ([.strokeJoin a b, .messageReceive a e, .timingSend a d, .timingRecord a i1 d, .referenceMissing, .membership a f b, .mreq a g, .mcpl a b h,
      .peerTimeout a, .peerRelease a b c] : List Instr), ∃ t, exec i s = .next t) ∧
  (∀ (s : State) (k : Nat) (q : PeerReq) (b : List Byte), s.exists_ k = true → q.store = some b →
      (s.holdsPeer k q b = false → exec (.mreq k q) s = .next s) ∧
      (s.holdsPeer k q b = true → ∃ t, exec (.mreq k q) s = .next t ∧ (peerKey q, b) ∈ (t.comp k).peerHeld ∧ (∀ x ∈ (t.comp k).peerHeld, x.1 = peerKey q → x.2 = b) ∧
        (∀ x, x.1 ≠ peerKey q → (x ∈ (t.comp k).peerHeld ↔ x ∈ (s.comp k).peerHeld)) ∧ ∀ j, j ≠ k → t.comp j = s.comp j)) ∧
    (∀ (s : State) (k id : Nat) (tile : PeerTile), exec (.mcpl k id tile) s = .next { s with link := { s.link with
      moves := s.link.moves.map fun m => if m.comp = k ∧ m.id = id ∧ m.tile = tile.index then { m with got := true, form := tile.form } else m } }) ∧
    (∀ (s : State) (o : Nat) (a : Adm), s.admOf o = some a → (∃ m ∈ s.link.moves, m.order = o ∧ m.got = false ∧ m.since + 16 ≤ s.stroke.number) →
      ∃ t, exec (.peerTimeout o) s = .next t ∧ Answered s t a.cmd a.op .peerUnreachable 0 ∧ (∀ c ∈ t.commits, c.order ≠ o ∧ c ∈ s.commits) ∧
        ∀ m ∈ t.link.moves, m.order ≠ o) ∧
    (∀ (s : State) (o : Nat), s.admOf o = none → (∃ m ∈ s.link.moves, m.order = o ∧ m.got = false ∧ m.since + 16 ≤ s.stroke.number) →
      ∃ t, exec (.peerTimeout o) s = .next t ∧ t.commits = s.commits.filter (fun c => c.order != o) ∧ (∀ m ∈ t.link.moves, m.order ≠ o) ∧
        t.replies = s.replies.map fun r => if r.cmd.order = o then { r with status := Status.peerUnreachable.code, detail := 0 } else r) ∧
    (∀ (s : State) (o : Nat), (∀ m ∈ s.link.moves, m.order = o → m.got = false → s.stroke.number < m.since + 16) → exec (.peerTimeout o) s = .next s) ∧
    (∀ (s : State) (n k e : Nat), ∃ t, exec (.peerRelease n k e) s = .next t ∧ ∀ j, (t.comp j) =
      { s.comp j with peerHeld := (s.comp j).peerHeld.filter fun q => !releasedBy n k e q.1 }) ∧
    (∀ (s : State) (p : Nat) (note : LinkNote) (w : Nat × List Byte), p < 16 → (s.port p).st = .up → (s.port p).whole.find? s.takable = some w →
      msgOf w.1 w.2 = none → exec (.messageReceive p note) s = .next (s.modPort p fun x => { x with whole := eraseFirst w x.whole })) ∧
    (∀ (s : State) (p : Nat) (m : LinkMsg) (w : Nat × List Byte), p < 16 → (s.port p).st = .up → (s.port p).whole.find? s.takable = some w →
      msgOf w.1 w.2 = some m → s.spanComp m.span = none → ∀ note, exec (.messageReceive p note) s = .next
        (let t := s.modPort p fun x => { x with whole := eraseFirst w x.whole }
         { t with link := { t.link with routeDrops := sat64 t.link.routeDrops 1 } })) ∧
    (∀ (s : State) (p k : Nat) (m : LinkMsg) (w : Nat × List Byte), p < 16 → (s.port p).st = .up → (s.port p).whole.find? s.takable = some w →
      msgOf w.1 w.2 = some m → s.spanComp m.span = some k →
      (s.link.node = some m.dest → m.groupIndex = 0xFFFF → m.msgId = assocGet s.link.gotIds (m.src, m.span, m.vc) + 1 →
        ∃ t, exec (.messageReceive p .none) s = .next t ∧ t.link.landed = s.link.landed ++ [m] ∧
          assocGet t.link.gotIds (m.src, m.span, m.vc) = m.msgId ∧ t.comps = s.comps) ∧
      (s.link.node ≠ some m.dest → ∀ note, exec (.messageReceive p note) s = .next
        ((s.modPort p fun x => { x with whole := eraseFirst w x.whole }).forward k m))) ∧
    (∀ (s : State) (p : Nat) (tx : Int), p < 16 → (s.port p).st = .up → exec (.timingSend p tx) s = .next (s.modPort p fun x => { x with timingSent := some (s.timingOut p tx) })) ∧
    (∀ (s : State) (p : Nat) (r : TimingRec) (rx : Int), p < 16 → (s.port p).st = .up → s.link.ref = s.link.node → s.watch.raised = [] →
      exec (.timingRecord p r rx) s = .next (s.modPort p fun x =>
        { x with timing := some (r.tx, rx), peerDepth := some r.depth, peerOffset := r.offset, depth := r.depth + 1 })) ∧
    (∀ s : State, s.calm → (s.stroke.refMissing < 16 → exec .referenceMissing s = .next s) ∧
      (16 ≤ s.stroke.refMissing → s.stroke.align = .aligned → ∃ t, exec .referenceMissing s = .next t ∧ t.stroke = { s.stroke with align := .unaligned })) ∧
    (∀ (s : State) (p ref : Nat) (l : List Member), p < 16 → (s.port p).st = .up → (∃ m ∈ unionMembers (l ++ [s.self]), m.node = ref) →
      ∃ t, exec (.membership p l ref) s = .next t ∧ t.link.members = unionMembers (l ++ [s.self]) ∧ t.link.ref = some ref ∧ t.comps = s.comps) ∧
    (∀ (s : State) (n p : Nat), s.calm → s.link.ref ≠ s.link.node → s.stroke.phase = .report → s.link.ports = [(p, s.port p)] → (s.port p).st = .align →
      (s.port p).order = none → (s.port p).depth ≤ 8 → p < 16 →
      (s.stroke.number < n → ∃ t, exec (.strokeJoin n s.stroke.period) s = .next t ∧ t.stroke.number = n - 1 ∧ t.stroke.align = .aligned ∧
        t.stroke.alignOffset = 0 ∧ (t.port p).st = .up) ∧
      (n ≤ s.stroke.number → s.stroke.align ≠ .unaligned → ∃ t, exec (.strokeJoin n s.stroke.period) s = .next t ∧ t.stroke.number = s.stroke.number ∧ (t.port p).st = .dark ∧
        t.link.refused = some 1)) ∧
    ∀ (s : State) (n q : Nat), s.calm → (s.link.ref = s.link.node ∨ s.stroke.phase ≠ .report) → exec (.strokeJoin n q) s = .next s

/-- With legal fields an admitted POWER.SET, POWER.PIN of a priority ring, LOG.CONFIG or TRACE.CONFIG that ends tracing
completes with OK and leaves its setting for settle, which makes it pending; nothing in force changes. POWER.QUERY, TELEM.READ,
LOG.QUERY and ALARM.READ complete with OK and their record, ALARM.READ with the number of slots in DETAIL. ALARM.ACK completes
with OK and leaves its acknowledgement for settle: there every record that it takes is ACKED, an overflow slot emptied, every
other record as before, and DETAIL is the number acknowledged.
(15_power_states.md R545, R561, R562, R563; 16_nightwatch_and_logs.md R579, R587, R593, R594, R595) -/
def Obligations.PowerCommandsComplete : Prop :=
  (∀ (c : Cmd) (s : State) (cap limit : Nat), s.admits 0x0A01 c → c.block.length = 16 → cap = u8 c.block 0 → limit = u16 c.block 2 →
      (cap = 1 ∨ 3 ≤ cap ∧ cap ≤ 7) → u8 c.block 1 = 0 → 16 ≤ limit → u32 c.block 4 = (if cap = 7 then 0x4E494748 else 0) → zeroAt c.block 8 8 = true →
      exec (.powerSet c) s = .next ((s.commit c (.powerSet cap limit)).reply c 0x0A01 .ok 0)) ∧
    (∀ (c : Cmd) (s : State), s.admits 0x0A02 c → c.block.length = 8 → u64 c.block 0 % 64 = 0 → s.power.burst = none →
      ∃ b, exec (.powerQuery c) s = .next ((s.record c.fn (u64 c.block 0) b).reply c 0x0A02 .ok 0) ∧ b.length = 64 ∧ u8 b 0 = s.power.state.code ∧
        u8 b 3 = s.power.cap % 256 ∧ u16 b 6 = s.power.deferLimit % 65536 ∧ (c.fn ≠ .pf → u8 b 1 = 0 ∧ u8 b 2 = 0)) ∧
    (∀ (c : Cmd) (s : State) (k : Nat), s.admits 0x0A03 c → c.fn = .vf k → c.block.length = 16 → u8 c.block 0 = 2 →
      (u8 c.block 1 ≤ 3 ∨ u8 c.block 1 = 0xFF) → zeroAt c.block 2 2 = true → u32 c.block 4 = 0 → zeroAt c.block 8 8 = true →
      exec (.powerPin c) s = .next ((s.commit c (.powerPin k 2 (u8 c.block 1) 0)).reply c 0x0A03 .ok 0)) ∧
    (∀ (c : Cmd) (s : State) (a n : Nat), s.admits 0x0A10 c → c.block.length = 16 → a = u16 c.block 0 → n = u16 c.block 2 → a ≤ 255 → 1 ≤ n →
      a + n ≤ 256 → zeroAt c.block 4 4 = true → u64 c.block 8 % 64 = 0 →
      exec (.telemRead c) s = .next ((s.record c.fn (u64 c.block 8) ((upFrom a n).flatMap (telemBytes s.watch))).reply c 0x0A10 .ok 0)) ∧
    (∀ (c : Cmd) (s : State) (n : Budgets), s.admits 0x0A11 c → c.block.length = 16 → u8 c.block 0 ≤ 32 → u8 c.block 1 ≤ 32 → u8 c.block 2 ≤ 64 → u8 c.block 3 ≤ 4 →
      u8 c.block 4 ≤ 2 → u8 c.block 5 ≤ 3 → zeroAt c.block 6 10 = true →
      n = ⟨u8 c.block 0, u8 c.block 1, u8 c.block 2, u8 c.block 3, u8 c.block 4, u8 c.block 5⟩ →
      exec (.logConfig c) s = .next ((s.commit c (.logBudgets n)).reply c 0x0A11 .ok 0)) ∧
    (∀ (c : Cmd) (s : State) (k : Nat), s.admits 0x0A12 c → c.fn = .vf k → c.block.length = 16 → u16 c.block 0 = 0 → u8 c.block 2 = 0 → u8 c.block 3 ≤ 31 →
      zeroAt c.block 4 12 = true →
      exec (.traceConfig c) s = .next ((s.commit c (.traceSet k none)).reply c 0x0A12 .ok 0)) ∧
    (∀ (c : Cmd) (s : State) (a n : Nat) (l : List (Nat × AlarmRec)), s.admits 0x0A13 c → c.block.length = 24 → a = u16 c.block 0 → n = u16 c.block 2 →
      a ≤ 4095 → 1 ≤ n → a + n ≤ 4096 → u8 c.block 4 ≤ 1 → zeroAt c.block 5 3 = true → u64 c.block 8 % 64 = 0 → zeroAt c.block 16 8 = true →
      l = s.watch.alarms.filter (fun p => a ≤ p.1 && p.1 < a + n && (u8 c.block 4 == 0 || !p.2.acked)) →
      exec (.alarmRead c) s = .next ((s.record c.fn (u64 c.block 8) (l.flatMap fun p => alarmBytes p.1 p.2)).reply c 0x0A13 .ok l.length)) ∧
    (∀ (c : Cmd) (s : State) (a n : Nat), s.admits 0x0A14 c → c.block.length = 16 → a = u16 c.block 0 → n = u16 c.block 2 → a ≤ 4095 → 1 ≤ n →
      a + n ≤ 4096 → zeroAt c.block 4 4 = true →
      exec (.alarmAckCommand c) s = .next ((s.commit c (.alarmAck c.order a n (u64 c.block 8))).reply c 0x0A14 .ok 0)) ∧
    (∀ (s : State) (f : Fn) (o a n x : Nat), ∃ t, s.applyCommit f (.alarmAck o a n x) = t ∧
      (t.replies = s.replies.map fun r => if r.admitted && r.cmd.order == o then { r with detail := (s.watch.alarms.filter (ackable a n x)).length } else r) ∧
      (∀ p ∈ s.watch.alarms, ackable a n x p = true → p.1 < 4032 → (p.1, { p.2 with acked := true }) ∈ t.watch.alarms) ∧
      (∀ p ∈ t.watch.alarms, ackable a n x p = false) ∧
      ∀ p, ackable a n x p = false → p.2.acked = false → (p ∈ t.watch.alarms ↔ p ∈ s.watch.alarms)) ∧
    (∀ (s : State) (f : Fn),
      (∀ cap limit, s.applyCommit f (.powerSet cap limit) = { s with power := { s.power with setPending := some (cap, limit) } }) ∧
      (∀ k x r y, s.exists_ k = true → (s.applyCommit f (.powerPin k x r y)).comp k = { s.comp k with pinsPending := (s.comp k).pinsPending ++ [(x, r, y)] }) ∧
      (∀ n, s.applyCommit f (.logBudgets n) = { s with watch := { s.watch with budgetsPending := some n } }) ∧
      ∀ k x, s.exists_ k = true → (s.applyCommit f (.traceSet k x)).comp k = { s.comp k with tracePending := some x }) ∧
    ∀ (c : Cmd) (s : State), s.admits 0x0A15 c → c.block.length = 8 → u64 c.block 0 % 64 = 0 →
      ∃ b, exec (.logQuery c) s = .next ((s.record c.fn (u64 c.block 0) b).reply c 0x0A15 .ok 0) ∧ b.length = 64 ∧
        (c.fn = .pf → u64 b 0 = s.watch.recordsWritten % 2 ^ 64 ∧ zeroAt b 48 16 = true) ∧
        (∀ k, c.fn = .vf k → zeroAt b 0 48 = true ∧ u64 b 48 = ctrGet (s.comp k).ctrs .traceRecords % 2 ^ 64)

/-- FW.STAGE with legal fields empties the inactive bank and withdraws an activation; a valid image not below its counter waits
for settle with OK, an invalid one gives FW_IMAGE_INVALID, a lower one FW_ROLLBACK. FW.ACTIVATE of inactive banks that are valid
and not below their counters leaves for settle that they become pending and, with WHEN 1, that the restart falls due. FW.COMMIT
leaves for settle that each named kind whose counter is lower takes the running number, OK_NOTE where none is. FW.QUERY
completes with its record. LIFECYCLE.ADVANCE to the next state with a good entropy source leaves the arming with a fresh
challenge in DETAIL; confirmed with that challenge within 1,024 strokes it leaves the transition; with another challenge it is
disarmed with NOT_PERMITTED. The lifecycle in force never changes at once.
(11_crucible_and_keys.md R437, R440; 17_dawn_reset_faults.md R605, R606, R607, R619, R620, R621, R622, R623) -/
def Obligations.FirmwareAndLifecycleCommandsComplete : Prop :=
  (∀ (c : Cmd) (s : State) (kind len : Nat) (b : Bank), s.admits 0x0B01 c → c.block.length = 32 → kind = u8 c.block 0 → len = u32 c.block 16 →
      (kind = 1 ∨ kind = 2) → zeroAt c.block 1 7 = true → u64 c.block 8 % 64 = 0 → 4928 ≤ len → bodyLenValid kind (len - 4928) = true →
      zeroAt c.block 20 12 = true → b = bankOf kind (s.hostRead c.fn (u64 c.block 8) len) →
      ∃ t, exec (.fwStage c) s = .next t ∧ (t.dawn.banks kind).inactiveBank = {} ∧ (t.dawn.banks kind).pending = false ∧
        (t.dawn.banks kind).activeBank = (s.dawn.banks kind).activeBank ∧
        (b.valid = false → Answered s t c 0x0B01 .fwImageInvalid 0 ∧ ∀ p ∈ t.commits, p ∈ s.commits) ∧
        (b.valid = true → b.svn < (s.dawn.banks kind).counter → Answered s t c 0x0B01 .fwRollback 0 ∧ ∀ p ∈ t.commits, p ∈ s.commits) ∧
        (b.valid = true → (s.dawn.banks kind).counter ≤ b.svn → Answered s t c 0x0B01 .ok 0 ∧
          t.commits = s.commits ++ [⟨c.fn, c.order, .fwStage kind b⟩])) ∧
    (∀ (c : Cmd) (s : State) (m : Nat), s.admits 0x0B02 c → c.block.length = 16 → m = u8 c.block 0 → m ≤ 3 → u8 c.block 1 ≤ 1 →
      (u8 c.block 1 = 1 ∨ m ≠ 0) → zeroAt c.block 2 2 = true → u32 c.block 4 = (if u8 c.block 1 = 1 then 0x52455354 else 0) → zeroAt c.block 8 8 = true →
      (∀ k ∈ kindsOf m, (s.dawn.banks k).inactiveBank.valid = true ∧ (s.dawn.banks k).counter ≤ (s.dawn.banks k).inactiveBank.svn) →
      exec (.fwActivate c) s = .next ((s.commit c (.fwPending (kindsOf m) (u8 c.block 1 == 1))).reply c 0x0B02 .ok 0)) ∧
    (∀ (s : State) (f : Fn) (m : Nat) (r : Bool), ∃ t, s.applyCommit f (.fwPending (kindsOf m) r) = t ∧ (∀ k ∈ kindsOf m, (t.dawn.banks k).pending = true) ∧
        (∀ k, k = 1 ∨ k = 2 → k ∉ kindsOf m → t.dawn.banks k = s.dawn.banks k) ∧ t.power.restartDue = (s.power.restartDue || r)) ∧
    (∀ (c : Cmd) (s : State) (m : Nat), s.admits 0x0B03 c → c.block.length = 8 → m = u8 c.block 0 → 1 ≤ m → m ≤ 3 → zeroAt c.block 1 7 = true →
      ((∀ k ∈ kindsOf m, (s.dawn.banks k).activeBank.svn ≤ (s.dawn.banks k).counter) → exec (.fwCommit c) s = .next (s.reply c 0x0B03 .okNote 0)) ∧
      ((∃ k ∈ kindsOf m, (s.dawn.banks k).counter < (s.dawn.banks k).activeBank.svn) → s.raising = [] → (∀ k ∈ kindsOf m, (s.dawn.banks k).slots.length < 255) →
        exec (.fwCommit c) s = .next ((s.commit c (.fwRaise (s.lowKinds (kindsOf m)))).reply c 0x0B03 .ok 0))) ∧
    (∀ (s : State) (f : Fn) (m : Nat), ∀ k ∈ kindsOf m, ((s.applyCommit f (.fwRaise (s.lowKinds (kindsOf m)))).dawn.banks k).counter =
      max (s.dawn.banks k).counter (s.dawn.banks k).activeBank.svn) ∧
    (∀ (c : Cmd) (s : State), s.admits 0x0B04 c → c.block.length = 8 → u64 c.block 0 % 64 = 0 →
      ∃ b, exec (.fwQuery c) s = .next ((s.record c.fn (u64 c.block 0) b).reply c 0x0B04 .ok 0) ∧ b.length = 64 ∧
        u8 b 0 = s.dawn.fw.active % 256 ∧ u32 b 12 = s.dawn.fw.counter % 2 ^ 32 ∧ u64 b 32 = s.dawn.leaseCounter % 2 ^ 64 ∧ u64 b 56 = s.dawn.dawns % 2 ^ 64) ∧
    (∀ (c : Cmd) (s : State) (g : Nat), s.admits 0x0B20 c → c.block.length = 16 → g = u8 c.block 0 → 1 ≤ g → g ≤ 4 → zeroAt c.block 2 2 = true →
      zeroAt c.block 8 8 = true →
      (u8 c.block 1 = 0 → u32 c.block 4 = 0 → g = s.dawn.lifecycle + 1 → s.dawn.entropyOk = true →
        ∃ t ch, exec (.lifecycleAdvance c) s = .next t ∧ Answered s t c 0x0B20 .ok ch ∧ t.dawn = s.dawn ∧
          t.commits = s.commits ++ [⟨c.fn, c.order, .armed (some (g, ch, s.stroke.number))⟩]) ∧
      (u8 c.block 1 = 0 → u32 c.block 4 = 0 → g ≠ s.dawn.lifecycle + 1 → exec (.lifecycleAdvance c) s = .next (s.reply c 0x0B20 .notPermitted 0)) ∧
      (∀ n, u8 c.block 1 = 1 → s.armedSeen = some (g, u32 c.block 4, n) → c.stroke ≤ n + 1024 → g = s.dawn.lifecycle + 1 →
        exec (.lifecycleAdvance c) s = .next (((s.commit c (.armed none)).commit c (.transition g)).reply c 0x0B20 .ok 0)) ∧
      (∀ ch n, u8 c.block 1 = 1 → s.armedSeen = some (g, ch, n) → ch ≠ u32 c.block 4 →
        exec (.lifecycleAdvance c) s = .next (s.disarm.reply c 0x0B20 .notPermitted 0) ∧ s.disarm.armedSeen = none)) ∧
    ∀ (s : State) (f : Fn), (∀ x, s.applyCommit f (.armed x) = { s with dawn := { s.dawn with armed := x } }) ∧
      ∀ g, s.applyCommit f (.transition g) = { s with dawn := { s.dawn with transition := some g } }

/-- Every one of BUDGET_PERIOD, LEVEL_RISE, LEVEL_FALL, THERMAL_TRIP, NIGHT_EXIT, BURST_START, BURST_END, INPUT_UNDERVOLTAGE,
STANDBY_POWER_ON, STANDBY_POWER_LOSS, RESET_ASSERT, RESET_RELEASE, DAWN_START, REFCLK_LOSS, REFCLK_RESTORE answers a next state
in every state, whatever its operands; what that state holds: In steps in which no rule acts on an event: a reading whose level
is above the source's raises that level, and the state follows the levels and the cap, or Night is entered where they allow no
other; a lower reading does nothing; a recovery held for its time lowers a level by one at a boundary, where no floor holds it.
A burst starts at a boundary in Noon with budget, rest and cool dies and ends after its whole strokes. A junction at 130 degrees
latches the trip and leaves service. The exit conditions of Night make the device ready for Dawn. Undervoltage opens the input
switch with Hearth not cleared. Loss of standby power leaves only what is nonvolatile, and its return enters Night. RESET_N held
low for 10 us enters Night, for less than 1 us does nothing and between the two does one or the other; its release frees the
latch only when it may. Loss of the reference clock is held over until it is back. In Night and when failed a budget period
counts. A Dawn whose conditions hold, with both banks valid and a tested command processor, brings the main domain into service
at stroke 0 with that holder, and its lifecycle is the one burnt or, where a copy reads back no code, RETIRED; RESET_N asserted
during a step stops it in Night; one whose conditions do not hold does nothing. (15_power_states.md R542, R543, R544, R545,
R547, R556, R558, Table 15.3; 17_dawn_reset_faults.md R598, R599, R600, R602; 18_package_and_pins.md R637, R639, R641, R643,
R644, R647) -/
def Obligations.LevelsBurstsAndSuppliesMoveThePowerState : Prop :=
  (∀ (s : State) (a b : Nat) (c : DawnIn) (d : Int) (e : Source),
    ∀ i ∈ ([.budgetPeriod, .levelRise e d a, .levelFall e d a, .thermalTrip a d, .nightExit a b d, .burstStart, .burstEnd, .inputUndervoltage d, .standbyPowerOn,
      .standbyPowerLoss, .resetAssert a, .resetRelease a, .dawnStart c, .refclkLoss, .refclkRestore] : List Instr), ∃ t, exec i s = .next t) ∧
  (∀ (s : State) (src : Source) (r : Int) (o l : Nat), s.calm → s.power.main = .service → l = (match src with | .supply => supplyLevel r | .thermal => thermalLevel r) →
      (l ≤ s.level src → exec (.levelRise src r o) s = .next s) ∧
      (s.level src < l → ∃ t, exec (.levelRise src r o) s = .next t ∧
        (l < 5 → s.power.supply < 5 → s.power.thermal < 5 → s.power.cap < 7 → t.level src = l ∧ t.power.main = .service ∧ t.power.burst = none ∧
          (s.dawn.fence = none → t.power.state = t.allowed)) ∧
        (l = 5 → t.power.main = .night ∧ t.power.state = .night ∧ t.power.nightCause = srcNight src ∧ t.comps = [] ∧ t.queue = []))) ∧
    (∀ (s : State) (src : Source) (r : Int) (u : Nat), s.calm → s.power.main = .service → s.stroke.phase = .boundary → recovered src (s.level src) r u = true →
      s.floor src < s.level src → s.power.supply < 5 → s.power.thermal < 5 → s.power.cap < 7 →
      ∃ t, exec (.levelFall src r u) s = .next t ∧ t.level src = s.level src - 1 ∧ (s.dawn.fence = none → t.power.state = t.allowed)) ∧
    (∀ (s : State) (t : Int) (n p b : Nat), n = s.stroke.number → p = s.stroke.period → b = burstLen p → s.power.main = .service →
      s.stroke.phase = .boundary → s.stroke.burst = true → s.power.burst = none → s.power.state = .noon → s.power.supply = 0 → s.power.thermal = 0 →
      44000 ≤ (s.watch.chan 84).yRule / 2 ^ 16 → tjMax s.watch = some t → t < 1600 → (∀ e, s.power.lastBurstEnd = some e → e + 4 * b ≤ n) →
      burstTime s.power.bursts s.strokeNs (n * s.strokeNs) + b * p * 10000 ≤ 200000000 →
      exec .burstStart s = .next { s with power := { s.power with burst := some ⟨n, b⟩, state := .highNoon, since := n } }) ∧
    (∀ (s : State) (b : Burst), s.power.burst = some b → s.power.main = .service → s.stroke.phase = .boundary → s.dawn.fence = none →
      s.power.supply < 5 → s.power.thermal < 5 → s.power.cap < 7 →
      (s.stroke.number < b.start + b.length → exec .burstEnd s = .next s) ∧
      (b.start + b.length ≤ s.stroke.number → ∃ t, exec .burstEnd s = .next t ∧ t.power.burst = none ∧ t.power.state = t.allowed ∧
        t.power.lastBurstEnd = some s.stroke.number ∧ t.power.burstsEndedEarly = s.power.burstsEndedEarly)) ∧
    (∀ (s : State) (i : Nat) (v : Int), s.calm → (i < 72 ∨ i = 80) → s.power.main ≠ .unpowered →
      (v < 2080 → exec (.thermalTrip i v) s = .next s) ∧
      (2080 ≤ v → ∃ t, exec (.thermalTrip i v) s = .next t ∧ t.power.tripLatch = true ∧ t.power.main ≠ .service)) ∧
    (∀ (s : State) (p q : Nat) (m : Int), exec (.nightExit p q m) s = .next (if s.power.main = .night ∧ exitHolds s p q m = true
      then { s with power := { s.power with nightCause := .restart } } else s)) ∧
    (∀ (s : State) (m : Int), s.calm → m < 30000 → s.power.inputSwitch = true → ∃ t, exec (.inputUndervoltage m) s = .next t ∧
      t.power.inputSwitch = false ∧ t.power.hearthCleared = false ∧ t.power.main ≠ .service) ∧
    (∀ s : State, s.power.main ≠ .unpowered → ∃ t, exec .standbyPowerLoss s = .next t ∧ t.power.main = .unpowered ∧ t.comps = [] ∧ t.fns = [] ∧ t.queue = [] ∧
      t.watch.alarms = [] ∧ t.dawn.fuseA = s.dawn.fuseA ∧ t.dawn.fw = s.dawn.fw ∧ t.dawn.rule = s.dawn.rule ∧ t.power.tripLatch = s.power.tripLatch ∧ t.hostMem = s.hostMem) ∧
    (∀ s : State, s.power.main = .unpowered → ∃ t, exec .standbyPowerOn s = .next t ∧ t.power.main = .night ∧ t.power.nightCause = .powerOn) ∧
    (∀ (s : State) (u : Nat), s.calm → s.power.main = .service → s.power.resetN = true →
      (u = 0 → exec (.resetAssert u) s = .next s) ∧
      (1 ≤ u → u < 10 → ∃ t, exec (.resetAssert u) s = .next t ∧ (t.power = s.power ∨ t.power.main = .night ∧ t.power.nightCause = .reset ∧ t.power.resetN = false)) ∧
      (10 ≤ u → ∃ t, exec (.resetAssert u) s = .next t ∧ t.power.main = .night ∧ t.power.nightCause = .reset ∧ t.power.resetN = false)) ∧
    (∀ (s : State) (m : Nat), s.power.main ≠ .unpowered → s.power.resetN = false → ∃ t, exec (.resetRelease m) s = .next t ∧ t.power.resetN = true ∧
      (t.power.tripLatch = true ↔ s.power.tripLatch = true ∧ (m < 10 ∨ s.power.tripInReset = true ∨ 1520 < (s.watch.chan 80).raw ∨ 1520 < (s.watch.chan 83).raw))) ∧
    (∀ s : State, (s.power.main = .service → exec .refclkLoss s = .next { s with power := { s.power with holdover := true, refclkBack := false } }) ∧
      (s.power.holdover = true → exec .refclkRestore s = .next { s with power := { s.power with refclkBack := true } })) ∧
    (∀ (s : State) (d : DawnIn), s.watch.raised = [] → dawnReady d s = false → exec (.dawnStart d) s = .next s) ∧
    (∀ (s : State) (d : DawnIn) (f g : Banks × Bool), dawnReady d s = true → s.watch.raised = [] → d.stop = none → d.supply = 0 → d.thermal = 0 → d.entropyOk = true → d.refclk = true → d.selfTest = true →
      (d.cpA = true ∨ d.cpB = true) → s.dawn.fw.select = some f → s.dawn.rule.select = some g →
      ∃ t, exec (.dawnStart d) s = .next t ∧ t.power.main = .service ∧ t.power.pwrGood = true ∧ t.power.inputSwitch = true ∧ t.stroke.number = 0 ∧
        t.stroke.period = 25 ∧ t.dawn.holder = some (if d.cpA then .a else .b) ∧ t.dawn.leaseCounter = s.dawn.leaseCounter + 1 ∧
        t.dawn.lifecycle = (readFuses (readCopy s.dawn.fuseA d.fuseA) (readCopy s.dawn.fuseB d.fuseB)).1 ∧ t.dawn.fw = f.1 ∧ t.dawn.rule = g.1 ∧ t.comps = [] ∧ t.queue = [] ∧ t.transport.length = 6 ∧
        (s.dawn.fuseB = s.dawn.fuseA → 1 ≤ s.dawn.fuseA → s.dawn.fuseA ≤ 4 → t.dawn.lifecycle = s.dawn.fuseA ∨ t.dawn.lifecycle = 4)) ∧
    (∀ (s : State) (d : DawnIn) (f g : Banks × Bool) (m : Nat), dawnReady d s = true → s.watch.raised = [] → d.stop = some (m, .reset) → m ≤ 7 →
      d.entropyOk = true → d.refclk = true → d.selfTest = true → (d.cpA = true ∨ d.cpB = true) → s.dawn.fw.select = some f → s.dawn.rule.select = some g →
      ∃ t, exec (.dawnStart d) s = .next t ∧ t.power.main = .night ∧ t.power.nightCause = .reset ∧ t.power.resetN = false ∧ t.dawn.holder = none ∧
        t.transport = [] ∧ t.comps = [] ∧ t.queue = []) ∧
    (∀ s : State, (s.power.main = .service ∨ s.power.main = .unpowered) → s.watch.raised = [] → exec .budgetPeriod s = .next s) ∧
    ∀ s : State, (s.power.main = .night ∨ s.power.main = .failed) → s.calm → ∃ t, exec .budgetPeriod s = .next t ∧
      t.watch.periods = (s.watch.periods + 1) % 2 ^ 63 ∧ t.power = s.power ∧ t.stroke = s.stroke ∧ t.dawn = s.dawn

/-- Every one of NIGHTWATCH_TICK, SENSOR_FAULT, RULE_ASSERT, RULE_CLEAR, TAMPER, ENTROPY_FAULT, DRBG_RESEED, LEASE_RENEWAL,
LEASE_LAPSE, DOUBLE_CLAIM, LEASE_REGRANT, FENCE_ROUND_FAIL answers a next state in every state, whatever its operands; what that
state holds: In steps in which no rule acts on an event: a tick converts each of the 256 channels by its configuration, counts,
and leaves power and stroke as they were. Five bad samples fault a channel and empty its window. A channel rule asserts once its
hold ticks are complete, and clears once its clear ticks are; one whose counts are not complete does nothing; an asserting rule
of action 5 enters Night. A tamper channel bad for three ticks enters Night but in MANUFACTURE. An entropy fault stops the
source until Dawn, and a reseed counts. A lease message of the holder for the next stroke in its window renews the lease; any
other claim, or a lapse at a boundary, fences: no holder, Dusk holding, the host link down. After a fence a boundary grants the
lease to the processor that R613 names, and a failed round counts, the third failing the device. (11_crucible_and_keys.md R409;
16_nightwatch_and_logs.md R566, R567, R568, R571, R572, R574; 17_dawn_reset_faults.md R610, R611, R613, R617) -/
def Obligations.NightwatchActsOnItsCounts : Prop :=
  (∀ (s : State) (a b c : Nat) (d e : Bool) (f : Cp) (g : List (Option Int)),
    ∀ i ∈ ([.nightwatchTick g, .sensorFault a, .ruleAssert a, .ruleClear a, .tamper a, .entropyFault a, .drbgReseed, .leaseRenewal f a b c, .leaseLapse,
      .doubleClaim f a b, .leaseRegrant d e, .fenceRoundFail] : List Instr), ∃ t, exec i s = .next t) ∧
  (∀ (s : State) (x : List (Option Int)), s.power.main ≠ .unpowered → ∃ t, exec (.nightwatchTick x) s = .next t ∧ t.watch.ticks = s.watch.ticks + 1 ∧
      (∀ i < 256, t.watch.chan i = peakChan i (sampleChan (Tab.get {} s.watch.table.chans i) (s.watch.chan i) (x[i]?.getD none))) ∧
      t.power = s.power ∧ t.stroke = s.stroke ∧ t.comps = s.comps ∧ t.watch.alarms = s.watch.alarms) ∧
    (∀ (s : State) (i : Nat), s.calm →
      ((s.watch.chan i).badRun < 5 ∨ (s.watch.chan i).st = .faulted ∨ (s.watch.chan i).st = .off → exec (.sensorFault i) s = .next s) ∧
      (5 ≤ (s.watch.chan i).badRun → (s.watch.chan i).st ≠ .faulted → (s.watch.chan i).st ≠ .off → s.power.supply < 5 → s.power.thermal < 5 →
        s.power.cap < 7 → ∃ t, exec (.sensorFault i) s = .next t ∧ (t.watch.chan i).st = .faulted ∧ (t.watch.chan i).win = [] ∧
          (s.power.main = .service → dieBlind t.watch = true → 3 ≤ t.power.thermal))) ∧
    (∀ (s : State) (i : Nat) (r : Rule), s.calm → s.watch.table.rules[i]? = some r → isChanRule r = true →
      ((Tab.get {} s.watch.ruleSt i).asserted = true ∨ (Tab.get {} s.watch.ruleSt i).ticks < r.holdTicks → exec (.ruleAssert i) s = .next s) ∧
      ((Tab.get {} s.watch.ruleSt i).asserted = false → r.holdTicks ≤ (Tab.get {} s.watch.ruleSt i).ticks →
        (r.action = 0 → ∃ t, exec (.ruleAssert i) s = .next t ∧ (Tab.get {} t.watch.ruleSt i).asserted = true ∧ (Tab.get {} t.watch.ruleSt i).ticks = 0 ∧
          (Tab.get {} t.watch.ruleSt i).assertions = min ((Tab.get {} s.watch.ruleSt i).assertions + 1) 0xFFFFFFFF ∧ t.power = s.power) ∧
        (r.action = 5 → s.power.main = .service → ∃ t, exec (.ruleAssert i) s = .next t ∧ t.power.main = .night ∧ t.power.nightCause = .rule)) ∧
      ((Tab.get {} s.watch.ruleSt i).asserted = true → r.clearTicks ≤ (Tab.get {} s.watch.ruleSt i).ticks →
        ∃ t, exec (.ruleClear i) s = .next t ∧ Tab.get {} t.watch.ruleSt i = { Tab.get {} s.watch.ruleSt i with ticks := 0, asserted := false } ∧ t.power = s.power) ∧
      ((Tab.get {} s.watch.ruleSt i).asserted = false ∨ (Tab.get {} s.watch.ruleSt i).ticks < r.clearTicks → exec (.ruleClear i) s = .next s)) ∧
    (∀ (s : State) (i : Nat), s.calm → 252 ≤ i → i ≤ 255 → s.power.main = .service →
      ((s.watch.chan i).tamperRun < 3 → exec (.tamper i) s = .next s) ∧
      (3 ≤ (s.watch.chan i).tamperRun → ∃ t, exec (.tamper i) s = .next t ∧ (s.dawn.lifecycle = 1 → t.power = s.power) ∧
        (s.dawn.lifecycle ≠ 1 → t.power.main = .night ∧ t.power.nightCause = .tamper ∧ t.comps = []))) ∧
    (∀ (s : State) (n : Nat), s.calm → s.power.main ≠ .unpowered → ∃ t, exec (.entropyFault n) s = .next t ∧ t.dawn = { s.dawn with entropyOk := false } ∧
      t.power = s.power) ∧
    (∀ s : State, s.power.main ≠ .unpowered → s.dawn.entropyOk = true →
      exec .drbgReseed s = .next { s with dawn := { s.dawn with drbgRequests := 0, reseeds := s.dawn.reseeds + 1 } }) ∧
    (∀ (s : State) (cp : Cp) (n k o : Nat), s.calm → s.power.main = .service →
      (s.dawn.holder = some cp → n = s.dawn.leaseCounter → k = s.stroke.number + 1 → s.stroke.period * 10000 ≤ o + 10000 →
        o + 1000 ≤ s.stroke.period * 10000 → exec (.leaseRenewal cp n k o) s = .next { s with dawn := { s.dawn with leaseFor := k } }) ∧
      (s.doubleClaim cp n k = false → exec (.doubleClaim cp n k) s = .next s) ∧
      (s.doubleClaim cp n k = true → ∀ i ∈ [Instr.doubleClaim cp n k, .leaseRenewal cp n k o], ∃ t, exec i s = .next t ∧ t.dawn.holder = none ∧
        t.dawn.fence = some ⟨0, s.dawn.holder, 0⟩ ∧ t.dawn.fences = sat64 s.dawn.fences 1 ∧ t.power.state = .duskHolding ∧ t.host.up = false ∧
        (∀ p ∈ t.commits, p ∈ s.commits ∧ p.what.lasting = true) ∧ t.wordStores = [] ∧ t.works = []) ∧
      (s.dawn.holder.isSome = true → s.stroke.phase = .boundary → s.dawn.leaseFor ≠ s.stroke.number → ∃ t, exec .leaseLapse s = .next t ∧
        t.dawn.holder = none ∧ t.dawn.fence = some ⟨1, s.dawn.holder, 0⟩ ∧ t.power.state = .duskHolding) ∧
      (s.dawn.leaseFor = s.stroke.number → exec .leaseLapse s = .next s)) ∧
    (∀ (s : State) (a b : Bool) (f : Fence) (cp : Cp), s.dawn.fence = some f → regrantTo f a b = some cp → s.power.main = .service → s.stroke.phase = .boundary →
      ∃ t, exec (.leaseRegrant a b) s = .next t ∧ t.dawn = { s.dawn with holder := some cp, leaseCounter := s.dawn.leaseCounter + 1, leaseFor := s.stroke.number, fence := none } ∧
        t.power.state = s.allowed) ∧
    ∀ (s : State) (f : Fence), s.calm → s.dawn.fence = some f → ∃ t, exec .fenceRoundFail s = .next t ∧
      (f.rounds + 1 < 3 → t.dawn.fence = some { f with rounds := f.rounds + 1 } ∧ t.power = s.power) ∧
      (3 ≤ f.rounds + 1 → t.power.main = .failed ∧ t.dawn.dawnResult = 0x13 ∧ t.comps = [])

/-- Every one of HOST_LINK_TRAINING, HOST_LINK_DOWN, FUNCTION_LEVEL_RESET, D3HOT_TO_D0, VF_ENABLE_CLEAR, IDE_INSECURE,
DOE_ABORT, GET_VERSION, GET_CAPABILITIES, NEGOTIATE_ALGORITHMS, GET_DIGESTS, GET_CERTIFICATE, CHALLENGE, GET_MEASUREMENTS,
KEY_EXCHANGE, FINISH, PQ_FINISH, PQ_FINISH_TIMEOUT, GET_PQ_SIGNATURE, GET_PQ_CERT, END_SESSION, HEARTBEAT, HEARTBEAT_MISS,
KEY_UPDATE, UNSUPPORTED_SPDM_REQUEST, IDE_KM_KEY_PROG, K_SET_GO, LOCK_INTERFACE_REQUEST, START_INTERFACE_REQUEST,
STOP_INTERFACE, TDI_BIND, D0_TO_D3HOT, VF_ENABLE_SET, DOE_ERROR answers a next state in every state, whatever its operands; what
that state holds: Training in Flit mode at a legal rate and width brings the HOST link up; its loss makes every stream Insecure
and every function's reset due; a function level reset, D3hot, VF Enable and mailbox events change the function named. While a
mailbox takes requests: GET_VERSION starts the negotiation, GET_CAPABILITIES and NEGOTIATE_ALGORITHMS carry it on, each only
after the one before; then GET_DIGESTS, GET_CERTIFICATE, CHALLENGE, GET_MEASUREMENTS, GET_PQ_CERT and GET_PQ_SIGNATURE answer as
Table 11.1 says, KEY_EXCHANGE opens a session where fewer than two exist, FINISH establishes it or ends it, and the messages
inside an established session do what they say; without one they answer InvalidSession. Before the negotiation is complete each
answers UnexpectedRequest. (11_crucible_and_keys.md R412, R413, R414, R415, R416, R418, R420; 14_host_link.md R514, R517, R523,
R525, R526, R527) -/
def Obligations.MailboxAndLinkEventsAnswer : Prop :=
  (∀ (s : State) (a b c d e f : Nat) (g : Bool) (h : Fn) (i1 j k : List Byte) (l : Option (List Byte)),
    ∀ i ∈ ([.hostLinkTraining g a b, .hostLinkDown, .functionLevelReset h, .d3hotToD0 h, .vfEnableClear, .ideInsecure a b, .doeAbort h, .getVersion h,
      .getCapabilities h a, .negotiateAlgorithms h g, .getDigests h, .getCertificate h a b c, .challenge h a i1, .getMeasurements h a g i1, .keyExchange h a i1 l j,
      .finish h a i1 j k, .pqFinish h a i1, .pqFinishTimeout h a, .getPqSignature h, .getPqCert h a b, .endSession h a, .heartbeat h a, .heartbeatMiss h a,
      .keyUpdate h a b, .unsupportedSpdmRequest h a, .ideKmKeyProg h a b c d e f, .kSetGo h a b c, .lockInterfaceRequest h a b g, .startInterfaceRequest h a b i1,
      .stopInterface h a b, .tdiBind h a i1, .d0ToD3hot h, .vfEnableSet a, .doeError h a] : List Instr), ∃ t, exec i s = .next t) ∧
  (∀ (s : State) (r w : Nat), s.watch.raised = [] → s.serving = true → s.host.up = false → (r = 16 ∨ r = 32 ∨ r = 64) → (w = 8 ∨ w = 16) →
      exec (.hostLinkTraining true r w) s = .next { s with host := { s.host with up := true, rate := r, width := w } }) ∧
    (∀ s : State, s.calm → s.host.up = true → ∃ t, exec .hostLinkDown s = .next t ∧ t.host.up = false ∧
      (∀ b x, Tab.find? t.host.ide b = some x → x.secure = false) ∧ ∀ f ∈ allFns, (t.fnOf f).resetDue = true) ∧
    (∀ (s : State) (n : Nat), s.calm → ∃ t, exec (.ideInsecure n 0) s = .next t ∧ ∀ b x, Tab.find? t.host.ide b = some x → x.id = n → x.secure = false) ∧
    (∀ (s : State) (k n : Nat), s.host.up = true → (s.enabledFn (.vf k) = true →
        exec (.functionLevelReset (.vf k)) s = .next (s.modFn (.vf k) fun x => { x with resetDue := true }) ∧
        exec (.d0ToD3hot (.vf k)) s = .next (s.modFn (.vf k) fun x => { x with d3 := true })) ∧
      ((s.fnOf (.vf k)).d3 = true → ∃ t, exec (.d3hotToD0 (.vf k)) s = .next t ∧ t.fnOf (.vf k) = { s.fnOf (.vf k) with d3 := false, resetDue := true }) ∧
      (s.host.vfEnable = false → n ≤ 64 → exec (.vfEnableSet n) s = .next { s with host := { s.host with vfEnable := true, numVfs := n } }) ∧
      (s.host.vfEnable = true → k < 64 → ∃ t, exec .vfEnableClear s = .next t ∧ t.host.vfEnable = false ∧ (t.fnOf (.vf k)).resetDue = true)) ∧
    (∀ (s : State) (f : Fn), s.mailbox f = true →
      exec (.doeAbort f) s = .next (s.modFn f fun x => { x with doe := none, doeError := false }) ∧
      (∀ n, 16384 < n → exec (.doeError f n) s = .next (s.modFn f fun x => { x with doeError := true })) ∧
      (∃ t, exec (.getVersion f) s = .next t ∧ (t.fnOf f).doe = some (.version 0x13) ∧ (t.fnOf f).spdmStage = 1) ∧
      (∀ n, Responds (.unsupportedSpdmRequest f n) f (.error (.other n)) s) ∧
      (1 ≤ (s.fnOf f).spdmStage → ∃ t, exec (.getCapabilities f 0x13) s = .next t ∧ (t.fnOf f).doe = some .capabilities ∧ (t.fnOf f).spdmStage = 2) ∧
      (2 ≤ (s.fnOf f).spdmStage → ∃ t, exec (.negotiateAlgorithms f true) s = .next t ∧ (t.fnOf f).doe = some .algorithms ∧ (t.fnOf f).spdmStage = 3) ∧
      ((s.fnOf f).spdmStage ≠ 3 → Responds (.getDigests f) f (.error .unexpectedRequest) s ∧ ∀ m l, Responds (.challenge f l m) f (.error .unexpectedRequest) s)) ∧
    (∀ (s : State) (f : Fn), s.mailbox f = true → (s.fnOf f).spdmStage = 3 →
      Responds (.getDigests f) f (.digests (sha384 (Config.certChain 0))) s ∧
      (∀ o l, o < (Config.certChain 0).length →
        Responds (.getCertificate f 0 o l) f (.certificate (chainPortion (Config.certChain 0) o l).1 (chainPortion (Config.certChain 0) o l).2) s) ∧
      (∀ o l, o < (Config.certChain 1).length →
        Responds (.getPqCert f o l) f (.pqCert (chainPortion (Config.certChain 1) o l).1 (chainPortion (Config.certChain 1) o l).2) s) ∧
      (∀ m, Responds (.challenge f 0 m) f (.challengeAuth (s.ecdsaSign m)) s) ∧
      (∀ m b, Responds (.getMeasurements f 0 b m) f (.measurements (s.measBlocks f [1, 2, 3, 4, 5, 6]).length [] (if b then s.ecdsaSign m else [])) s) ∧
      (∀ g, (s.fnOf f).keptSig = some g → Responds (.getPqSignature f) f (.pqSignature g) s) ∧
      (∀ n a e m, e.length = 1568 → 2 ≤ (s.fnOf f).sessions.length → Responds (.keyExchange f n a (some e) m) f (.error .sessionLimitExceeded) s) ∧
      (∀ n a e m, e.length = 1568 → (s.fnOf f).sessions.length < 2 → s.dawn.entropyOk = true → ∃ t y, exec (.keyExchange f n a (some e) m) s = .next t ∧
        (t.fnOf f).sessions = (s.fnOf f).sessions ++ [y] ∧ y.established = false ∧ y.mutualAuth = s.mutual f ∧ y.tenantAuth = false ∧
        ∀ z ∈ (s.fnOf f).sessions, z.id ≠ y.id) ∧
      (∀ d y h g m, s.anySession f d = some y → y.established = false → y.mutualAuth = false →
        (Config.spdmSecret (ascii "req finished") y.secret h = m → ∃ t z, exec (.finish f d h g m) s = .next t ∧ (t.fnOf f).doe = some .finishRsp ∧
          t.session f d = some z ∧ z.th2 = sha384 h ∧ z.finishStroke = s.stroke.number) ∧
        (Config.spdmSecret (ascii "req finished") y.secret h ≠ m → ∃ t, exec (.finish f d h g m) s = .next t ∧
          (t.fnOf f).doe = some (.error .decryptError) ∧ t.anySession f d = none)) ∧
      (∀ d, s.session f d = none → Responds (.endSession f d) f (.error .invalidSession) s ∧ Responds (.heartbeat f d) f (.error .invalidSession) s ∧
        ∀ o, Responds (.keyUpdate f d o) f (.error .invalidSession) s) ∧
      ∀ d y, s.session f d = some y →
        (∃ t, exec (.endSession f d) s = .next t ∧ (t.fnOf f).doe = some .endSessionAck ∧ t.session f d = none) ∧
        Responds (.heartbeat f d) f .heartbeatAck s ∧ (∀ o, o = 1 ∨ o = 2 ∨ o = 3 → Responds (.keyUpdate f d o) f .keyUpdateAck s) ∧
        (∀ g cl, (s.compOf f).claim = some cl → y.mutualAuth = true → y.tenantAuth = false → s.stroke.number ≤ y.finishStroke + 64 → Config.mldsaVerify cl.mldsa [] y.th2 g = true →
          ∃ t z, exec (.pqFinish f d g) s = .next t ∧ (t.fnOf f).doe = some .pqFinishRsp ∧ t.session f d = some z ∧ z.tenantAuth = true) ∧
        exec (.heartbeatMiss f d) s = .next (s.endSession f d) ∧
        (y.mutualAuth = true → y.tenantAuth = false → y.finishStroke + 64 < s.stroke.number → exec (.pqFinishTimeout f d) s = .next (s.endSession f d))) ∧
    ∀ (s : State) (d : Nat) (y : Session), s.mailbox .pf = true → (s.fnOf .pf).spdmStage = 3 → s.session .pf d = some y →
      (∀ b n u w ks, b < 65 → n < 256 → ks < 2 → ∃ t x, exec (.ideKmKeyProg .pf d b n u w ks) s = .next t ∧ (t.fnOf .pf).doe = some (.kpAck 0) ∧
        Tab.find? t.host.ide b = some x ∧ x.id = n ∧ x.first = u ∧ x.last = w ∧ x.programmed ks = true) ∧
      (∀ n ks b x, Tab.find? s.host.ide b = some x → x.id = n → x.programmed ks = true → (b, x) ∈ s.host.ide → ∃ t, exec (.kSetGo .pf d n ks) s = .next t ∧
        (t.fnOf .pf).doe = some .kGoStopAck ∧ Tab.find? t.host.ide b = some { x with active := some ks, secure := true }) ∧
      (∀ k, k < 64 → s.covered (.vf k) = true → (s.comp k).st = .active → (s.fnOf (.vf k)).tdi = .unlocked → s.dawn.entropyOk = true →
        ∃ t n, exec (.lockInterfaceRequest .pf d k true) s = .next t ∧ (t.fnOf .pf).doe = some (.lockInterface n) ∧ (t.fnOf (.vf k)).tdi = .locked ∧
          (t.fnOf (.vf k)).nonce = n) ∧
      (∀ k n, k < 64 → (s.fnOf (.vf k)).tdi = .locked → (s.fnOf (.vf k)).nonce = n → ∃ t, exec (.startInterfaceRequest .pf d k n) s = .next t ∧
        (t.fnOf .pf).doe = some .startInterface ∧ (t.fnOf (.vf k)).tdi = .run) ∧
      (∀ k, k < 64 → ∃ t, exec (.stopInterface .pf d k) s = .next t ∧ (t.fnOf .pf).doe = some .stopInterface ∧ (t.fnOf (.vf k)).tdi = .unlocked) ∧
      ∀ k e z n, s.mailbox (.vf k) = true → (s.fnOf (.vf k)).spdmStage = 3 → s.session (.vf k) e = some z → z.tenantAuth = true →
        (s.fnOf (.vf k)).tdi = .run → (s.fnOf (.vf k)).nonce = n → ∃ t, exec (.tdiBind (.vf k) e n) s = .next t ∧
          (t.fnOf (.vf k)).doe = some .tdiBind ∧ (t.fnOf (.vf k)).bindOk = true

/-- Every one of SQ_TAIL, RQ_HEAD, EQ_HEAD, RING_CTRL_WRITE, RING_GEOMETRY_WRITE, INT_STATUS, INT_MASK, REGISTER_WRITE answers a
next state in every state, whatever its operands; what that state holds: Where BAR0 of a function takes the access: a tail
doorbell of an ENABLED ring becomes the tail after the host's stores, a tail beyond the ring is a ring fault, and in any other
ring state the write is discarded; so for the reply ring's head and the event ring's head. A control write sets ENABLE and
DISABLE_MODE, a submission ring that is DISABLING keeps them where ENABLE would be set and CONFIG_ERROR is set. Geometry is
written while the ring is DISABLED; otherwise CONFIG_ERROR is set and nothing else changes. A write of 1 clears a bit of
INT_STATUS unless an event of this stroke set it, and a write of INT_MASK replaces it. A write by offset is the write of the
register there. Where BAR0 does not take the access, only the host's stores happen. (03_command_packets.md R78, R79, R80;
19_register_map.md R654, R656, R658, R660, R662, R664, Table 19.1, Table 19.4) -/
def Obligations.HostWritesReachTheirRegisters : Prop :=
  (∀ (s : State) (a b c : Nat) (d e : Bool) (f : Fn) (g : List HostStore) (h : RingName),
    ∀ i ∈ ([.sqTail f d a b g, .rqHead f d a, .eqHead a, .ringCtrlWrite f d h a, .ringGeometryWrite f d h e a, .intStatus f d a, .intMask f d a, .registerWrite f
      d a b c] : List Instr), ∃ t, exec i s = .next t) ∧
  (∀ (s : State) (f : Fn) (tee : Bool), s.watch.raised = [] → s.mmio f tee = true →
    (∀ n v st, n < 4 → v < 2 ^ 32 → ((s.fnOf f).ring n).st = .enabled → v ≠ ((s.fnOf f).ring n).tail →
      ahead v ((s.fnOf f).ring n).head ≤ 2 ^ ((s.fnOf f).ring n).sizeLog →
        exec (.sqTail f tee n v st) s = .next ((s.hostStores f st).modRing f n fun r => { r with tail := v })) ∧
    (∀ n v st, ((s.fnOf f).ring n).st ≠ .enabled → exec (.sqTail f tee n v st) s = .next (s.hostStores f st)) ∧
    (∀ v, v < 2 ^ 32 → (s.fnOf f).rq.st = .enabled → ahead v (s.fnOf f).rq.head ≤ ahead (s.fnOf f).rq.tail (s.fnOf f).rq.head →
      exec (.rqHead f tee v) s = .next (s.modFn f fun x => { x with rq := { x.rq with head := v } })) ∧
    (∀ v, (s.fnOf f).rq.st ≠ .enabled → exec (.rqHead f tee v) s = .next s) ∧
    (∀ n v, n < 4 → (((s.fnOf f).ring n).st ≠ .disabling ∨ bitOf v 0 = false) →
      exec (.ringCtrlWrite f tee (.sq n) v) s = .next (s.modRing f n fun r => { r with enable := bitOf v 0, abortMode := bitOf v 1 })) ∧
    (∀ n v, n < 4 → ((s.fnOf f).ring n).st = .disabling → bitOf v 0 = true → exec (.ringCtrlWrite f tee (.sq n) v) s = .next (s.setInt f 0)) ∧
    (∀ v, exec (.ringCtrlWrite f tee .rq v) s = .next (s.modFn f fun x => { x with rq := { x.rq with enable := bitOf v 0 } })) ∧
    (∀ n v, n < 4 → v < 2 ^ 64 → ((s.fnOf f).ring n).st = .disabled →
      exec (.ringGeometryWrite f tee (.sq n) false v) s = .next (s.modRing f n fun r => { r with base := v }) ∧
      exec (.ringGeometryWrite f tee (.sq n) true v) s = .next (s.modRing f n fun r => { r with sizeLog := v % 32 })) ∧
    (∀ n v z, n < 4 → ((s.fnOf f).ring n).st ≠ .disabled → exec (.ringGeometryWrite f tee (.sq n) z v) s = .next (s.setInt f 0)) ∧
    (∀ v, ∃ t, exec (.intStatus f tee v) s = .next t ∧ (∀ g, g ≠ f → t.fnOf g = s.fnOf g) ∧ t.comps = s.comps ∧ ∀ i < 4,
      bitOf (t.fnOf f).intStatus i = (bitOf (s.fnOf f).intStatus i && (!bitOf v i || bitOf (s.fnOf f).intEvents i))) ∧
    (∀ v, ∃ t, exec (.intMask f tee v) s = .next t ∧ (∀ g, g ≠ f → t.fnOf g = s.fnOf g) ∧ t.comps = s.comps ∧
      (t.fnOf f).intMask = v % 16 ∧ (t.fnOf f).intStatus = (s.fnOf f).intStatus) ∧
    (∀ v, v < 2 ^ 32 → exec (.registerWrite f tee 0x0008 4 v) s = exec (.intStatus f tee v) s ∧
      exec (.registerWrite f tee 0x000C 4 v) s = exec (.intMask f tee v) s ∧ exec (.registerWrite f tee 0x0210 4 v) s = exec (.rqHead f tee v) s ∧
      ∀ n < 4, exec (.registerWrite f tee (0x0110 + 0x40 * n) 4 v) s = exec (.sqTail f tee n v []) s ∧
        exec (.registerWrite f tee (0x010C + 0x40 * n) 4 v) s = exec (.ringCtrlWrite f tee (.sq n) v) s) ∧
    (∀ off v, off < 0x800000 → off % 4 ≠ 0 → exec (.registerWrite f tee off 4 v) s = .next s)) ∧
  (∀ (s : State) (f : Fn) (tee : Bool) (n v : Nat) (st : List HostStore), s.calm → s.mmio f tee = true → n < 4 → v < 2 ^ 32 →
    ((s.fnOf f).ring n).st = .enabled → v ≠ ((s.fnOf f).ring n).tail → 2 ^ ((s.fnOf f).ring n).sizeLog < ahead v ((s.fnOf f).ring n).head →
      ∃ t, exec (.sqTail f tee n v st) s = .next t ∧ ((t.fnOf f).ring n).tail = v ∧ ((t.fnOf f).ring n).faultDue = true ∧
        bitOf (t.fnOf f).intStatus 1 = true ∧ ∀ g, g ≠ f → t.fnOf g = s.fnOf g) ∧
  (∀ (s : State) (v : Nat), s.calm → s.mmio .pf false = true → v < 2 ^ 32 → s.watch.eq.st = .enabled →
    (ahead v s.watch.eq.head ≤ ahead s.watch.eq.tail s.watch.eq.head →
      exec (.eqHead v) s = .next { s with watch := { s.watch with eq := { s.watch.eq with head := v } } }) ∧
    (ahead s.watch.eq.tail s.watch.eq.head < ahead v s.watch.eq.head →
      ∃ t, exec (.eqHead v) s = .next t ∧ t.watch.eq.faultDue = true ∧ bitOf (t.fnOf .pf).intStatus 1 = true ∧ ∀ k, t.fnOf (.vf k) = s.fnOf (.vf k))) ∧
  ∀ (s : State) (f : Fn) (tee : Bool), s.watch.raised = [] → s.mmio f tee = false →
    (∀ n v st, exec (.sqTail f tee n v st) s = .next (s.hostStores f st)) ∧ (∀ v, exec (.rqHead f tee v) s = .next s) ∧
    (∀ r v, exec (.ringCtrlWrite f tee r v) s = .next s) ∧ (∀ r z v, exec (.ringGeometryWrite f tee r z v) s = .next s) ∧
    (∀ v, exec (.intStatus f tee v) s = .next s) ∧ (∀ v, exec (.intMask f tee v) s = .next s) ∧
    ∀ o w v, exec (.registerWrite f tee o w v) s = .next s

/-- Every one of ALARM_SLOT, ALARM_WINDOW, SUMMARY, EVENT_FIFO, ALARM_ACK, WAKE, ENTDAA, SETDASA answers a next state in every
state, whatever its operands; what that state holds: While the standby domain is powered: a write of ALARM_SLOT keeps its low 12
bits; a whole read of ALARM_WINDOW marks SB_SENT in the slot's record unless the record changed meanwhile, a whole read of
SUMMARY clears it, a whole read of EVENT_FIFO removes the oldest record, and shorter reads change no record; each read leaves
the read address at its register. A write of ALARM_ACK of 12 bytes, and of more that reach no other register, acknowledges the
held records of its range whose last stroke is not above the given one and reports their number, and a range outside the ring
reports 0; ENTDAA and SETDASA give the target an address while it has none; WAKE leaves a Night of cap 0 or a failed device with
a restart, and changes nothing in any other state. Every write of data is a write at consecutive addresses from its register.
Placing an alarm keeps every record that is not acknowledged in its slot, unacknowledged, with its first stroke and no smaller
repeat count. (16_nightwatch_and_logs.md R584, R586, R591; 19_register_map.md R669, R670, R671, R672, R673, Table 19.13, Table
19.15) -/
def Obligations.SidebandAccessesActAsTheirTable : Prop :=
  (∀ (s : State) (a : Nat) (b : Bool) (c : List Byte),
    ∀ i ∈ ([.alarmSlot a, .alarmWindow a b, .summary a, .eventFifo a, .alarmAck c, .wake c, .entdaa a, .setdasa a] : List Instr), ∃ t, exec i s = .next t) ∧
  (∀ s : State, s.sideband = true →
    (∀ v, exec (.alarmSlot v) s = .next { s with watch := { s.watch with alarmSlot := v % 4096 } }) ∧
    (∀ r n, Tab.find? s.watch.alarms s.watch.alarmSlot = some r →
      (64 ≤ n → ∃ t, exec (.alarmWindow n false) s = .next t ∧ Tab.find? t.watch.alarms s.watch.alarmSlot = some { r with sbSent := true } ∧
        (∀ j, j ≠ s.watch.alarmSlot → Tab.find? t.watch.alarms j = Tab.find? s.watch.alarms j) ∧ t.comps = s.comps ∧ t.fns = s.fns ∧ t.power = s.power) ∧
      exec (.alarmWindow n true) s = .next { s with watch := { s.watch with sbAddr := 0x0240 } } ∧
      (n < 64 → exec (.alarmWindow n false) s = .next { s with watch := { s.watch with sbAddr := 0x0240 } })) ∧
    (∀ n, 64 ≤ n → (n < 192 → exec (.summary n) s = .next { s with watch := { s.watch with sbAddr := 0x0080, sbSummary := {} } }) ∧
      (n < 384 → exec (.eventFifo n) s = .next { s with watch := { s.watch with sbAddr := 0x0100, fifo := s.watch.fifo.tail } })) ∧
    (∀ n, n < 64 → exec (.summary n) s = .next { s with watch := { s.watch with sbAddr := 0x0080 } } ∧
      exec (.eventFifo n) s = .next { s with watch := { s.watch with sbAddr := 0x0100 } }) ∧
    (∀ b, b ≠ [] → exec (.alarmAck b) s = .next (s.sbData 0x0280 b) ∧ exec (.wake b) s = .next (s.sbData 0x02C0 b)) ∧
    (∀ b, b ≠ [] → b.length < 12 → exec (.alarmAck b) s = .next s) ∧
    (∀ b, 12 ≤ b.length → b.length < 68 → u16 b 8 ≤ 4095 → 1 ≤ u16 b 10 → u16 b 8 + u16 b 10 ≤ 4096 → ∃ t, exec (.alarmAck b) s = .next t ∧
      t.watch.ackResult = (s.watch.alarms.filter (ackable (u16 b 8) (u16 b 10) (u64 b 0))).length ∧ t.comps = s.comps ∧ t.fns = s.fns ∧
      ∀ p ∈ s.watch.alarms, (ackable (u16 b 8) (u16 b 10) (u64 b 0) p = true → p.1 < 4032 → (p.1, { p.2 with acked := true }) ∈ t.watch.alarms) ∧
        (ackable (u16 b 8) (u16 b 10) (u64 b 0) p = true → 4032 ≤ p.1 → p ∉ t.watch.alarms) ∧
        (ackable (u16 b 8) (u16 b 10) (u64 b 0) p = false → p ∈ t.watch.alarms)) ∧
    (∀ b, 12 ≤ b.length → b.length < 68 → (u16 b 10 = 0 ∨ 4096 < u16 b 8 + u16 b 10) → exec (.alarmAck b) s = .next { s with watch := { s.watch with ackResult := 0 } }) ∧
    (∀ a, s.watch.dynAddr = none → a < 128 → exec (.entdaa a) s = .next { s with watch := { s.watch with dynAddr := some a } } ∧
      exec (.setdasa a) s = .next { s with watch := { s.watch with dynAddr := some a } }) ∧
    ∀ a d, s.watch.dynAddr = some d → exec (.entdaa a) s = .next s ∧ exec (.setdasa a) s = .next s) ∧
  (∀ s : State,
    (s.power.main = .night → s.power.nightCause = .cap → ∃ t, exec (.wake [0x45, 0x4B, 0x41, 0x57]) s = .next t ∧ t.power.cap = 1 ∧
      t.power.nightCause = .restart ∧ t.power.main = .night ∧ t.watch = s.watch) ∧
    (s.power.main = .failed → ∃ t, exec (.wake [0x45, 0x4B, 0x41, 0x57]) s = .next t ∧ t.power.main = .night ∧ t.power.nightCause = .restart ∧
      t.power.cap = s.power.cap ∧ t.watch = s.watch) ∧
    (s.power.main ≠ .failed → s.power.nightCause ≠ .cap → exec (.wake [0x45, 0x4B, 0x41, 0x57]) s = .next s) ∧
    ∀ b, b ≠ [] → b.take 4 ≠ [0x45, 0x4B, 0x41, 0x57] → exec (.wake b) s = .next s) ∧
  ∀ (w : WatchSt) (e : Ev) (i : Nat) (r : AlarmRec), Tab.find? w.alarms i = some r → r.acked = false → r.rep ≤ 0xFFFFFFFF →
    (w.alarms.Pairwise fun p q => p.1 < q.1) →
      ∃ r', Tab.find? (placeAlarm w e).alarms i = some r' ∧ r'.acked = false ∧ r'.stroke = r.stroke ∧ r'.code = r.code ∧ r.rep ≤ r'.rep

/-- Let the register invariant hold: the rings' bases are below 2^64, their sizes below 32, their counts below 2^32, INT_STATUS
and INT_MASK within four bits, and every function's host memory lists its bytes at rising addresses and lists no zero byte. A
step whose front command is a write of the host path keeps it, whatever the operands, where no rule names an event, and no such
rule appears. A step whose front command is any of the packet commands, or the report phase, keeps host memory in that form.
(03_command_packets.md R78, R79, R105; 19_register_map.md R654, R658, R660, R662, Table 19.1) -/
def Obligations.HostStateKeepsItsForm : Prop :=
  (∀ (i : Instr) (rest : List Instr) (s t : State), isHostWrite i = true → s.pending = i :: rest → s.noEventRule → s.regsOk →
    step s = .next t → t.regsOk ∧ t.noEventRule) ∧
  ∀ (i : Instr) (rest : List Instr) (s t : State), ((packetOf i).isSome = true ∨ ∃ p l, i = .reportPhase p l) → s.pending = i :: rest →
    s.hostOk = true → step s = .next t → t.hostOk = true

/-- Take any packet command whose issuing function is virtual function k, in any state, whatever it answers. In the next state
every compartment other than k, every function other than virtual function k, and every byte of host memory of every other
function is exactly as before. Stated for states with no work in the middle of a step; whatever its front command, a step from
such a state leads to such a state (log 100). (00_scope.md R9; 02_strokes.md R69; 06_memory_tiers.md R239; 12_compartments_and_quench.md R452,
R455) -/
def Obligations.TenantCommandsTouchOnlyTheirOwn : Prop :=
  (∀ (i : Instr) (op : Nat) (c : Cmd) (k : Nat) (s t : State), packetOf i = some (op, c) → c.fn = .vf k → s.act = {} → exec i s = .next t →
    (∀ j, j ≠ k → t.comp j = s.comp j) ∧
    ∀ f, f ≠ .vf k → t.fnOf f = s.fnOf f ∧ ∀ a, Mem.read (Tab.get [] t.hostMem (fnKey f)) a = Mem.read (Tab.get [] s.hostMem (fnKey f)) a) ∧
  ∀ s t : State, s.act = {} → step s = .next t → t.act = {}

/-- For a tenant's command that is admitted, with a block of its length, reserved fields zero, and handles and addresses that
name live objects: STREAM.CLOSE closes the stream to later commands and commits the close once no earlier command names it;
STREAM.QUERY and VARIANT.QUERY record the object's state; VARIANT.REGISTER takes the next index and commits a variant of the key
and base slot given; VARIANT.MODE, VARIANT.REBASE and VARIANT.UNREGISTER commit the mode, the successor's slot and the removal;
TRAIN.CONFIG commits a setting from the update it names while fewer than four wait; TRAIN.CHECKPOINT commits the request;
TRAIN.QUERY records the state, with OK_NOTE where none is open; FEEDBACK.TAKE of an empty queue ends with OK_NOTE; TENSOR.CREATE
in Hearth or HBM commits an unwritten tensor at the next table address. (06_memory_tiers.md R210, R244; 07_base_and_variants.md
R278, R281, R298, R303; 08_sequence_mixing.md R311, R341; 09_continuous_adaptation.md R354, R368, R375, R389) -/
def Obligations.ServingCommandsRunOnTheirOperands : Prop :=
  (∀ (c : Cmd) (s : State) (k : Nat) (st : StreamCtx), c.fn = .vf k → s.streamOf k c.stream c = some st →
    (s.admits 0x0502 c → c.block.length = 8 → zeroAt c.block 0 8 = true → ∃ t, exec (.streamClose c) s = .next t ∧
      Tab.find? (t.comp k).streams st.handle = some { st with closing := some c.order } ∧ st.handle ∈ (t.comp k).closing ∧
      ((s.earlier c.fn c.order).any (s.namesStream k st.handle) = false →
        Answered s t c 0x0502 .ok 0 ∧ t.commits = s.commits ++ [⟨c.fn, c.order, .streamClose k st.handle⟩]) ∧
      ((s.earlier c.fn c.order).any (s.namesStream k st.handle) = true → t.replies = s.replies ∧ t.commits = s.commits)) ∧
    (∀ l, s.admits 0x0503 c → c.block.length = 16 → st.layers[u16 c.block 0]? = some l → zeroAt c.block 2 6 = true → u64 c.block 8 % 64 = 0 →
      ∃ b, exec (.streamQuery c) s = .next ((s.record c.fn (u64 c.block 8) b).reply c 0x0503 .ok 0) ∧ u32 b 0 = st.handle % 2 ^ 32 ∧
        u64 b 16 = l.len % 2 ^ 64)) ∧
  (∀ (c : Cmd) (s : State) (k key slot i g : Nat) (r : IdxRange), c.fn = .vf k → s.admits 0x0610 c → c.block.length = 16 → key = u16 c.block 0 →
    key ≠ 0 → slot = u8 c.block 2 → slot ≤ 1 → zeroAt c.block 3 5 = true → u64 c.block 8 % 64 = 0 → keyHandleKind key = 2 →
    (s.liveKey c key).isSome = true → (s.comp k).aliases slot ≠ [] →
    (s.comp k).domIdx.assign (s.comp k).domainBase (s.comp k).domainQuota = some (i, g, r) →
      ∃ t, exec (.variantRegister c) s = .next t ∧ Answered s t c 0x0610 .ok 0 ∧ t.comp k = { s.comp k with domIdx := r } ∧
        t.commits = s.commits ++ [⟨c.fn, c.order, .varNew k i { handle := handleOf g i, keyHandle := key, baseSlot := slot }⟩] ∧
        t.records = s.records ++ [⟨c.fn, u64 c.block 8, layout 64 [(0, 4, handleOf g i), (4, 2, i)]⟩]) ∧
  (∀ (c : Cmd) (s : State) (k : Nat) (v : Variant), c.fn = .vf k → s.variantOf k (u32 c.block 0) c = some v →
    (s.admits 0x0615 c → c.block.length = 8 → u8 c.block 4 ≤ 2 → zeroAt c.block 5 3 = true →
      exec (.variantMode c) s = .next ((s.commit c (.varMode k (varIndex v.handle) (u8 c.block 4))).reply c 0x0615 .ok 0)) ∧
    (s.admits 0x0616 c → c.block.length = 8 → u8 c.block 4 ≤ 1 → u8 c.block 4 ≠ v.baseSlot → zeroAt c.block 5 3 = true → v.resident = true →
      (s.comp k).aliases (u8 c.block 4) ≠ [] → v.successor = none →
      exec (.variantRebase c) s = .next ((s.commit c (.varRebase k (varIndex v.handle) (u8 c.block 4))).reply c 0x0616 .ok 0)) ∧
    (s.admits 0x0618 c → c.block.length = 8 → zeroAt c.block 4 4 = true → (s.earlier c.fn c.order).any (s.namesVariant k v.handle) = false →
      ∃ t, exec (.variantUnregister c) s = .next t ∧ Answered s t c 0x0618 .ok 0 ∧
        t.commits = s.commits ++ [⟨c.fn, c.order, .varClose k (varIndex v.handle)⟩]) ∧
    (s.admits 0x0619 c → c.block.length = 16 → u32 c.block 0 ≠ 0 → zeroAt c.block 4 4 = true → u64 c.block 8 % 64 = 0 →
      ∃ b, exec (.variantQuery c) s = .next ((s.record c.fn (u64 c.block 8) b).reply c 0x0619 .ok 0) ∧ u32 b 0 = v.handle % 2 ^ 32 ∧
        u8 b 5 = v.mode % 256 ∧ u64 b 32 = v.servedRows % 2 ^ 64) ∧
    (s.admits 0x0711 c → c.block.length = 32 → 1 ≤ u32 c.block 4 → u32 c.block 4 ≤ 4096 → u64 c.block 8 % 64 = 0 → 128 ≤ u64 c.block 16 →
      u64 c.block 16 ≤ 2 ^ 36 → u64 c.block 16 % 64 = 0 → zeroAt c.block 24 8 = true → v.queue = [] →
      (∃ p, ((s.comp k).buffers.find? fun p => p.1 ≤ u64 c.block 8 && u64 c.block 8 + u64 c.block 16 ≤ p.1 + p.2.len) = some p ∧
        liveFor p.2.closing c = true) →
      exec (.feedbackTake c) s = .next (s.reply c 0x0711 .okNote 0))) ∧
  (∀ (c : Cmd) (s : State) (k target : Nat) (v : Variant), c.fn = .vf k → s.variantOf k (u32 c.block 0) c = some v → target = v.targetOf c →
    (u8 c.block 4 = 0 ∨ u8 c.block 4 = 2) → zeroAt c.block 5 3 = true →
    (s.admits 0x0704 c → c.block.length = 16 → u64 c.block 8 % 64 = 0 →
      (v.train? target = none → ∃ b, exec (.trainQuery c) s = .next ((s.record c.fn (u64 c.block 8) b).reply c 0x0704 .okNote 0) ∧
        u32 b 32 = v.queue.length % 2 ^ 32) ∧
      ∀ x, v.train? target = some x → x.opening = none → ∃ b, exec (.trainQuery c) s = .next ((s.record c.fn (u64 c.block 8) b).reply c 0x0704 .ok 0) ∧
        u32 b 0 = v.handle % 2 ^ 32 ∧ u64 b 8 = x.nextStep % 2 ^ 64 ∧ u64 b 16 = x.applied % 2 ^ 64) ∧
    ∀ x, v.train? target = some x → x.opening = none → x.lagged = false →
      v.ended c = false →
      (s.admits 0x0703 c → c.block.length = 48 → x.applied < u64 c.block 8 → notNegative (u32 c.block 16) = true → notNegative (u32 c.block 20) = true →
        flt (u32 c.block 20) one32 = true → notNegative (u32 c.block 24) = true → flt (u32 c.block 24) one32 = true → isFin (u32 c.block 28) = true →
        flt 0 (u32 c.block 28) = true → notNegative (u32 c.block 32) = true → notNegative (u32 c.block 36) = true → zeroAt c.block 40 8 = true →
        (x.configs.filter fun h => x.applied < h.from_).length + s.commits.length < 4 →
        exec (.trainConfig c) s = .next ((s.commit c (.trainCfg k (varIndex v.handle) target
          ⟨u64 c.block 8, u32 c.block 16, u32 c.block 20, u32 c.block 24, u32 c.block 28, u32 c.block 32, u32 c.block 36⟩)).reply c 0x0703 .ok 0)) ∧
      (s.admits 0x0721 c → c.block.length = 8 → (x.digestInterval ≠ 0 ∨ x.ckptInterval ≠ 0) → x.ckptPending = none →
        exec (.trainCheckpoint c) s = .next ((s.commit c (.ckptAsk k (varIndex v.handle) target)).reply c 0x0721 .ok 0))) ∧
  ∀ (c : Cmd) (s : State) (k : Nat) (x : Tensor), c.fn = .vf k → s.admits 0x0302 c → c.block.length = 32 → fmtValid (u8 c.block 0) = true →
    u8 c.block 1 ≤ 1 → u8 c.block 2 ≤ 1 → u8 c.block 3 = 0 → 1 ≤ u32 c.block 4 → u32 c.block 4 ≤ 4194304 → 1 ≤ u32 c.block 8 → u32 c.block 8 ≤ 1048576 →
    1 ≤ u16 c.block 12 → u16 c.block 12 ≤ 4096 → zeroAt c.block 14 10 = true → u64 c.block 24 % 64 = 0 →
    x = { id := (s.comp k).idNext, fmt := u8 c.block 0, axis := u8 c.block 1, home := u8 c.block 2, cache := 0, rows := u32 c.block 4, cols := u32 c.block 8, batch := u16 c.block 12 } →
    x.count ≤ 67108864 → s.spaceFree k c.order x.space = true → (s.comp k).tabNext + x.tableBytes ≤ tabEnd →
      ∃ t, exec (.tensorCreate c) s = .next t ∧ Answered s t c 0x0302 .ok 0 ∧
        t.commits = s.commits ++ [⟨c.fn, c.order, .tensorNew k (s.comp k).tabNext x⟩] ∧ (t.comp k).tabNext = (s.comp k).tabNext + x.tableBytes ∧
        ∃ b, t.records = s.records ++ [⟨c.fn, u64 c.block 24, b⟩] ∧ u64 b 0 = (s.comp k).tabNext % 2 ^ 64 ∧ u32 b 16 = x.count % 2 ^ 32

/-- On the sample state, a compartment of 1 x 1 and 1 x 32 tensors with X = 2.0 and W = 3.0, each of these commands completes
with OK and leaves the results for settle: MATMUL, CONV and MOE.MATMUL write 6.0, SCAN of one step from 0 writes its B of 3.0,
the attention commands, LINMIX and VARIANT.MATMUL of zero operands write zero, KV.APPEND writes the staging page and
TENSOR.IMPORT of zero bytes writes zero; MOE.ROUTE and RAND.GEN write buffers, STREAM.OPEN, BASE.ATTACH, VARIANT.RESIDE and
VARIANT.PARK commit their objects, and TRAIN.STEP of an update that is not yet due goes on to the next step.
(05_anvil_engines.md R161, R182, R200, R203; 06_memory_tiers.md R249; 07_base_and_variants.md R267, R280, R282;
08_sequence_mixing.md R308, R312, R341; 09_continuous_adaptation.md R355; 10_random_bits.md R402) -/
def Obligations.WorkCommandsRunOnSmallOperands : Prop :=
  (Sample.Runs (.matmul Sample.matmul) 0x0401 Sample.matmul (Sample.state true false) [(0x3000, 0x40C00000)] ∧
    Sample.Runs (.conv Sample.conv) 0x0402 Sample.conv (Sample.state true false) [(0x3000, 0x40C00000)] ∧
    Sample.Runs (.scan Sample.scan) 0x0403 Sample.scan (Sample.state true false) [(0x3000, 0x40400000)] ∧
    Sample.Runs (.moeRoute Sample.route) 0x0404 Sample.route (Sample.state true false) [] ∧
    Sample.Runs (.moeMatmul Sample.moe) 0x0405 Sample.moe (Sample.state true false) [(0x3000, 0x40C00000)] ∧
    Sample.Runs (.attend Sample.attend) 0x0510 Sample.attend (Sample.state true false) [(0x7000, 0)] ∧
    Sample.Runs (.attendMat Sample.attend) 0x0511 Sample.attend (Sample.state true false) [(0x7000, 0)] ∧
    Sample.Runs (.linmix Sample.linmix) 0x0512 Sample.linmix (Sample.state true false) [(0x3000, 0)] ∧
    Sample.Runs (.variantMatmul Sample.vmatmul) 0x0620 Sample.vmatmul (Sample.state true false) [(0x3000, 0)] ∧
    Sample.Runs (.randGen Sample.rand) 0x0901 Sample.rand (Sample.state true false) []) ∧
  (Sample.Runs (.streamOpen Sample.streamOpen) 0x0501 Sample.streamOpen (Sample.state true false) [] ∧
    Sample.Runs (.kvAppend Sample.kvAppend) 0x0504 Sample.kvAppend (Sample.state true false) [(0x5000, 0)] ∧
    Sample.Runs (.tensorImport Sample.tensorImport) 0x0307 Sample.tensorImport (Sample.state true false) [(0x1000, 0)] ∧
    Sample.Runs (.baseAttach Sample.attach) 0x0604 Sample.attach (Sample.state false false) [] ∧
    Sample.Runs (.variantReside Sample.named) 0x0612 Sample.named (Sample.state true false) [] ∧
    Sample.Runs (.variantPark Sample.named) 0x0613 Sample.named (Sample.state true true) []) ∧
  ∃ t, exec (.trainStep Sample.trainStep) Sample.training = .next t ∧ Answered Sample.training t Sample.trainStep 0x0720 .ok 0 ∧
    (t.openedTrain.map fun x => x.nextStep) = some 2
end

