-- ==== Sys2Proof/Laws/Tables.lean ====
section
/-! SUPPORT. Sparse tables and byte memories: a read after a write, and the canonical form that every operation keeps. -/

namespace Sys2Proof.Machine

variable {α : Type}

/-! ### Reading after writing -/

theorem Tab.find?_set_same (t : Tab α) (k : Nat) (v : α) : Tab.find? (Tab.set t k v) k = some v := by
  induction t with
  | nil => simp [Tab.set, Tab.find?]
  | cons p r ih =>
    obtain ⟨k', v'⟩ := p
    simp only [Tab.set]
    split
    · simp [Tab.find?]
    · split
      · simp [Tab.find?]
      · simp [Tab.find?, *]

theorem Tab.find?_set_other (t : Tab α) {k j : Nat} (v : α) (h : j ≠ k) : Tab.find? (Tab.set t k v) j = Tab.find? t j := by
  induction t with
  | nil => simp [Tab.set, Tab.find?, h]
  | cons p r ih =>
    obtain ⟨k', v'⟩ := p
    simp only [Tab.set]
    split
    · simp [Tab.find?, h]
    · split
      · next hk => subst hk; simp [Tab.find?, h]
      · simp [Tab.find?, ih]

@[simp] theorem Tab.get_set_same (d : α) (t : Tab α) (k : Nat) (v : α) : Tab.get d (Tab.set t k v) k = v := by
  simp [Tab.get, Tab.find?_set_same]

theorem Tab.get_set_other (d : α) (t : Tab α) {k j : Nat} (v : α) (h : j ≠ k) : Tab.get d (Tab.set t k v) j = Tab.get d t j := by
  simp [Tab.get, Tab.find?_set_other t v h]

theorem Tab.find?_del_same (t : Tab α) (k : Nat) : Tab.find? (Tab.del t k) k = none := by
  induction t with
  | nil => rfl
  | cons p r ih => simp only [Tab.del]; split <;> simp_all [Tab.find?]

theorem Tab.find?_del_other (t : Tab α) {k j : Nat} (h : j ≠ k) : Tab.find? (Tab.del t k) j = Tab.find? t j := by
  induction t with
  | nil => rfl
  | cons p r ih => simp only [Tab.del]; split <;> simp_all [Tab.find?]

/-! ### Rising keys -/

/-- Every key of a table is above `a`. -/
def Tab.above (a : Nat) (t : Tab α) : Prop := ∀ p ∈ t, a < p.1

/-- The keys of a table rise strictly. -/
def Tab.rising (t : Tab α) : Prop := t.Pairwise fun p q => p.1 < q.1

theorem Tab.mem_set {t : Tab α} {k : Nat} {v : α} {p : Nat × α} (h : p ∈ Tab.set t k v) : p = (k, v) ∨ p ∈ t := by
  induction t with
  | nil => simpa [Tab.set] using h
  | cons q r ih =>
    obtain ⟨k', v'⟩ := q
    simp only [Tab.set] at h
    split at h
    · exact List.mem_cons.1 h
    · split at h
      · rcases List.mem_cons.1 h with h | h
        · exact .inl h
        · exact .inr (List.mem_cons_of_mem _ h)
      · simp only [List.mem_cons] at h ⊢
        rcases h with h | h
        · exact .inr (.inl h)
        · rcases ih h with h | h
          · exact .inl h
          · exact .inr (.inr h)

theorem Tab.mem_del {t : Tab α} {k : Nat} {p : Nat × α} (h : p ∈ Tab.del t k) : p ∈ t := by
  induction t with
  | nil => exact h
  | cons q r ih =>
    simp only [Tab.del] at h
    split at h
    · exact List.mem_cons_of_mem _ (ih h)
    · rcases List.mem_cons.1 h with h | h
      · exact h ▸ List.mem_cons_self ..
      · exact List.mem_cons_of_mem _ (ih h)

theorem Tab.rising_set {t : Tab α} (h : Tab.rising t) (k : Nat) (v : α) : Tab.rising (Tab.set t k v) := by
  induction t with
  | nil => simp [Tab.set, Tab.rising]
  | cons q r ih =>
    obtain ⟨k', v'⟩ := q
    simp only [Tab.rising, List.pairwise_cons] at h
    simp only [Tab.set]
    split
    · next hk =>
      simp only [Tab.rising, List.pairwise_cons]
      refine ⟨?_, h⟩
      intro p hp
      rcases List.mem_cons.1 hp with hp | hp
      · subst hp; exact hk
      · exact Nat.lt_trans hk (h.1 p hp)
    · split
      · next hk => subst hk; exact List.pairwise_cons.2 ⟨h.1, h.2⟩
      · next h1 h2 =>
        refine List.pairwise_cons.2 ⟨?_, ih h.2⟩
        intro p hp
        rcases Tab.mem_set hp with hp | hp
        · subst hp; show k' < k; omega
        · exact h.1 p hp

theorem Tab.rising_del {t : Tab α} (h : Tab.rising t) (k : Nat) : Tab.rising (Tab.del t k) := by
  induction t with
  | nil => exact h
  | cons q r ih =>
    simp only [Tab.rising, List.pairwise_cons] at h
    simp only [Tab.del]
    split
    · exact ih h.2
    · exact List.pairwise_cons.2 ⟨fun p hp => h.1 p (Tab.mem_del hp), ih h.2⟩

/-! ### Byte memories -/

/-- The canonical form as a table: keys rise, and no listed byte is the unlisted one. -/
theorem Mem.wf_iff (m : Mem) : Mem.wf m = true ↔ Tab.rising m ∧ ∀ p ∈ m, p.2 ≠ Mem.empty := by
  induction m with
  | nil => simp [Mem.wf, Tab.rising]
  | cons p r ih =>
    obtain ⟨a, b⟩ := p
    cases r with
    | nil => simp [Mem.wf, Tab.rising]
    | cons q r =>
      obtain ⟨a', b'⟩ := q
      simp only [Mem.wf, Bool.and_eq_true, ih, bne_iff_ne, decide_eq_true_eq, Tab.rising, List.pairwise_cons, List.mem_cons,
        forall_eq_or_imp]
      constructor
      · rintro ⟨⟨hb, ha⟩, ⟨⟨h1, h2⟩, h3, h4⟩⟩
        exact ⟨⟨⟨ha, fun p hp => Nat.lt_trans ha (h1 p hp)⟩, h1, h2⟩, hb, h3, h4⟩
      · rintro ⟨⟨⟨ha, _⟩, h1, h2⟩, hb, h3, h4⟩
        exact ⟨⟨hb, ha⟩, ⟨⟨h1, h2⟩, h3, h4⟩⟩

theorem Mem.write_wf {m : Mem} (h : Mem.wf m = true) (a : Nat) (b : Byte) : Mem.wf (Mem.write m a b) = true := by
  rw [Mem.wf_iff] at h ⊢
  unfold Mem.write
  split
  · exact ⟨Tab.rising_del h.1 a, fun p hp => h.2 p (Tab.mem_del hp)⟩
  · next hb =>
    refine ⟨Tab.rising_set h.1 a b, fun p hp => ?_⟩
    rcases Tab.mem_set hp with hp | hp
    · subst hp; exact hb
    · exact h.2 p hp

theorem Mem.writeBytes_wf {m : Mem} (h : Mem.wf m = true) (a : Nat) (l : List Byte) : Mem.wf (Mem.writeBytes m a l) = true := by
  induction l generalizing m a with
  | nil => exact h
  | cons b r ih => exact ih (Mem.write_wf h a b) (a + 1)

theorem Mem.clear_wf {m : Mem} (h : Mem.wf m = true) (a n : Nat) : Mem.wf (Mem.clear m a n) = true := by
  rw [Mem.wf_iff] at h ⊢
  refine ⟨h.1.filter _, fun p hp => h.2 p (List.mem_filter.1 hp).1⟩

theorem Mem.read_write_same (m : Mem) (a : Nat) (b : Byte) : Mem.read (Mem.write m a b) a = b := by
  unfold Mem.read Mem.write
  split
  · next h => simp [Tab.find?_del_same, h]
  · simp [Tab.find?_set_same]

theorem Mem.read_write_other (m : Mem) {a x : Nat} (b : Byte) (h : x ≠ a) : Mem.read (Mem.write m a b) x = Mem.read m x := by
  unfold Mem.read Mem.write
  split
  · simp [Tab.find?_del_other m h]
  · simp [Tab.find?_set_other m b h]

theorem Mem.read_writeBytes_outside (m : Mem) {a x : Nat} (l : List Byte) (h : x < a ∨ a + l.length ≤ x) :
    Mem.read (Mem.writeBytes m a l) x = Mem.read m x := by
  induction l generalizing m a with
  | nil => rfl
  | cons b r ih =>
    simp only [List.length_cons] at h
    have h1 : x < a + 1 ∨ a + 1 + r.length ≤ x := by omega
    have h2 : x ≠ a := by omega
    rw [Mem.writeBytes, ih _ h1, Mem.read_write_other m b h2]

theorem Mem.readBytes_writeBytes (m : Mem) (a : Nat) (l : List Byte) : Mem.readBytes (Mem.writeBytes m a l) a l.length = l := by
  induction l generalizing m a with
  | nil => rfl
  | cons b r ih =>
    simp only [Mem.writeBytes, List.length_cons, Mem.readBytes, ih]
    congr 1
    rw [Mem.read_writeBytes_outside _ r (.inl (Nat.lt_succ_self a)), Mem.read_write_same]

/-! ### Functions and compartments -/

@[simp] theorem State.fnOf_setFn_same (s : State) (f : Fn) (x : FnState) : (s.setFn f x).fnOf f = x := by
  simp [State.fnOf, State.setFn]

theorem fnKey_inj {f g : Fn} (h : fnKey f = fnKey g) : f = g := by
  cases f <;> cases g <;> simp_all [fnKey]

theorem State.fnOf_setFn_other (s : State) {f g : Fn} (x : FnState) (h : g ≠ f) : (s.setFn f x).fnOf g = s.fnOf g :=
  Tab.get_set_other _ _ _ fun e => h (fnKey_inj e)

@[simp] theorem State.fnOf_modFn_same (s : State) (f : Fn) (g : FnState → FnState) : (s.modFn f g).fnOf f = g (s.fnOf f) := by
  simp [State.modFn]

theorem State.fnOf_modFn_other (s : State) {f h : Fn} (g : FnState → FnState) (n : h ≠ f) : (s.modFn f g).fnOf h = s.fnOf h :=
  State.fnOf_setFn_other s _ n

@[simp] theorem State.comp_setComp_same (s : State) (k : Nat) (x : Comp) : (s.setComp k x).comp k = x := by
  simp [State.comp, State.setComp]

theorem State.comp_setComp_other (s : State) {k j : Nat} (x : Comp) (h : j ≠ k) : (s.setComp k x).comp j = s.comp j :=
  Tab.get_set_other _ _ _ h

@[simp] theorem State.comp_modComp_same (s : State) (k : Nat) (g : Comp → Comp) : (s.modComp k g).comp k = g (s.comp k) := by
  simp [State.modComp]

theorem State.comp_modComp_other (s : State) {k j : Nat} (g : Comp → Comp) (h : j ≠ k) : (s.modComp k g).comp j = s.comp j :=
  State.comp_setComp_other s _ h

/-! ### Host memory -/

theorem Tab.get_wf {t : Tab Mem} (h : ∀ p ∈ t, Mem.wf p.2 = true) (k : Nat) : Mem.wf (Tab.get [] t k) = true := by
  induction t with
  | nil => rfl
  | cons p r ih =>
    obtain ⟨k', m⟩ := p
    simp only [Tab.get, Tab.find?]
    split
    · exact h _ (List.mem_cons_self ..)
    · exact ih fun p hp => h p (List.mem_cons_of_mem _ hp)

theorem State.hostOk_write {s : State} (h : s.hostOk = true) (f : Fn) (a : Nat) (b : List Byte) : (s.hostWrite f a b).hostOk = true := by
  simp only [State.hostOk, List.all_eq_true] at h ⊢
  intro p hp
  rcases Tab.mem_set hp with e | hp
  · subst e; exact Mem.writeBytes_wf (Tab.get_wf h _) _ _
  · exact h p hp

theorem State.hostRead_hostWrite (s : State) (f : Fn) (a : Nat) (b : List Byte) : (s.hostWrite f a b).hostRead f a b.length = b := by
  simp only [State.hostRead, State.hostWrite, Tab.modify, Tab.get_set_same]
  exact Mem.readBytes_writeBytes _ _ _

end Sys2Proof.Machine
end

