-- ==== Sys2Proof/Laws/Work.lean ====
section
/-! SUPPORT. The frame of the work of a tenant's command: what each shared operation of Work.lean leaves as it was, said once for
each, and how the frame passes through the steps of a command's work. -/

namespace Sys2Proof.Machine

variable {c : Cmd} {k : Nat}

theorem OwnWork.refl {c k s} : OwnWork c k s s := ⟨fun _ _ => rfl, fun _ _ => rfl, fun _ _ _ => rfl, ⟨[], by simp⟩, ⟨[], by simp⟩, rfl, rfl, rfl, rfl, rfl⟩

theorem OwnWork.trans {c k s t u} (h : OwnWork c k s t) (g : OwnWork c k t u) : OwnWork c k s u := by
  obtain ⟨l, hl, pl⟩ := h.commits; obtain ⟨m, hm, pm⟩ := g.commits
  obtain ⟨l', hl', pl'⟩ := h.records; obtain ⟨m', hm', pm'⟩ := g.records
  refine ⟨fun j n => (g.others j n).trans (h.others j n), fun j n => (g.fns j n).trans (h.fns j n), fun j a n => (g.contents j a n).trans (h.contents j a n), ⟨l ++ m, ?_, ?_⟩, ⟨l' ++ m', ?_, ?_⟩, g.bases.trans h.bases, g.replies.trans h.replies, g.queue.trans h.queue, g.hostMem.trans h.hostMem, g.words.trans h.words⟩
  · rw [hm, hl, List.append_assoc]
  · intro w hw; rcases List.mem_append.1 hw with hw | hw; exact pl w hw; exact pm w hw
  · rw [hm', hl', List.append_assoc]
  · intro w hw; rcases List.mem_append.1 hw with hw | hw; exact pl' w hw; exact pm' w hw

/-- A piece of work, from every state, leaves as it was what the work of a tenant's command does (`OwnWork`). -/
def Owns (c : Cmd) (k : Nat) {α} (m : Run α) : Prop := ∀ s, OwnWork c k s (m.run.run s).2

theorem owns_pure {α} (a : α) : Owns c k (pure a : Run α) := fun _ => .refl

theorem owns_bind {α β} {m : Run α} {f : α → Run β} (h : Owns c k m) (g : ∀ a, Owns c k (f a)) : Owns c k (m >>= f) := by
  intro s
  have h1 := h s
  show OwnWork c k s ((ExceptT.run (m >>= f)).run s).2
  simp only [bind, ExceptT.bind, ExceptT.run, ExceptT.mk, StateT.run, StateT.bind, ExceptT.bindCont] at h1 ⊢
  generalize m s = r at h1
  obtain ⟨r, s1⟩ := r
  cases r with
  | ok a => exact h1.trans (g a s1)
  | error e => exact h1

theorem owns_throw {α} (e : Stop) : Owns c k (throw e : Run α) := fun _ => .refl

theorem owns_get : Owns c k (get : Run State) := fun _ => .refl

theorem owns_modify {f : State → State} (h : ∀ s, OwnWork c k s (f s)) : Owns c k (modify f : Run Unit) := fun s => h s

theorem owns_getBind {β} {f : State → Run β} (g : ∀ s, OwnWork c k s ((f s).run.run s).2) : Owns c k (get >>= f) := fun s => g s

theorem owns_fail {α} (st d) : Owns c k (failWith st d : Run α) := fun _ => .refl

theorem owns_req (b st d) : Owns c k (req b st d) := by unfold req; split; exact owns_pure _; exact owns_fail _ _

theorem owns_fld (b d) : Owns c k (fld b d) := owns_req _ _ _

theorem owns_chk {α} (x : Chk α) : Owns c k (chk x) := by unfold chk; split; exact owns_pure _; exact owns_throw _

theorem owns_some {α} (x : Option α) (st d) : Owns c k (some! x st d) := by unfold some!; split; exact owns_pure _; exact owns_fail _ _

theorem owns_forIn {α β} {l : List α} {b : β} {f : α → β → Run (ForInStep β)} (h : ∀ a b, Owns c k (f a b)) : Owns c k (forIn l b f) := by
  induction l generalizing b with
  | nil => exact owns_pure _
  | cons a l ih =>
    rw [List.forIn_cons]
    refine owns_bind (h a b) fun r => ?_
    cases r
    · exact owns_pure _
    · exact ih

theorem owns_mapM {α β} {l : List α} {f : α → Run β} (h : ∀ a, Owns c k (f a)) : Owns c k (l.mapM f) := by
  induction l with
  | nil => exact owns_pure _
  | cons a l ih => rw [List.mapM_cons]; exact owns_bind (h a) fun _ => owns_bind ih fun _ => owns_pure _

/-! ### Changes of the state -/
theorem ownWork_commit (s : State) (w) : OwnWork c k s (s.commit c w) :=
  ⟨fun _ _ => rfl, fun _ _ => rfl, fun _ _ _ => rfl, ⟨[_], rfl, by simp⟩, ⟨[], by simp [State.commit]⟩, rfl, rfl, rfl, rfl, rfl⟩

theorem ownWork_record (s : State) (a b) : OwnWork c k s (s.record c.fn a b) :=
  ⟨fun _ _ => rfl, fun _ _ => rfl, fun _ _ _ => rfl, ⟨[], by simp [State.record]⟩, ⟨[_], rfl, by simp⟩, rfl, rfl, rfl, rfl, rfl⟩

/-- Two compartments hold the same tiles. -/
def SameTiles (s : State) (x y : Comp) : Prop := ∀ a n, ((Tab.find? y.tensors a).bind fun t => s.tileData t n) = ((Tab.find? x.tensors a).bind fun t => s.tileData t n)

theorem ownWork_setComp (s : State) (y : Comp) (h : SameTiles s (s.comp k) y) : OwnWork c k s (s.setComp k y) := by
  refine ⟨fun j hj => Tab.get_set_other _ _ _ hj, fun _ _ => rfl, fun j a n => ?_, ⟨[], by simp [State.setComp]⟩, ⟨[], by simp [State.setComp]⟩, rfl, rfl, rfl, rfl, rfl⟩
  by_cases hj : j = k
  · subst hj
    show ((Tab.find? ((s.setComp j y).comp j).tensors a).bind fun t => s.tileData t n) = _
    have : (s.setComp j y).comp j = y := State.comp_setComp_same s j y
    rw [this]; exact h a n
  · unfold State.contents
    have : (s.setComp k y).comp j = s.comp j := Tab.get_set_other _ _ _ hj
    rw [this]; rfl

theorem ownWork_modComp (s : State) (g : Comp → Comp) (h : (g (s.comp k)).tensors = (s.comp k).tensors) : OwnWork c k s (s.modComp k g) :=
  ownWork_setComp s _ fun a n => by rw [h]

theorem ownWork_bump (s : State) (x n) : OwnWork c k s (s.bump k x n) := ownWork_modComp _ _ rfl

theorem ownWork_free (s : State) (n) : OwnWork c k s { s with free := n } :=
  ⟨fun _ _ => rfl, fun _ _ => rfl, fun _ _ _ => rfl, ⟨[], by simp⟩, ⟨[], by simp⟩, rfl, rfl, rfl, rfl, rfl⟩

theorem ownWork_resv (s : State) (n) : OwnWork c k s { s with resv := n } :=
  ⟨fun _ _ => rfl, fun _ _ => rfl, fun _ _ _ => rfl, ⟨[], by simp⟩, ⟨[], by simp⟩, rfl, rfl, rfl, rfl, rfl⟩

theorem ownWork_act (s : State) (n) : OwnWork c k s { s with act := n } :=
  ⟨fun _ _ => rfl, fun _ _ => rfl, fun _ _ _ => rfl, ⟨[], by simp⟩, ⟨[], by simp⟩, rfl, rfl, rfl, rfl, rfl⟩

theorem ownWork_works (s : State) (n) : OwnWork c k s { s with works := n } :=
  ⟨fun _ _ => rfl, fun _ _ => rfl, fun _ _ _ => rfl, ⟨[], by simp⟩, ⟨[], by simp⟩, rfl, rfl, rfl, rfl, rfl⟩

theorem ownWork_anvils (s : State) (n) : OwnWork c k s { s with anvils := n } :=
  ⟨fun _ _ => rfl, fun _ _ => rfl, fun _ _ _ => rfl, ⟨[], by simp⟩, ⟨[], by simp⟩, rfl, rfl, rfl, rfl, rfl⟩

theorem ownWork_tongs (s : State) (n) : OwnWork c k s { s with tongs := n } :=
  ⟨fun _ _ => rfl, fun _ _ => rfl, fun _ _ _ => rfl, ⟨[], by simp⟩, ⟨[], by simp⟩, rfl, rfl, rfl, rfl, rfl⟩

theorem ownWork_fresh (s : State) (n) : OwnWork c k s { s with fresh := n } :=
  ⟨fun _ _ => rfl, fun _ _ => rfl, fun _ _ _ => rfl, ⟨[], by simp⟩, ⟨[], by simp⟩, rfl, rfl, rfl, rfl, rfl⟩

theorem ownWork_watch (s : State) (n) : OwnWork c k s { s with watch := n } :=
  ⟨fun _ _ => rfl, fun _ _ => rfl, fun _ _ _ => rfl, ⟨[], by simp⟩, ⟨[], by simp⟩, rfl, rfl, rfl, rfl, rfl⟩

theorem ownWork_link (s : State) (n) : OwnWork c k s { s with link := n } :=
  ⟨fun _ _ => rfl, fun _ _ => rfl, fun _ _ _ => rfl, ⟨[], by simp⟩, ⟨[], by simp⟩, rfl, rfl, rfl, rfl, rfl⟩

theorem ownWork_notice (s : State) (n) : OwnWork c k s (s.notice (.vf k) n) :=
  ⟨fun _ _ => rfl, fun f hf => Tab.get_set_other _ _ _ (fun e => hf (by cases f <;> simp_all [fnKey])), fun _ _ _ => rfl, ⟨[], by simp [State.notice, State.modFn, State.setFn]⟩, ⟨[], by simp [State.notice, State.modFn, State.setFn]⟩, rfl, rfl, rfl, rfl, rfl⟩

theorem ownWork_setKey (s : State) (h e) : OwnWork c k s (s.setKey (.vf k) h e) := by
  unfold State.setKey; simp only []; split <;> exact ownWork_modComp _ _ rfl

theorem ownWork_foldl {α} (l : List α) (f : State → α → State) (h : ∀ s a, OwnWork c k s (f s a)) (s : State) : OwnWork c k s (l.foldl f s) := by
  induction l generalizing s with
  | nil => exact .refl
  | cons a l ih => exact (h s a).trans (ih _)

theorem ownWork_draw (s : State) : OwnWork c k s s.draw.2 := ownWork_free _ _

theorem ownWork_drawBytes (s : State) (n) : OwnWork c k s (s.drawBytes n).2 := ownWork_free _ _

theorem ownWork_newGen (s t : State) (h) (e : s.newGeneration k h = .ok t) : OwnWork c k s t := by
  unfold State.newGeneration at e
  split at e
  · cases e
  · split at e
    · cases e
    · split at e
      · cases e
      · split at e
        rename_i b s1 heq
        cases e
        refine .trans ?_ (.trans (ownWork_setKey _ _ _) (ownWork_notice _ _))
        split at heq <;> cases heq
        · exact ownWork_drawBytes s 32
        · exact .refl

theorem ownWork_takeCount (s : State) (h e) : OwnWork c k s (s.takeCount k h e).1 := by
  unfold State.takeCount
  simp only []
  split
  · exact .trans (ownWork_setKey s h _) (ownWork_notice _ _)
  · exact ownWork_setKey s h _

theorem ownWork_exhausted (s : State) (h) : OwnWork c k s (s.exhausted k h) := by
  unfold State.exhausted; split; exact ownWork_setKey _ _ _; exact .refl

theorem ownWork_seal (s : State) (h) : OwnWork c k s (s.seal k h).1 := by
  unfold State.seal
  split
  · exact .refl
  · split
    · exact ownWork_takeCount _ _ _
    · split
      · exact ownWork_exhausted _ _
      · split
        · exact ownWork_exhausted _ _
        · rename_i hh
          refine .trans (ownWork_newGen _ _ _ hh) ?_
          split
          · exact .refl
          · exact ownWork_takeCount _ _ _

theorem ownWork_modPort (s : State) (p f) : OwnWork c k s (s.modPort p f) := ownWork_link _ _

theorem ownWork_route (s : State) (m) : OwnWork c k s (s.routeMsg m) := by
  unfold State.routeMsg
  simp only []
  split
  · exact ownWork_link _ _
  · split
    · unfold State.queueFlits; exact ownWork_link s _
    · split <;> exact ownWork_link _ _

theorem ownWork_sendMsg (s : State) (j vc ty d g ge key p) : OwnWork c k s (s.sendMsg j vc ty d g ge key p) := by
  unfold State.sendMsg
  refine ownWork_foldl _ _ (fun s a => ?_) _
  simp only []
  split
  · exact .trans (ownWork_link s _) (ownWork_route _ _)
  · exact .trans (ownWork_link s _) (ownWork_link _ _)

theorem ownWork_peer (s : State) (c' j a n t p) : OwnWork c k s (s.peerRequest c' j a n t p) := by
  unfold State.peerRequest; simp only []; exact .trans (ownWork_link s _) (ownWork_sendMsg _ _ _ _ _ _ _ _ _)

/-- The same from one state. -/
def OwnsAt (c : Cmd) (k : Nat) (s : State) {α} (m : Run α) : Prop := OwnWork c k s (m.run.run s).2

theorem owns_of_ownsAt {α} {m : Run α} (h : ∀ s, OwnsAt c k s m) : Owns c k m := h

theorem ownsAt_of_owns {α} {m : Run α} {s} (h : Owns c k m) : OwnsAt c k s m := h s

theorem ownsAt_get {β} {f : State → Run β} {s} (g : OwnsAt c k s (f s)) : OwnsAt c k s (get >>= f) := g

theorem owns_getB {β} {f : State → Run β} (g : ∀ s, OwnsAt c k s (f s)) : Owns c k (get >>= f) := fun s => g s

theorem ownsAt_set {β} {f : PUnit → Run β} {s s'} (h : OwnWork c k s s') (g : Owns c k (f ⟨⟩)) : OwnsAt c k s (set s' >>= f) := h.trans (g s')

theorem ownsAt_setAt {β} {f : PUnit → Run β} {s s'} (h : OwnWork c k s s') (g : OwnsAt c k s' (f ⟨⟩)) : OwnsAt c k s (set s' >>= f) := h.trans g

theorem ownsAt_set1 {s s'} (h : OwnWork c k s s') : OwnsAt c k s (set s' : Run PUnit) := h

theorem ownsAt_mod {β} {f : PUnit → Run β} {s g'} (h : OwnWork c k s (g' s)) (g : Owns c k (f ⟨⟩)) : OwnsAt c k s (modify g' >>= f) := h.trans (g (g' s))

theorem ownsAt_pure {β} {α} {a : α} {f : α → Run β} {s} (g : OwnsAt c k s (f a)) : OwnsAt c k s (pure a >>= f) := g

theorem ownsAt_req {β} {f : Unit → Run β} {s} {b st d} (g : OwnsAt c k s (f ())) : OwnsAt c k s (req b st d >>= f) := by
  unfold req; split
  · exact g
  · exact OwnWork.refl

theorem ownsAt_fld {β} {f : Unit → Run β} {s} {b d} (g : OwnsAt c k s (f ())) : OwnsAt c k s (fld b d >>= f) := ownsAt_req g

theorem ownsAt_some {α β} {f : α → Run β} {s} {x : Option α} {st d} (g : ∀ a, OwnsAt c k s (f a)) : OwnsAt c k s (some! x st d >>= f) := by
  unfold some!; split
  · exact g _
  · exact OwnWork.refl

theorem ownsAt_chk {α β} {f : α → Run β} {s} {x : Chk α} (g : ∀ a, OwnsAt c k s (f a)) : OwnsAt c k s (chk x >>= f) := by
  unfold chk; split
  · exact g _
  · exact OwnWork.refl

theorem ownsAt_bind {α β} {m : Run α} {f : α → Run β} {s} (h : OwnsAt c k s m) (g : ∀ a, Owns c k (f a)) : OwnsAt c k s (m >>= f) := by
  have h1 := h
  show OwnWork c k s ((ExceptT.run (m >>= f)).run s).2
  unfold OwnsAt at h1
  simp only [bind, ExceptT.bind, ExceptT.run, ExceptT.mk, StateT.run, StateT.bind, ExceptT.bindCont] at h1 ⊢
  generalize m s = r at h1
  obtain ⟨r, s1⟩ := r
  cases r with
  | ok a => exact h1.trans (g a s1)
  | error e => exact h1

theorem owns_stage (w) : Owns c k (stage c w) := owns_modify fun s => ownWork_commit s w

theorem owns_stageCounts (l) : Owns c k (stageCounts c k l) := owns_stage _

theorem owns_bumpNow (x n) : Owns c k (bumpNow k x n) := by unfold bumpNow; split; exact owns_pure _; exact owns_modify fun s => ownWork_bump s _ _

theorem owns_putRecord (a b) : Owns c k (putRecord c a b) := owns_modify fun s => ownWork_record s _ _

theorem ownWork_setSnap (s : State) (x) : OwnWork c k s (s.setSnap x) := ownWork_act _ _

theorem owns_reqPlan (b st d) : Owns c k (reqPlan b st d) := by
  unfold reqPlan
  refine owns_getB fun s => ?_
  split
  · exact ownsAt_of_owns (owns_pure _)
  · exact ownsAt_of_owns (owns_req _ _ _)

theorem owns_fldPlan (b d) : Owns c k (fldPlan b d) := owns_reqPlan _ _ _

theorem owns_endPlan : Owns c k endPlan := by
  unfold endPlan
  refine owns_getB fun s => ?_
  split
  · refine ownsAt_mod ?_ (owns_throw _)
    split
    · exact ownWork_setSnap _ _
    · exact .refl
  · exact ownsAt_of_owns (owns_pure _)

theorem owns_freshDraw : Owns c k freshDraw := by
  unfold freshDraw
  exact owns_getB fun s => ownsAt_set (ownWork_draw _) (owns_pure _)

theorem owns_taken {m : Run Nat} (h : Owns c k m) : Owns c k (taken m) := by
  unfold taken
  refine owns_getB fun s => ?_
  split
  · exact ownsAt_of_owns h
  · refine ownsAt_get ?_
    split
    · refine ownsAt_bind (ownsAt_of_owns h) fun v => owns_bind (owns_modify fun s => ?_) fun _ => owns_pure _
      split
      · exact ownWork_setSnap _ _
      · exact .refl
    · refine ownsAt_get ?_
      split
      · exact ownsAt_mod (ownWork_setSnap _ _) (owns_pure _)
      · exact ownsAt_of_owns h

theorem owns_takenAll {m : Run (List Nat)} (h : Owns c k m) : Owns c k (takenAll m) := by
  unfold takenAll
  refine owns_getB fun s => ?_
  split
  · exact ownsAt_bind (ownsAt_of_owns (owns_taken (owns_pure _))) fun _ => owns_mapM fun _ => owns_taken (owns_pure _)
  · exact ownsAt_bind (ownsAt_of_owns h) fun l => owns_bind (owns_taken (owns_pure _)) fun _ => owns_mapM fun _ => owns_taken (owns_pure _)

theorem owns_judged (f) : Owns c k (judged f) := by
  unfold judged
  refine owns_getB fun s => ?_
  split
  · exact ownsAt_of_owns (owns_pure _)
  · split
    · exact ownsAt_set (ownWork_setSnap _ _) (owns_pure _)
    · exact ownsAt_of_owns (owns_pure _)

theorem owns_reserve (n) : Owns c k (reserve c k n) := by
  unfold reserve
  refine owns_getB fun s => ?_
  split
  · exact ownsAt_of_owns (owns_pure _)
  · split
    · exact ownsAt_set1 (ownWork_resv _ _)
    · exact ownsAt_set (ownWork_bump _ _ _) (owns_throw _)

theorem owns_reserveNow (n) : Owns c k (reserveNow c k n) := by
  unfold reserveNow
  refine owns_getB fun s => ?_
  split
  · exact ownsAt_of_owns (owns_pure _)
  · split
    · exact ownsAt_set1 (ownWork_resv _ _)
    · exact ownsAt_set (ownWork_bump _ _ _) (owns_throw _)

theorem owns_newTable (n) : Owns c k (newTable k n) := by
  unfold newTable
  refine owns_taken (owns_getB fun s => ?_)
  simp only []
  split
  · exact ownsAt_set (ownWork_modComp _ _ rfl) (owns_pure _)
  · exact ownsAt_set (ownWork_modComp _ _ rfl) (owns_some _ _ _)

theorem owns_newBuffer (n) : Owns c k (newBuffer k n) := by
  unfold newBuffer
  refine owns_taken ?_
  simp only []
  refine owns_getB fun s => ?_
  split
  · exact ownsAt_set (ownWork_modComp _ _ rfl) (owns_pure _)
  · exact ownsAt_set (ownWork_modComp _ _ rfl) (owns_some _ _ _)

theorem owns_newId : Owns c k (newId k) := by
  unfold newId
  exact owns_taken (owns_getB fun s => ownsAt_set (ownWork_modComp _ _ rfl) (owns_pure _))

theorem owns_tensorAt (a o) : Owns c k (tensorAt c k a o) := by
  unfold tensorAt
  refine owns_bind (owns_fld _ _) fun _ => owns_getB fun s => ?_
  split
  · split; exact ownsAt_of_owns (owns_pure _); exact ownsAt_of_owns (owns_fail _ _)
  · exact ownsAt_of_owns (owns_fail _ _)

theorem owns_bufferAt (a n o) : Owns c k (bufferAt c k a n o) := by
  unfold bufferAt
  refine owns_getB fun s => ?_
  split
  · split; exact ownsAt_of_owns (owns_pure _); exact ownsAt_of_owns (owns_fail _ _)
  · exact ownsAt_of_owns (owns_fail _ _)

theorem owns_oneDomain (l) : Owns c k (oneDomain l) := owns_req _ _ _

theorem owns_await (a t ns) : Owns c k (awaitPeer c k a t ns) := by
  unfold awaitPeer
  refine owns_getB fun s => ?_
  simp only []
  split
  · exact ownsAt_of_owns (owns_pure _)
  · refine ownsAt_req ?_
    split
    · exact ownsAt_of_owns (owns_pure _)
    · exact ownsAt_set (ownWork_foldl _ _ (fun s a => ownWork_peer _ _ _ _ _ _ _) _) (owns_throw _)

theorem Tab.find?_map_at (l : Tab Tensor) (addr a : Nat) (g : Tensor → Tensor) :
    Tab.find? (l.map fun p => if p.1 = addr then (p.1, g p.2) else p) a = (Tab.find? l a).map fun t => if a = addr then g t else t := by
  induction l with
  | nil => rfl
  | cons p r ih =>
    obtain ⟨x, t⟩ := p
    simp only [List.map_cons, Tab.find?]
    by_cases h1 : x = addr
    · subst h1
      by_cases h2 : a = x
      · subst h2; simp
      · simp [h2, ih]
    · by_cases h2 : a = x
      · subst h2; simp [h1]
      · simp [h1, h2, ih]

theorem Tab.modify_data (l : Tab Tile) (n j : Nat) (f : Tile → Tile) (hf : ∀ x, (f x).data = x.data) :
    (Tab.find? (Tab.modify {} l n f) j).bind (·.data) = (Tab.find? l j).bind (·.data) := by
  unfold Tab.modify
  by_cases h : j = n
  · subst h
    rw [Tab.find?_set_same]
    simp only [Option.bind_some, hf, Tab.get]
    cases Tab.find? l j <;> rfl
  · rw [Tab.find?_set_other l _ h]

theorem sameTiles_modTile (s : State) (x y : Comp) (addr n) (f : Tile → Tile) (hf : ∀ x, (f x).data = x.data) (h : SameTiles s x y) : SameTiles s x (y.modTile addr n f) := by
  intro a m
  rw [← h a m]
  unfold Comp.modTile
  simp only []
  rw [Tab.find?_map_at y.tensors addr a (fun t => { t with tiles := Tab.modify {} t.tiles n f })]
  cases hT : Tab.find? y.tensors a with
  | none => rfl
  | some t =>
    simp only [Option.map_some, Option.bind_some]
    split
    · unfold State.tileData
      simp only []
      cases t.base with
      | none => exact Tab.modify_data _ _ _ _ hf
      | some p => rfl
    · rfl

theorem sameTiles_evict (s : State) (x : Comp) (p l n) (y : Comp) (h : SameTiles s x y) : SameTiles s x (Comp.evict p l n y) := by
  induction n generalizing y with
  | zero => exact h
  | succ n ih =>
    unfold Comp.evict
    simp only []
    split
    · exact h
    · split
      · exact h
      · exact ih _ (sameTiles_modTile _ _ _ _ _ _ (fun _ => rfl) h)

theorem sameTiles_pin (s : State) (x y : Comp) (a n t) (h : SameTiles s x y) : SameTiles s x (y.pin a n t).1 := by
  unfold Comp.pin
  simp only []
  split
  · exact h
  · split <;> exact sameTiles_modTile _ _ _ _ _ _ (fun _ => rfl) h

theorem sameTiles_touch (s : State) (x y : Comp) (r a n now) (h : SameTiles s x y) : SameTiles s x (y.touch r a n now).1 := by
  unfold Comp.touch
  split
  · exact h
  · split
    · exact h
    · split
      · exact sameTiles_pin _ _ _ _ _ _ (sameTiles_modTile _ _ _ _ _ _ (fun _ => rfl) h)
      · simp only []
        have he : SameTiles s x (if r = .evict then Comp.evict false (y.hearthCache - hearthBytes ‹Tensor›.fmt) y.copies.length y else y) := by
          split
          · exact sameTiles_evict _ _ _ _ _ _ h
          · exact h
        generalize (if r = Room.evict then _ else y) = z at he ⊢
        split
        · exact sameTiles_pin _ _ _ _ _ _ (sameTiles_modTile _ _ _ _ _ _ (fun _ => rfl) he)
        · exact h

theorem sameTiles_touchAll (s : State) (x : Comp) (r a now ns) : SameTiles s x (x.touchAll r a now ns).1 := by
  unfold Comp.touchAll
  suffices ∀ (l : List Nat) (p : Comp × Nat × Nat), SameTiles s x p.1 → SameTiles s x (l.foldl (fun p n =>
      let q := p.1.touch r a n now
      (q.1, p.2.1 + bitNum q.2.1, p.2.2 + bitNum q.2.2)) p).1 from this ns (x, 0, 0) fun _ _ => rfl
  intro l
  induction l with
  | nil => intro p h; exact h
  | cons n l ih => intro p h; exact ih _ (sameTiles_touch _ _ _ _ _ _ _ h)

theorem ownWork_traceRec (s : State) (b r) : OwnWork c k s (s.traceRec k b r) := by
  unfold State.traceRec
  split
  · exact .refl
  · split
    · exact .refl
    · split
      · exact ownWork_bump _ _ _
      · exact ownWork_modComp _ _ rfl

theorem ownWork_traceFault (s : State) (code x y) : OwnWork c k s (s.traceFault code (fnScope (.vf k)) x y) := by
  unfold State.traceFault
  split
  · exact ownWork_traceRec _ _ _
  · exact .refl

theorem ownWork_raise (s : State) (code cls x y) : OwnWork c k s (s.raise code cls (fnScope (.vf k)) x y) :=
  .trans (ownWork_watch s _) (ownWork_traceFault _ _ _ _)

theorem ownWork_tileFault (s : State) (b) : OwnWork c k s (s.tileFault (.vf k) b) := by
  unfold State.tileFault
  simp only []
  split <;> refine .trans (ownWork_draw s) (.trans (ownWork_draw _) ?_)
  · exact ownWork_raise _ _ _ _ _
  · exact .trans (ownWork_raise _ _ _ _ _) (ownWork_bump _ _ _)

theorem ownWork_tongLoad (s : State) (t n f) : OwnWork c k s (s.tongLoad k t n f) := ownWork_tongs _ _

theorem owns_bringUp (a t ns) : Owns c k (bringUp c k a t ns) := by
  unfold bringUp
  simp only []
  refine owns_bind (owns_await _ _ _) fun _ => owns_getB fun s => ownsAt_mod (ownWork_foldl _ _ (fun s a => ?_) _) ?_
  · split
    · exact .refl
    · exact ownWork_tongLoad _ _ _ _
  · split
    · exact owns_bind (owns_modify fun s => ownWork_tileFault _ _) fun _ => owns_fail _ _
    · exact owns_pure _

theorem owns_readCounted (b a t tr ns) : Owns c k (readCounted b c k a t tr ns) := by
  unfold readCounted
  refine owns_getB fun s => ownsAt_bind (ownsAt_of_owns (owns_bringUp _ _ _)) fun l => owns_bind (owns_bumpNow _ _) fun _ => owns_getB fun s => ownsAt_req ?_
  simp only []
  have tail : ∀ (l : List TileData) (q : Bool) (n : Nat), Owns c k (do
      req q .nanTrapped
      if b then stageCounts c k [(.nanConverted, n)]
      pure l) := by
    intro l q n
    refine owns_bind (owns_req _ _ _) fun _ => ?_
    split
    · exact owns_bind (owns_stageCounts _) fun _ => owns_pure _
    · exact owns_pure _
  split
  · exact ownsAt_get (ownsAt_set (ownWork_setComp _ _ (sameTiles_touchAll _ _ _ _ _ _)) (owns_bind (owns_stageCounts _) fun _ => tail _ _ _))
  · exact ownsAt_of_owns (tail _ _ _)

theorem owns_readTiles (a t tr ns) : Owns c k (readTiles c k a t tr ns) := owns_readCounted _ _ _ _ _

theorem owns_readMat (a t tr) : Owns c k (readMat c k a t tr) := owns_bind (owns_readTiles _ _ _ _) fun _ => owns_pure _

theorem owns_readRef (a o tr) : Owns c k (readRef c k a o tr) := owns_bind (owns_tensorAt _ _) fun _ => owns_readMat _ _ _

theorem owns_readBuffer (b o n) : Owns c k (readBuffer k b o n) := by
  unfold readBuffer
  simp only []
  have tail : Owns c k (do
    let s ← get
    req (!((upFrom (o / 64) (ceilDiv (o + n) 64 - o / 64)).any fun i => !b.lineWritten i) || !(s.comp k).mem.strict) .memUnwritten
    pure (Mem.readBytes b.mem o n)) := owns_getB fun s => ownsAt_bind (ownsAt_of_owns (owns_req _ _ _)) fun _ => owns_pure _
  split
  · exact owns_bind (owns_bumpNow _ _) fun _ => tail
  · exact tail

theorem owns_takeSeal (h) : Owns c k (takeSeal k h) := by
  unfold takeSeal
  refine owns_getB fun s => ?_
  simp only []
  refine ownsAt_set (ownWork_seal _ _) ?_
  split
  · exact owns_pure _
  · exact owns_fail _ _

theorem owns_newSlot (t b) : Owns c k (newSlot k t b) := by
  unfold newSlot
  refine owns_getB fun s => ?_
  simp only []
  exact ownsAt_set (.trans (ownWork_draw s) (ownWork_fresh _ _)) (owns_pure _)

theorem owns_takeDown (t n d) : Owns c k (takeDown k t n d) := by
  unfold takeDown
  split
  · exact owns_bind (owns_newSlot _ _) fun _ => owns_pure _
  · simp only []
    refine owns_bind (owns_newSlot _ _) fun _ => owns_bind (owns_takeSeal _) fun _ => owns_getB fun s => ?_
    exact ownsAt_set (.trans (ownWork_tongLoad s _ _ _) (ownWork_act _ _)) (owns_pure _)

theorem owns_mayWrite (t ns) : Owns c k (mayWrite t ns) := owns_reqPlan _ _ _

theorem owns_sealTiles (a t l) : Owns c k (sealTiles c k a t l) := by
  unfold sealTiles
  simp only []
  refine owns_bind (owns_forIn fun p o => ?_) fun _ => owns_pure _
  refine owns_bind (owns_takeDown _ _ _) fun _ => owns_bind (owns_stageCounts _) fun _ => ?_
  split
  · refine owns_getB fun s => ownsAt_req (ownsAt_set (ownWork_peer _ _ _ _ _ _ _) (owns_pure _))
  · exact owns_pure _

theorem owns_writeTiles (a t l) : Owns c k (writeTiles c k a t l) := owns_bind (owns_sealTiles _ _ _) fun _ => owns_stage _

theorem owns_writeParts (a b l) : Owns c k (writeParts c k a b l) := by
  unfold writeParts
  simp only []
  have tail (pages : List (Nat × Page)) : Owns c k (do
      for q in l do
        stage c (.bufWrite k a q.1 q.2 (pages.filter fun p => (pagesOf q.1 q.2.length).contains p.1))) :=
    owns_bind (owns_forIn fun _ _ => owns_bind (owns_stage _) fun _ => owns_pure _) fun _ => owns_pure _
  split
  · refine owns_bind (owns_forIn fun p o => ?_) fun _ => owns_bind (owns_stageCounts _) fun _ => tail _
    exact owns_bind (owns_takeSeal _) fun _ => owns_bind (owns_newSlot _ _) fun _ => owns_pure _
  · exact tail _

theorem owns_writeBuffer (a b o l) : Owns c k (writeBuffer c k a b o l) := owns_writeParts _ _ _

theorem owns_ascending (l) : Owns c k (ascending l) := by
  unfold ascending
  exact owns_getB fun s => ownsAt_of_owns (owns_pure _)

theorem owns_outPlan (f w sc se st) : Owns c k (outPlan k f w sc se st) := by
  unfold outPlan
  refine owns_getB fun s => ?_
  simp only []
  split
  · split
    · exact ownsAt_of_owns (owns_fail _ _)
    · exact ownsAt_of_owns (owns_pure _)
  · split
    · exact ownsAt_of_owns (owns_pure _)
    · split <;> exact ownsAt_of_owns (owns_pure _)

theorem owns_encode (o t ns v) : Owns c k (encodeTiles o t ns v) := by
  unfold encodeTiles
  exact owns_getB fun s => ownsAt_bind (ownsAt_of_owns (owns_req _ _ _)) fun _ => owns_pure _

theorem owns_emit (a t o ns v) : Owns c k (emit c k a t o ns v) := by
  unfold emit
  refine owns_bind (owns_encode _ _ _ _) fun l => owns_bind (owns_writeTiles _ _ _) fun _ => ?_
  refine owns_bind (owns_forIn fun p o => owns_bind (owns_stageCounts _) fun _ => ?_) fun _ => owns_pure _
  split
  · exact owns_bind (owns_stage _) fun _ => owns_pure _
  · exact owns_pure _

theorem owns_emitPlain (a t o ns v) : Owns c k (emitPlain c k a t o ns v) :=
  owns_bind (owns_encode _ _ _ _) fun _ => owns_bind (owns_writeTiles _ _ _) fun _ => owns_stageCounts _

theorem owns_putStats (t st l) : Owns c k (putStats c k t st l) := by
  unfold putStats
  split
  · exact owns_bind (owns_bufferAt _ _ _) fun _ => owns_writeParts _ _ _
  · exact owns_pure _

/-! ### Quanta -/

theorem ownWork_setWork (s : State) (w) : OwnWork c k s (s.setWork w) := ownWork_works _ _

theorem owns_keepStats (l) : Owns c k (keepStats c k l) := owns_modify fun _ => ownWork_setWork _ _

theorem owns_pieces (j : Job) : Owns c k (j.pieces c k) := by
  unfold Job.pieces
  refine owns_getB fun s => ?_
  simp only []
  split <;> exact ownsAt_of_owns (owns_pure _)

theorem ownWork_placeTile (s : State) (o n t f) : OwnWork c k s (s.placeTile o n t f) := ownWork_anvils _ _

theorem owns_bank (j : Job) (l) : Owns c k (j.bank c k l) := owns_modify fun s => by
  simp only []
  refine .trans (ownWork_setWork s _) (ownWork_foldl _ _ (fun s a => ?_) _)
  split
  · exact ownWork_placeTile _ _ _ _ _
  · exact .refl

theorem owns_ready (j : Job) : Owns c k (j.ready c k) := by
  unfold Job.ready
  exact owns_getB fun s => ownsAt_of_owns (owns_pure _)

theorem owns_close (j : Job) (l) : Owns c k (j.close c k l) := by
  unfold Job.close
  refine owns_bind (owns_modify fun s => ownWork_setWork _ _) fun _ => owns_getB fun s => ?_
  split
  · exact ownsAt_of_owns (owns_modify fun s => ownWork_works _ _)
  · exact ownsAt_of_owns (owns_throw _)

theorem owns_produce (j : Job) (a t o st l v) : Owns c k (j.produce c k a t o st l v) := by
  unfold Job.produce
  refine owns_bind (owns_emit _ _ _ _ _) fun _ => owns_bind (owns_keepStats _) fun _ => owns_getB fun s => ?_
  split
  · exact ownsAt_bind (ownsAt_of_owns (owns_putStats _ _ _)) fun _ => owns_close _ _
  · exact ownsAt_of_owns (owns_close _ _)

theorem owns_readSome (a t tr ns) : Owns c k (readSome c k a t tr ns) := by
  unfold readSome; exact owns_bind (owns_readTiles _ _ _ _) fun _ => owns_pure _

end Sys2Proof.Machine
end

