-- ==== Sys2Proof/Laws/Sram.lean ====
section
/-! SUPPORT. Engine-local SRAM: the skew of a row is undone by its normal read, and a transposed read finds the same byte
(05 R173, R174); entering tiles leaves a command's work its own. -/

namespace Sys2Proof.Machine

theorem laneOf_lt (w r j : Nat) : laneOf w r j < 64 := Nat.mod_lt _ (by decide)

theorem upFrom_length (a n : Nat) : (upFrom a n).length = n := by
  induction n generalizing a with
  | zero => rfl
  | succ n ih => simp [upFrom, ih]

theorem upFrom_getElem? (a n i : Nat) (h : i < n) : (upFrom a n)[i]? = some (a + i) := by
  induction n generalizing a i with
  | zero => omega
  | succ n ih =>
    cases i with
    | zero => simp [upFrom]
    | succ i => simp only [upFrom, List.getElem?_cons_succ]; rw [ih _ _ (by omega)]; congr 1; omega

theorem getD_map_upFrom (f : Nat → Byte) (n i : Nat) (h : i < n) : ((upFrom 0 n).map f).getD i 0 = f i := by
  rw [List.getD_eq_getElem?_getD, List.getElem?_map, upFrom_getElem? 0 n i h]
  simp

/-- Byte j of a chunk stands in its lane. -/
theorem skew_lane (w r j : Nat) (l : List Byte) (h : j < 64) : (skew w r l).getD (laneOf w r j) 0 = l.getD j 0 := by
  unfold skew
  rw [getD_map_upFrom _ _ _ (laneOf_lt w r j)]
  congr 1
  unfold laneOf
  omega

/-- A normal read gives back the chunk that was placed. -/
theorem unskew_skew (w r j : Nat) (l : List Byte) (h : j < 64) : (unskew w r (skew w r l)).getD j 0 = l.getD j 0 := by
  unfold unskew
  rw [getD_map_upFrom _ _ _ h, skew_lane w r j l h]

/-- A transposed read of a byte is the normal read of it. -/
theorem SramTile.across_normal (t : SramTile) (r q j : Nat) (h : j < 64) : t.across r q j = t.normal r q j := by
  unfold SramTile.across SramTile.normal unskew
  rw [getD_map_upFrom _ _ _ h]

theorem ownWork_sram (c : Cmd) (k : Nat) (s : State) (n) : OwnWork c k s { s with sram := n } :=
  ⟨fun _ _ => rfl, fun _ _ => rfl, fun _ _ _ => rfl, ⟨[], by simp⟩, ⟨[], by simp⟩, rfl, rfl, rfl, rfl, rfl⟩

theorem owns_enterSram (c : Cmd) (k a : Nat) (m : Mat) (ns : List Nat) : Owns c k (enterSram c k a m ns) :=
  owns_modify fun s => ownWork_sram c k s _

end Sys2Proof.Machine
end

