-- ==== Sys2Proof/Laws/State.lean ====
section
/-! SUPPORT. One lemma per field per update of the state, so that no proof unfolds a record update. -/

namespace Sys2Proof.Machine

@[simp] theorem State.setFn_pending (s : State) (f : Fn) (x : FnState) : (s.setFn f x).pending = s.pending := rfl
@[simp] theorem State.setFn_free (s : State) (f : Fn) (x : FnState) : (s.setFn f x).free = s.free := rfl
@[simp] theorem State.setFn_hostMem (s : State) (f : Fn) (x : FnState) : (s.setFn f x).hostMem = s.hostMem := rfl
@[simp] theorem State.setFn_stroke (s : State) (f : Fn) (x : FnState) : (s.setFn f x).stroke = s.stroke := rfl
@[simp] theorem State.setFn_fns (s : State) (f : Fn) (x : FnState) : (s.setFn f x).fns = Tab.set s.fns (fnKey f) x := rfl
@[simp] theorem State.setFn_queue (s : State) (f : Fn) (x : FnState) : (s.setFn f x).queue = s.queue := rfl
@[simp] theorem State.setFn_replies (s : State) (f : Fn) (x : FnState) : (s.setFn f x).replies = s.replies := rfl
@[simp] theorem State.setFn_records (s : State) (f : Fn) (x : FnState) : (s.setFn f x).records = s.records := rfl
@[simp] theorem State.setFn_wordStores (s : State) (f : Fn) (x : FnState) : (s.setFn f x).wordStores = s.wordStores := rfl
@[simp] theorem State.setFn_commits (s : State) (f : Fn) (x : FnState) : (s.setFn f x).commits = s.commits := rfl
@[simp] theorem State.setFn_comps (s : State) (f : Fn) (x : FnState) : (s.setFn f x).comps = s.comps := rfl
@[simp] theorem State.setFn_quench (s : State) (f : Fn) (x : FnState) : (s.setFn f x).quench = s.quench := rfl
@[simp] theorem State.setFn_watch (s : State) (f : Fn) (x : FnState) : (s.setFn f x).watch = s.watch := rfl
@[simp] theorem State.setFn_power (s : State) (f : Fn) (x : FnState) : (s.setFn f x).power = s.power := rfl
@[simp] theorem State.setFn_dawn (s : State) (f : Fn) (x : FnState) : (s.setFn f x).dawn = s.dawn := rfl
@[simp] theorem State.setFn_host (s : State) (f : Fn) (x : FnState) : (s.setFn f x).host = s.host := rfl
@[simp] theorem State.setFn_resv (s : State) (f : Fn) (x : FnState) : (s.setFn f x).resv = s.resv := rfl
@[simp] theorem State.setFn_baseKeys (s : State) (f : Fn) (x : FnState) : (s.setFn f x).baseKeys = s.baseKeys := rfl
@[simp] theorem State.setFn_transport (s : State) (f : Fn) (x : FnState) : (s.setFn f x).transport = s.transport := rfl
@[simp] theorem State.setFn_bases (s : State) (f : Fn) (x : FnState) : (s.setFn f x).bases = s.bases := rfl
@[simp] theorem State.setFn_link (s : State) (f : Fn) (x : FnState) : (s.setFn f x).link = s.link := rfl
@[simp] theorem State.setFn_works (s : State) (f : Fn) (x : FnState) : (s.setFn f x).works = s.works := rfl
@[simp] theorem State.setFn_anvils (s : State) (f : Fn) (x : FnState) : (s.setFn f x).anvils = s.anvils := rfl
@[simp] theorem State.setFn_tongs (s : State) (f : Fn) (x : FnState) : (s.setFn f x).tongs = s.tongs := rfl
@[simp] theorem State.setFn_fresh (s : State) (f : Fn) (x : FnState) : (s.setFn f x).fresh = s.fresh := rfl
@[simp] theorem State.setFn_sram (s : State) (f : Fn) (x : FnState) : (s.setFn f x).sram = s.sram := rfl
@[simp] theorem State.setFn_act (s : State) (f : Fn) (x : FnState) : (s.setFn f x).act = s.act := rfl

@[simp] theorem State.modFn_pending (s : State) (f : Fn) (g : FnState → FnState) : (s.modFn f g).pending = s.pending := rfl
@[simp] theorem State.modFn_free (s : State) (f : Fn) (g : FnState → FnState) : (s.modFn f g).free = s.free := rfl
@[simp] theorem State.modFn_hostMem (s : State) (f : Fn) (g : FnState → FnState) : (s.modFn f g).hostMem = s.hostMem := rfl
@[simp] theorem State.modFn_stroke (s : State) (f : Fn) (g : FnState → FnState) : (s.modFn f g).stroke = s.stroke := rfl
@[simp] theorem State.modFn_fns (s : State) (f : Fn) (g : FnState → FnState) : (s.modFn f g).fns = Tab.set s.fns (fnKey f) (g (s.fnOf f)) := rfl
@[simp] theorem State.modFn_queue (s : State) (f : Fn) (g : FnState → FnState) : (s.modFn f g).queue = s.queue := rfl
@[simp] theorem State.modFn_replies (s : State) (f : Fn) (g : FnState → FnState) : (s.modFn f g).replies = s.replies := rfl
@[simp] theorem State.modFn_records (s : State) (f : Fn) (g : FnState → FnState) : (s.modFn f g).records = s.records := rfl
@[simp] theorem State.modFn_wordStores (s : State) (f : Fn) (g : FnState → FnState) : (s.modFn f g).wordStores = s.wordStores := rfl
@[simp] theorem State.modFn_commits (s : State) (f : Fn) (g : FnState → FnState) : (s.modFn f g).commits = s.commits := rfl
@[simp] theorem State.modFn_comps (s : State) (f : Fn) (g : FnState → FnState) : (s.modFn f g).comps = s.comps := rfl
@[simp] theorem State.modFn_quench (s : State) (f : Fn) (g : FnState → FnState) : (s.modFn f g).quench = s.quench := rfl
@[simp] theorem State.modFn_watch (s : State) (f : Fn) (g : FnState → FnState) : (s.modFn f g).watch = s.watch := rfl
@[simp] theorem State.modFn_power (s : State) (f : Fn) (g : FnState → FnState) : (s.modFn f g).power = s.power := rfl
@[simp] theorem State.modFn_dawn (s : State) (f : Fn) (g : FnState → FnState) : (s.modFn f g).dawn = s.dawn := rfl
@[simp] theorem State.modFn_host (s : State) (f : Fn) (g : FnState → FnState) : (s.modFn f g).host = s.host := rfl
@[simp] theorem State.modFn_resv (s : State) (f : Fn) (g : FnState → FnState) : (s.modFn f g).resv = s.resv := rfl
@[simp] theorem State.modFn_baseKeys (s : State) (f : Fn) (g : FnState → FnState) : (s.modFn f g).baseKeys = s.baseKeys := rfl
@[simp] theorem State.modFn_transport (s : State) (f : Fn) (g : FnState → FnState) : (s.modFn f g).transport = s.transport := rfl
@[simp] theorem State.modFn_bases (s : State) (f : Fn) (g : FnState → FnState) : (s.modFn f g).bases = s.bases := rfl
@[simp] theorem State.modFn_link (s : State) (f : Fn) (g : FnState → FnState) : (s.modFn f g).link = s.link := rfl
@[simp] theorem State.modFn_works (s : State) (f : Fn) (g : FnState → FnState) : (s.modFn f g).works = s.works := rfl
@[simp] theorem State.modFn_anvils (s : State) (f : Fn) (g : FnState → FnState) : (s.modFn f g).anvils = s.anvils := rfl
@[simp] theorem State.modFn_tongs (s : State) (f : Fn) (g : FnState → FnState) : (s.modFn f g).tongs = s.tongs := rfl
@[simp] theorem State.modFn_fresh (s : State) (f : Fn) (g : FnState → FnState) : (s.modFn f g).fresh = s.fresh := rfl
@[simp] theorem State.modFn_sram (s : State) (f : Fn) (g : FnState → FnState) : (s.modFn f g).sram = s.sram := rfl
@[simp] theorem State.modFn_act (s : State) (f : Fn) (g : FnState → FnState) : (s.modFn f g).act = s.act := rfl

@[simp] theorem State.setComp_pending (s : State) (k : Nat) (x : Comp) : (s.setComp k x).pending = s.pending := rfl
@[simp] theorem State.setComp_free (s : State) (k : Nat) (x : Comp) : (s.setComp k x).free = s.free := rfl
@[simp] theorem State.setComp_hostMem (s : State) (k : Nat) (x : Comp) : (s.setComp k x).hostMem = s.hostMem := rfl
@[simp] theorem State.setComp_stroke (s : State) (k : Nat) (x : Comp) : (s.setComp k x).stroke = s.stroke := rfl
@[simp] theorem State.setComp_fns (s : State) (k : Nat) (x : Comp) : (s.setComp k x).fns = s.fns := rfl
@[simp] theorem State.setComp_queue (s : State) (k : Nat) (x : Comp) : (s.setComp k x).queue = s.queue := rfl
@[simp] theorem State.setComp_replies (s : State) (k : Nat) (x : Comp) : (s.setComp k x).replies = s.replies := rfl
@[simp] theorem State.setComp_records (s : State) (k : Nat) (x : Comp) : (s.setComp k x).records = s.records := rfl
@[simp] theorem State.setComp_wordStores (s : State) (k : Nat) (x : Comp) : (s.setComp k x).wordStores = s.wordStores := rfl
@[simp] theorem State.setComp_commits (s : State) (k : Nat) (x : Comp) : (s.setComp k x).commits = s.commits := rfl
@[simp] theorem State.setComp_comps (s : State) (k : Nat) (x : Comp) : (s.setComp k x).comps = Tab.set s.comps k x := rfl
@[simp] theorem State.setComp_quench (s : State) (k : Nat) (x : Comp) : (s.setComp k x).quench = s.quench := rfl
@[simp] theorem State.setComp_watch (s : State) (k : Nat) (x : Comp) : (s.setComp k x).watch = s.watch := rfl
@[simp] theorem State.setComp_power (s : State) (k : Nat) (x : Comp) : (s.setComp k x).power = s.power := rfl
@[simp] theorem State.setComp_dawn (s : State) (k : Nat) (x : Comp) : (s.setComp k x).dawn = s.dawn := rfl
@[simp] theorem State.setComp_host (s : State) (k : Nat) (x : Comp) : (s.setComp k x).host = s.host := rfl
@[simp] theorem State.setComp_resv (s : State) (k : Nat) (x : Comp) : (s.setComp k x).resv = s.resv := rfl
@[simp] theorem State.setComp_baseKeys (s : State) (k : Nat) (x : Comp) : (s.setComp k x).baseKeys = s.baseKeys := rfl
@[simp] theorem State.setComp_transport (s : State) (k : Nat) (x : Comp) : (s.setComp k x).transport = s.transport := rfl
@[simp] theorem State.setComp_bases (s : State) (k : Nat) (x : Comp) : (s.setComp k x).bases = s.bases := rfl
@[simp] theorem State.setComp_link (s : State) (k : Nat) (x : Comp) : (s.setComp k x).link = s.link := rfl
@[simp] theorem State.setComp_works (s : State) (k : Nat) (x : Comp) : (s.setComp k x).works = s.works := rfl
@[simp] theorem State.setComp_anvils (s : State) (k : Nat) (x : Comp) : (s.setComp k x).anvils = s.anvils := rfl
@[simp] theorem State.setComp_tongs (s : State) (k : Nat) (x : Comp) : (s.setComp k x).tongs = s.tongs := rfl
@[simp] theorem State.setComp_fresh (s : State) (k : Nat) (x : Comp) : (s.setComp k x).fresh = s.fresh := rfl
@[simp] theorem State.setComp_sram (s : State) (k : Nat) (x : Comp) : (s.setComp k x).sram = s.sram := rfl
@[simp] theorem State.setComp_act (s : State) (k : Nat) (x : Comp) : (s.setComp k x).act = s.act := rfl

@[simp] theorem State.modComp_pending (s : State) (k : Nat) (g : Comp → Comp) : (s.modComp k g).pending = s.pending := rfl
@[simp] theorem State.modComp_free (s : State) (k : Nat) (g : Comp → Comp) : (s.modComp k g).free = s.free := rfl
@[simp] theorem State.modComp_hostMem (s : State) (k : Nat) (g : Comp → Comp) : (s.modComp k g).hostMem = s.hostMem := rfl
@[simp] theorem State.modComp_stroke (s : State) (k : Nat) (g : Comp → Comp) : (s.modComp k g).stroke = s.stroke := rfl
@[simp] theorem State.modComp_fns (s : State) (k : Nat) (g : Comp → Comp) : (s.modComp k g).fns = s.fns := rfl
@[simp] theorem State.modComp_queue (s : State) (k : Nat) (g : Comp → Comp) : (s.modComp k g).queue = s.queue := rfl
@[simp] theorem State.modComp_replies (s : State) (k : Nat) (g : Comp → Comp) : (s.modComp k g).replies = s.replies := rfl
@[simp] theorem State.modComp_records (s : State) (k : Nat) (g : Comp → Comp) : (s.modComp k g).records = s.records := rfl
@[simp] theorem State.modComp_wordStores (s : State) (k : Nat) (g : Comp → Comp) : (s.modComp k g).wordStores = s.wordStores := rfl
@[simp] theorem State.modComp_commits (s : State) (k : Nat) (g : Comp → Comp) : (s.modComp k g).commits = s.commits := rfl
@[simp] theorem State.modComp_comps (s : State) (k : Nat) (g : Comp → Comp) : (s.modComp k g).comps = Tab.set s.comps k (g (s.comp k)) := rfl
@[simp] theorem State.modComp_quench (s : State) (k : Nat) (g : Comp → Comp) : (s.modComp k g).quench = s.quench := rfl
@[simp] theorem State.modComp_watch (s : State) (k : Nat) (g : Comp → Comp) : (s.modComp k g).watch = s.watch := rfl
@[simp] theorem State.modComp_power (s : State) (k : Nat) (g : Comp → Comp) : (s.modComp k g).power = s.power := rfl
@[simp] theorem State.modComp_dawn (s : State) (k : Nat) (g : Comp → Comp) : (s.modComp k g).dawn = s.dawn := rfl
@[simp] theorem State.modComp_host (s : State) (k : Nat) (g : Comp → Comp) : (s.modComp k g).host = s.host := rfl
@[simp] theorem State.modComp_resv (s : State) (k : Nat) (g : Comp → Comp) : (s.modComp k g).resv = s.resv := rfl
@[simp] theorem State.modComp_baseKeys (s : State) (k : Nat) (g : Comp → Comp) : (s.modComp k g).baseKeys = s.baseKeys := rfl
@[simp] theorem State.modComp_transport (s : State) (k : Nat) (g : Comp → Comp) : (s.modComp k g).transport = s.transport := rfl
@[simp] theorem State.modComp_bases (s : State) (k : Nat) (g : Comp → Comp) : (s.modComp k g).bases = s.bases := rfl
@[simp] theorem State.modComp_link (s : State) (k : Nat) (g : Comp → Comp) : (s.modComp k g).link = s.link := rfl
@[simp] theorem State.modComp_works (s : State) (k : Nat) (g : Comp → Comp) : (s.modComp k g).works = s.works := rfl
@[simp] theorem State.modComp_anvils (s : State) (k : Nat) (g : Comp → Comp) : (s.modComp k g).anvils = s.anvils := rfl
@[simp] theorem State.modComp_tongs (s : State) (k : Nat) (g : Comp → Comp) : (s.modComp k g).tongs = s.tongs := rfl
@[simp] theorem State.modComp_fresh (s : State) (k : Nat) (g : Comp → Comp) : (s.modComp k g).fresh = s.fresh := rfl
@[simp] theorem State.modComp_sram (s : State) (k : Nat) (g : Comp → Comp) : (s.modComp k g).sram = s.sram := rfl
@[simp] theorem State.modComp_act (s : State) (k : Nat) (g : Comp → Comp) : (s.modComp k g).act = s.act := rfl

@[simp] theorem State.bump_pending (s : State) (k : Nat) (c : Ctr) (n : Nat) : (s.bump k c n).pending = s.pending := rfl
@[simp] theorem State.bump_free (s : State) (k : Nat) (c : Ctr) (n : Nat) : (s.bump k c n).free = s.free := rfl
@[simp] theorem State.bump_hostMem (s : State) (k : Nat) (c : Ctr) (n : Nat) : (s.bump k c n).hostMem = s.hostMem := rfl
@[simp] theorem State.bump_stroke (s : State) (k : Nat) (c : Ctr) (n : Nat) : (s.bump k c n).stroke = s.stroke := rfl
@[simp] theorem State.bump_fns (s : State) (k : Nat) (c : Ctr) (n : Nat) : (s.bump k c n).fns = s.fns := rfl
@[simp] theorem State.bump_queue (s : State) (k : Nat) (c : Ctr) (n : Nat) : (s.bump k c n).queue = s.queue := rfl
@[simp] theorem State.bump_replies (s : State) (k : Nat) (c : Ctr) (n : Nat) : (s.bump k c n).replies = s.replies := rfl
@[simp] theorem State.bump_records (s : State) (k : Nat) (c : Ctr) (n : Nat) : (s.bump k c n).records = s.records := rfl
@[simp] theorem State.bump_wordStores (s : State) (k : Nat) (c : Ctr) (n : Nat) : (s.bump k c n).wordStores = s.wordStores := rfl
@[simp] theorem State.bump_commits (s : State) (k : Nat) (c : Ctr) (n : Nat) : (s.bump k c n).commits = s.commits := rfl
@[simp] theorem State.bump_quench (s : State) (k : Nat) (c : Ctr) (n : Nat) : (s.bump k c n).quench = s.quench := rfl
@[simp] theorem State.bump_watch (s : State) (k : Nat) (c : Ctr) (n : Nat) : (s.bump k c n).watch = s.watch := rfl
@[simp] theorem State.bump_power (s : State) (k : Nat) (c : Ctr) (n : Nat) : (s.bump k c n).power = s.power := rfl
@[simp] theorem State.bump_dawn (s : State) (k : Nat) (c : Ctr) (n : Nat) : (s.bump k c n).dawn = s.dawn := rfl
@[simp] theorem State.bump_host (s : State) (k : Nat) (c : Ctr) (n : Nat) : (s.bump k c n).host = s.host := rfl
@[simp] theorem State.bump_resv (s : State) (k : Nat) (c : Ctr) (n : Nat) : (s.bump k c n).resv = s.resv := rfl
@[simp] theorem State.bump_baseKeys (s : State) (k : Nat) (c : Ctr) (n : Nat) : (s.bump k c n).baseKeys = s.baseKeys := rfl
@[simp] theorem State.bump_transport (s : State) (k : Nat) (c : Ctr) (n : Nat) : (s.bump k c n).transport = s.transport := rfl
@[simp] theorem State.bump_bases (s : State) (k : Nat) (c : Ctr) (n : Nat) : (s.bump k c n).bases = s.bases := rfl
@[simp] theorem State.bump_link (s : State) (k : Nat) (c : Ctr) (n : Nat) : (s.bump k c n).link = s.link := rfl
@[simp] theorem State.bump_works (s : State) (k : Nat) (c : Ctr) (n : Nat) : (s.bump k c n).works = s.works := rfl
@[simp] theorem State.bump_anvils (s : State) (k : Nat) (c : Ctr) (n : Nat) : (s.bump k c n).anvils = s.anvils := rfl
@[simp] theorem State.bump_tongs (s : State) (k : Nat) (c : Ctr) (n : Nat) : (s.bump k c n).tongs = s.tongs := rfl
@[simp] theorem State.bump_fresh (s : State) (k : Nat) (c : Ctr) (n : Nat) : (s.bump k c n).fresh = s.fresh := rfl
@[simp] theorem State.bump_sram (s : State) (k : Nat) (c : Ctr) (n : Nat) : (s.bump k c n).sram = s.sram := rfl
@[simp] theorem State.bump_act (s : State) (k : Nat) (c : Ctr) (n : Nat) : (s.bump k c n).act = s.act := rfl

@[simp] theorem State.bumpRing_pending (s : State) (f : Fn) (i n : Nat) : (s.bumpRing f i n).pending = s.pending := rfl
@[simp] theorem State.bumpRing_free (s : State) (f : Fn) (i n : Nat) : (s.bumpRing f i n).free = s.free := rfl
@[simp] theorem State.bumpRing_hostMem (s : State) (f : Fn) (i n : Nat) : (s.bumpRing f i n).hostMem = s.hostMem := rfl
@[simp] theorem State.bumpRing_stroke (s : State) (f : Fn) (i n : Nat) : (s.bumpRing f i n).stroke = s.stroke := rfl
@[simp] theorem State.bumpRing_queue (s : State) (f : Fn) (i n : Nat) : (s.bumpRing f i n).queue = s.queue := rfl
@[simp] theorem State.bumpRing_replies (s : State) (f : Fn) (i n : Nat) : (s.bumpRing f i n).replies = s.replies := rfl
@[simp] theorem State.bumpRing_records (s : State) (f : Fn) (i n : Nat) : (s.bumpRing f i n).records = s.records := rfl
@[simp] theorem State.bumpRing_wordStores (s : State) (f : Fn) (i n : Nat) : (s.bumpRing f i n).wordStores = s.wordStores := rfl
@[simp] theorem State.bumpRing_commits (s : State) (f : Fn) (i n : Nat) : (s.bumpRing f i n).commits = s.commits := rfl
@[simp] theorem State.bumpRing_comps (s : State) (f : Fn) (i n : Nat) : (s.bumpRing f i n).comps = s.comps := rfl
@[simp] theorem State.bumpRing_quench (s : State) (f : Fn) (i n : Nat) : (s.bumpRing f i n).quench = s.quench := rfl
@[simp] theorem State.bumpRing_watch (s : State) (f : Fn) (i n : Nat) : (s.bumpRing f i n).watch = s.watch := rfl
@[simp] theorem State.bumpRing_power (s : State) (f : Fn) (i n : Nat) : (s.bumpRing f i n).power = s.power := rfl
@[simp] theorem State.bumpRing_dawn (s : State) (f : Fn) (i n : Nat) : (s.bumpRing f i n).dawn = s.dawn := rfl
@[simp] theorem State.bumpRing_host (s : State) (f : Fn) (i n : Nat) : (s.bumpRing f i n).host = s.host := rfl
@[simp] theorem State.bumpRing_resv (s : State) (f : Fn) (i n : Nat) : (s.bumpRing f i n).resv = s.resv := rfl
@[simp] theorem State.bumpRing_baseKeys (s : State) (f : Fn) (i n : Nat) : (s.bumpRing f i n).baseKeys = s.baseKeys := rfl
@[simp] theorem State.bumpRing_transport (s : State) (f : Fn) (i n : Nat) : (s.bumpRing f i n).transport = s.transport := rfl
@[simp] theorem State.bumpRing_bases (s : State) (f : Fn) (i n : Nat) : (s.bumpRing f i n).bases = s.bases := rfl
@[simp] theorem State.bumpRing_link (s : State) (f : Fn) (i n : Nat) : (s.bumpRing f i n).link = s.link := rfl
@[simp] theorem State.bumpRing_works (s : State) (f : Fn) (i n : Nat) : (s.bumpRing f i n).works = s.works := rfl
@[simp] theorem State.bumpRing_anvils (s : State) (f : Fn) (i n : Nat) : (s.bumpRing f i n).anvils = s.anvils := rfl
@[simp] theorem State.bumpRing_tongs (s : State) (f : Fn) (i n : Nat) : (s.bumpRing f i n).tongs = s.tongs := rfl
@[simp] theorem State.bumpRing_fresh (s : State) (f : Fn) (i n : Nat) : (s.bumpRing f i n).fresh = s.fresh := rfl
@[simp] theorem State.bumpRing_sram (s : State) (f : Fn) (i n : Nat) : (s.bumpRing f i n).sram = s.sram := rfl
@[simp] theorem State.bumpRing_act (s : State) (f : Fn) (i n : Nat) : (s.bumpRing f i n).act = s.act := rfl

@[simp] theorem State.setInt_pending (s : State) (f : Fn) (i : Nat) : (s.setInt f i).pending = s.pending := rfl
@[simp] theorem State.setInt_free (s : State) (f : Fn) (i : Nat) : (s.setInt f i).free = s.free := rfl
@[simp] theorem State.setInt_hostMem (s : State) (f : Fn) (i : Nat) : (s.setInt f i).hostMem = s.hostMem := rfl
@[simp] theorem State.setInt_stroke (s : State) (f : Fn) (i : Nat) : (s.setInt f i).stroke = s.stroke := rfl
@[simp] theorem State.setInt_queue (s : State) (f : Fn) (i : Nat) : (s.setInt f i).queue = s.queue := rfl
@[simp] theorem State.setInt_replies (s : State) (f : Fn) (i : Nat) : (s.setInt f i).replies = s.replies := rfl
@[simp] theorem State.setInt_records (s : State) (f : Fn) (i : Nat) : (s.setInt f i).records = s.records := rfl
@[simp] theorem State.setInt_wordStores (s : State) (f : Fn) (i : Nat) : (s.setInt f i).wordStores = s.wordStores := rfl
@[simp] theorem State.setInt_commits (s : State) (f : Fn) (i : Nat) : (s.setInt f i).commits = s.commits := rfl
@[simp] theorem State.setInt_comps (s : State) (f : Fn) (i : Nat) : (s.setInt f i).comps = s.comps := rfl
@[simp] theorem State.setInt_quench (s : State) (f : Fn) (i : Nat) : (s.setInt f i).quench = s.quench := rfl
@[simp] theorem State.setInt_watch (s : State) (f : Fn) (i : Nat) : (s.setInt f i).watch = s.watch := rfl
@[simp] theorem State.setInt_power (s : State) (f : Fn) (i : Nat) : (s.setInt f i).power = s.power := rfl
@[simp] theorem State.setInt_dawn (s : State) (f : Fn) (i : Nat) : (s.setInt f i).dawn = s.dawn := rfl
@[simp] theorem State.setInt_host (s : State) (f : Fn) (i : Nat) : (s.setInt f i).host = s.host := rfl
@[simp] theorem State.setInt_resv (s : State) (f : Fn) (i : Nat) : (s.setInt f i).resv = s.resv := rfl
@[simp] theorem State.setInt_baseKeys (s : State) (f : Fn) (i : Nat) : (s.setInt f i).baseKeys = s.baseKeys := rfl
@[simp] theorem State.setInt_transport (s : State) (f : Fn) (i : Nat) : (s.setInt f i).transport = s.transport := rfl
@[simp] theorem State.setInt_bases (s : State) (f : Fn) (i : Nat) : (s.setInt f i).bases = s.bases := rfl
@[simp] theorem State.setInt_link (s : State) (f : Fn) (i : Nat) : (s.setInt f i).link = s.link := rfl
@[simp] theorem State.setInt_works (s : State) (f : Fn) (i : Nat) : (s.setInt f i).works = s.works := rfl
@[simp] theorem State.setInt_anvils (s : State) (f : Fn) (i : Nat) : (s.setInt f i).anvils = s.anvils := rfl
@[simp] theorem State.setInt_tongs (s : State) (f : Fn) (i : Nat) : (s.setInt f i).tongs = s.tongs := rfl
@[simp] theorem State.setInt_fresh (s : State) (f : Fn) (i : Nat) : (s.setInt f i).fresh = s.fresh := rfl
@[simp] theorem State.setInt_sram (s : State) (f : Fn) (i : Nat) : (s.setInt f i).sram = s.sram := rfl
@[simp] theorem State.setInt_act (s : State) (f : Fn) (i : Nat) : (s.setInt f i).act = s.act := rfl

@[simp] theorem State.configError_pending (s : State) (f : Fn) : (s.configError f).pending = s.pending := rfl
@[simp] theorem State.configError_free (s : State) (f : Fn) : (s.configError f).free = s.free := rfl
@[simp] theorem State.configError_hostMem (s : State) (f : Fn) : (s.configError f).hostMem = s.hostMem := rfl
@[simp] theorem State.configError_stroke (s : State) (f : Fn) : (s.configError f).stroke = s.stroke := rfl
@[simp] theorem State.configError_queue (s : State) (f : Fn) : (s.configError f).queue = s.queue := rfl
@[simp] theorem State.configError_replies (s : State) (f : Fn) : (s.configError f).replies = s.replies := rfl
@[simp] theorem State.configError_records (s : State) (f : Fn) : (s.configError f).records = s.records := rfl
@[simp] theorem State.configError_wordStores (s : State) (f : Fn) : (s.configError f).wordStores = s.wordStores := rfl
@[simp] theorem State.configError_commits (s : State) (f : Fn) : (s.configError f).commits = s.commits := rfl
@[simp] theorem State.configError_comps (s : State) (f : Fn) : (s.configError f).comps = s.comps := rfl
@[simp] theorem State.configError_quench (s : State) (f : Fn) : (s.configError f).quench = s.quench := rfl
@[simp] theorem State.configError_watch (s : State) (f : Fn) : (s.configError f).watch = s.watch := rfl
@[simp] theorem State.configError_power (s : State) (f : Fn) : (s.configError f).power = s.power := rfl
@[simp] theorem State.configError_dawn (s : State) (f : Fn) : (s.configError f).dawn = s.dawn := rfl
@[simp] theorem State.configError_host (s : State) (f : Fn) : (s.configError f).host = s.host := rfl
@[simp] theorem State.configError_resv (s : State) (f : Fn) : (s.configError f).resv = s.resv := rfl
@[simp] theorem State.configError_baseKeys (s : State) (f : Fn) : (s.configError f).baseKeys = s.baseKeys := rfl
@[simp] theorem State.configError_transport (s : State) (f : Fn) : (s.configError f).transport = s.transport := rfl
@[simp] theorem State.configError_bases (s : State) (f : Fn) : (s.configError f).bases = s.bases := rfl
@[simp] theorem State.configError_link (s : State) (f : Fn) : (s.configError f).link = s.link := rfl
@[simp] theorem State.configError_works (s : State) (f : Fn) : (s.configError f).works = s.works := rfl
@[simp] theorem State.configError_anvils (s : State) (f : Fn) : (s.configError f).anvils = s.anvils := rfl
@[simp] theorem State.configError_tongs (s : State) (f : Fn) : (s.configError f).tongs = s.tongs := rfl
@[simp] theorem State.configError_fresh (s : State) (f : Fn) : (s.configError f).fresh = s.fresh := rfl
@[simp] theorem State.configError_sram (s : State) (f : Fn) : (s.configError f).sram = s.sram := rfl
@[simp] theorem State.configError_act (s : State) (f : Fn) : (s.configError f).act = s.act := rfl

@[simp] theorem State.notice_pending (s : State) (f : Fn) (n : Notice) : (s.notice f n).pending = s.pending := rfl
@[simp] theorem State.notice_free (s : State) (f : Fn) (n : Notice) : (s.notice f n).free = s.free := rfl
@[simp] theorem State.notice_hostMem (s : State) (f : Fn) (n : Notice) : (s.notice f n).hostMem = s.hostMem := rfl
@[simp] theorem State.notice_stroke (s : State) (f : Fn) (n : Notice) : (s.notice f n).stroke = s.stroke := rfl
@[simp] theorem State.notice_queue (s : State) (f : Fn) (n : Notice) : (s.notice f n).queue = s.queue := rfl
@[simp] theorem State.notice_replies (s : State) (f : Fn) (n : Notice) : (s.notice f n).replies = s.replies := rfl
@[simp] theorem State.notice_records (s : State) (f : Fn) (n : Notice) : (s.notice f n).records = s.records := rfl
@[simp] theorem State.notice_wordStores (s : State) (f : Fn) (n : Notice) : (s.notice f n).wordStores = s.wordStores := rfl
@[simp] theorem State.notice_commits (s : State) (f : Fn) (n : Notice) : (s.notice f n).commits = s.commits := rfl
@[simp] theorem State.notice_comps (s : State) (f : Fn) (n : Notice) : (s.notice f n).comps = s.comps := rfl
@[simp] theorem State.notice_quench (s : State) (f : Fn) (n : Notice) : (s.notice f n).quench = s.quench := rfl
@[simp] theorem State.notice_watch (s : State) (f : Fn) (n : Notice) : (s.notice f n).watch = s.watch := rfl
@[simp] theorem State.notice_power (s : State) (f : Fn) (n : Notice) : (s.notice f n).power = s.power := rfl
@[simp] theorem State.notice_dawn (s : State) (f : Fn) (n : Notice) : (s.notice f n).dawn = s.dawn := rfl
@[simp] theorem State.notice_host (s : State) (f : Fn) (n : Notice) : (s.notice f n).host = s.host := rfl
@[simp] theorem State.notice_resv (s : State) (f : Fn) (n : Notice) : (s.notice f n).resv = s.resv := rfl
@[simp] theorem State.notice_baseKeys (s : State) (f : Fn) (n : Notice) : (s.notice f n).baseKeys = s.baseKeys := rfl
@[simp] theorem State.notice_transport (s : State) (f : Fn) (n : Notice) : (s.notice f n).transport = s.transport := rfl
@[simp] theorem State.notice_bases (s : State) (f : Fn) (n : Notice) : (s.notice f n).bases = s.bases := rfl
@[simp] theorem State.notice_link (s : State) (f : Fn) (n : Notice) : (s.notice f n).link = s.link := rfl
@[simp] theorem State.notice_works (s : State) (f : Fn) (n : Notice) : (s.notice f n).works = s.works := rfl
@[simp] theorem State.notice_anvils (s : State) (f : Fn) (n : Notice) : (s.notice f n).anvils = s.anvils := rfl
@[simp] theorem State.notice_tongs (s : State) (f : Fn) (n : Notice) : (s.notice f n).tongs = s.tongs := rfl
@[simp] theorem State.notice_fresh (s : State) (f : Fn) (n : Notice) : (s.notice f n).fresh = s.fresh := rfl
@[simp] theorem State.notice_sram (s : State) (f : Fn) (n : Notice) : (s.notice f n).sram = s.sram := rfl
@[simp] theorem State.notice_act (s : State) (f : Fn) (n : Notice) : (s.notice f n).act = s.act := rfl

@[simp] theorem State.hostWrite_pending (s : State) (f : Fn) (a : Nat) (b : List Byte) : (s.hostWrite f a b).pending = s.pending := rfl
@[simp] theorem State.hostWrite_free (s : State) (f : Fn) (a : Nat) (b : List Byte) : (s.hostWrite f a b).free = s.free := rfl
@[simp] theorem State.hostWrite_hostMem (s : State) (f : Fn) (a : Nat) (b : List Byte) : (s.hostWrite f a b).hostMem = Tab.modify [] s.hostMem (fnKey f) fun m => Mem.writeBytes m a b := rfl
@[simp] theorem State.hostWrite_stroke (s : State) (f : Fn) (a : Nat) (b : List Byte) : (s.hostWrite f a b).stroke = s.stroke := rfl
@[simp] theorem State.hostWrite_fns (s : State) (f : Fn) (a : Nat) (b : List Byte) : (s.hostWrite f a b).fns = s.fns := rfl
@[simp] theorem State.hostWrite_queue (s : State) (f : Fn) (a : Nat) (b : List Byte) : (s.hostWrite f a b).queue = s.queue := rfl
@[simp] theorem State.hostWrite_replies (s : State) (f : Fn) (a : Nat) (b : List Byte) : (s.hostWrite f a b).replies = s.replies := rfl
@[simp] theorem State.hostWrite_records (s : State) (f : Fn) (a : Nat) (b : List Byte) : (s.hostWrite f a b).records = s.records := rfl
@[simp] theorem State.hostWrite_wordStores (s : State) (f : Fn) (a : Nat) (b : List Byte) : (s.hostWrite f a b).wordStores = s.wordStores := rfl
@[simp] theorem State.hostWrite_commits (s : State) (f : Fn) (a : Nat) (b : List Byte) : (s.hostWrite f a b).commits = s.commits := rfl
@[simp] theorem State.hostWrite_comps (s : State) (f : Fn) (a : Nat) (b : List Byte) : (s.hostWrite f a b).comps = s.comps := rfl
@[simp] theorem State.hostWrite_quench (s : State) (f : Fn) (a : Nat) (b : List Byte) : (s.hostWrite f a b).quench = s.quench := rfl
@[simp] theorem State.hostWrite_watch (s : State) (f : Fn) (a : Nat) (b : List Byte) : (s.hostWrite f a b).watch = s.watch := rfl
@[simp] theorem State.hostWrite_power (s : State) (f : Fn) (a : Nat) (b : List Byte) : (s.hostWrite f a b).power = s.power := rfl
@[simp] theorem State.hostWrite_dawn (s : State) (f : Fn) (a : Nat) (b : List Byte) : (s.hostWrite f a b).dawn = s.dawn := rfl
@[simp] theorem State.hostWrite_host (s : State) (f : Fn) (a : Nat) (b : List Byte) : (s.hostWrite f a b).host = s.host := rfl
@[simp] theorem State.hostWrite_resv (s : State) (f : Fn) (a : Nat) (b : List Byte) : (s.hostWrite f a b).resv = s.resv := rfl
@[simp] theorem State.hostWrite_baseKeys (s : State) (f : Fn) (a : Nat) (b : List Byte) : (s.hostWrite f a b).baseKeys = s.baseKeys := rfl
@[simp] theorem State.hostWrite_transport (s : State) (f : Fn) (a : Nat) (b : List Byte) : (s.hostWrite f a b).transport = s.transport := rfl
@[simp] theorem State.hostWrite_bases (s : State) (f : Fn) (a : Nat) (b : List Byte) : (s.hostWrite f a b).bases = s.bases := rfl
@[simp] theorem State.hostWrite_link (s : State) (f : Fn) (a : Nat) (b : List Byte) : (s.hostWrite f a b).link = s.link := rfl
@[simp] theorem State.hostWrite_works (s : State) (f : Fn) (a : Nat) (b : List Byte) : (s.hostWrite f a b).works = s.works := rfl
@[simp] theorem State.hostWrite_anvils (s : State) (f : Fn) (a : Nat) (b : List Byte) : (s.hostWrite f a b).anvils = s.anvils := rfl
@[simp] theorem State.hostWrite_tongs (s : State) (f : Fn) (a : Nat) (b : List Byte) : (s.hostWrite f a b).tongs = s.tongs := rfl
@[simp] theorem State.hostWrite_fresh (s : State) (f : Fn) (a : Nat) (b : List Byte) : (s.hostWrite f a b).fresh = s.fresh := rfl
@[simp] theorem State.hostWrite_sram (s : State) (f : Fn) (a : Nat) (b : List Byte) : (s.hostWrite f a b).sram = s.sram := rfl
@[simp] theorem State.hostWrite_act (s : State) (f : Fn) (a : Nat) (b : List Byte) : (s.hostWrite f a b).act = s.act := rfl

@[simp] theorem State.record_pending (s : State) (f : Fn) (a : Nat) (b : List Byte) : (s.record f a b).pending = s.pending := rfl
@[simp] theorem State.record_free (s : State) (f : Fn) (a : Nat) (b : List Byte) : (s.record f a b).free = s.free := rfl
@[simp] theorem State.record_hostMem (s : State) (f : Fn) (a : Nat) (b : List Byte) : (s.record f a b).hostMem = s.hostMem := rfl
@[simp] theorem State.record_stroke (s : State) (f : Fn) (a : Nat) (b : List Byte) : (s.record f a b).stroke = s.stroke := rfl
@[simp] theorem State.record_fns (s : State) (f : Fn) (a : Nat) (b : List Byte) : (s.record f a b).fns = s.fns := rfl
@[simp] theorem State.record_queue (s : State) (f : Fn) (a : Nat) (b : List Byte) : (s.record f a b).queue = s.queue := rfl
@[simp] theorem State.record_replies (s : State) (f : Fn) (a : Nat) (b : List Byte) : (s.record f a b).replies = s.replies := rfl
@[simp] theorem State.record_records (s : State) (f : Fn) (a : Nat) (b : List Byte) : (s.record f a b).records = s.records ++ [{ fn := f, addr := a, bytes := b }] := rfl
@[simp] theorem State.record_wordStores (s : State) (f : Fn) (a : Nat) (b : List Byte) : (s.record f a b).wordStores = s.wordStores := rfl
@[simp] theorem State.record_commits (s : State) (f : Fn) (a : Nat) (b : List Byte) : (s.record f a b).commits = s.commits := rfl
@[simp] theorem State.record_comps (s : State) (f : Fn) (a : Nat) (b : List Byte) : (s.record f a b).comps = s.comps := rfl
@[simp] theorem State.record_quench (s : State) (f : Fn) (a : Nat) (b : List Byte) : (s.record f a b).quench = s.quench := rfl
@[simp] theorem State.record_watch (s : State) (f : Fn) (a : Nat) (b : List Byte) : (s.record f a b).watch = s.watch := rfl
@[simp] theorem State.record_power (s : State) (f : Fn) (a : Nat) (b : List Byte) : (s.record f a b).power = s.power := rfl
@[simp] theorem State.record_dawn (s : State) (f : Fn) (a : Nat) (b : List Byte) : (s.record f a b).dawn = s.dawn := rfl
@[simp] theorem State.record_host (s : State) (f : Fn) (a : Nat) (b : List Byte) : (s.record f a b).host = s.host := rfl
@[simp] theorem State.record_resv (s : State) (f : Fn) (a : Nat) (b : List Byte) : (s.record f a b).resv = s.resv := rfl
@[simp] theorem State.record_baseKeys (s : State) (f : Fn) (a : Nat) (b : List Byte) : (s.record f a b).baseKeys = s.baseKeys := rfl
@[simp] theorem State.record_transport (s : State) (f : Fn) (a : Nat) (b : List Byte) : (s.record f a b).transport = s.transport := rfl
@[simp] theorem State.record_bases (s : State) (f : Fn) (a : Nat) (b : List Byte) : (s.record f a b).bases = s.bases := rfl
@[simp] theorem State.record_link (s : State) (f : Fn) (a : Nat) (b : List Byte) : (s.record f a b).link = s.link := rfl
@[simp] theorem State.record_works (s : State) (f : Fn) (a : Nat) (b : List Byte) : (s.record f a b).works = s.works := rfl
@[simp] theorem State.record_anvils (s : State) (f : Fn) (a : Nat) (b : List Byte) : (s.record f a b).anvils = s.anvils := rfl
@[simp] theorem State.record_tongs (s : State) (f : Fn) (a : Nat) (b : List Byte) : (s.record f a b).tongs = s.tongs := rfl
@[simp] theorem State.record_fresh (s : State) (f : Fn) (a : Nat) (b : List Byte) : (s.record f a b).fresh = s.fresh := rfl
@[simp] theorem State.record_sram (s : State) (f : Fn) (a : Nat) (b : List Byte) : (s.record f a b).sram = s.sram := rfl
@[simp] theorem State.record_act (s : State) (f : Fn) (a : Nat) (b : List Byte) : (s.record f a b).act = s.act := rfl

@[simp] theorem State.commit_pending (s : State) (c : Cmd) (w : Commit) : (s.commit c w).pending = s.pending := rfl
@[simp] theorem State.commit_free (s : State) (c : Cmd) (w : Commit) : (s.commit c w).free = s.free := rfl
@[simp] theorem State.commit_hostMem (s : State) (c : Cmd) (w : Commit) : (s.commit c w).hostMem = s.hostMem := rfl
@[simp] theorem State.commit_stroke (s : State) (c : Cmd) (w : Commit) : (s.commit c w).stroke = s.stroke := rfl
@[simp] theorem State.commit_fns (s : State) (c : Cmd) (w : Commit) : (s.commit c w).fns = s.fns := rfl
@[simp] theorem State.commit_queue (s : State) (c : Cmd) (w : Commit) : (s.commit c w).queue = s.queue := rfl
@[simp] theorem State.commit_replies (s : State) (c : Cmd) (w : Commit) : (s.commit c w).replies = s.replies := rfl
@[simp] theorem State.commit_records (s : State) (c : Cmd) (w : Commit) : (s.commit c w).records = s.records := rfl
@[simp] theorem State.commit_wordStores (s : State) (c : Cmd) (w : Commit) : (s.commit c w).wordStores = s.wordStores := rfl
@[simp] theorem State.commit_commits (s : State) (c : Cmd) (w : Commit) : (s.commit c w).commits = s.commits ++ [{ fn := c.fn, order := c.order, what := w }] := rfl
@[simp] theorem State.commit_comps (s : State) (c : Cmd) (w : Commit) : (s.commit c w).comps = s.comps := rfl
@[simp] theorem State.commit_quench (s : State) (c : Cmd) (w : Commit) : (s.commit c w).quench = s.quench := rfl
@[simp] theorem State.commit_watch (s : State) (c : Cmd) (w : Commit) : (s.commit c w).watch = s.watch := rfl
@[simp] theorem State.commit_power (s : State) (c : Cmd) (w : Commit) : (s.commit c w).power = s.power := rfl
@[simp] theorem State.commit_dawn (s : State) (c : Cmd) (w : Commit) : (s.commit c w).dawn = s.dawn := rfl
@[simp] theorem State.commit_host (s : State) (c : Cmd) (w : Commit) : (s.commit c w).host = s.host := rfl
@[simp] theorem State.commit_resv (s : State) (c : Cmd) (w : Commit) : (s.commit c w).resv = s.resv := rfl
@[simp] theorem State.commit_baseKeys (s : State) (c : Cmd) (w : Commit) : (s.commit c w).baseKeys = s.baseKeys := rfl
@[simp] theorem State.commit_transport (s : State) (c : Cmd) (w : Commit) : (s.commit c w).transport = s.transport := rfl
@[simp] theorem State.commit_bases (s : State) (c : Cmd) (w : Commit) : (s.commit c w).bases = s.bases := rfl
@[simp] theorem State.commit_link (s : State) (c : Cmd) (w : Commit) : (s.commit c w).link = s.link := rfl
@[simp] theorem State.commit_works (s : State) (c : Cmd) (w : Commit) : (s.commit c w).works = s.works := rfl
@[simp] theorem State.commit_anvils (s : State) (c : Cmd) (w : Commit) : (s.commit c w).anvils = s.anvils := rfl
@[simp] theorem State.commit_tongs (s : State) (c : Cmd) (w : Commit) : (s.commit c w).tongs = s.tongs := rfl
@[simp] theorem State.commit_fresh (s : State) (c : Cmd) (w : Commit) : (s.commit c w).fresh = s.fresh := rfl
@[simp] theorem State.commit_sram (s : State) (c : Cmd) (w : Commit) : (s.commit c w).sram = s.sram := rfl
@[simp] theorem State.commit_act (s : State) (c : Cmd) (w : Commit) : (s.commit c w).act = s.act := rfl

@[simp] theorem State.configChanged_pending (s : State) : (s.configChanged).pending = s.pending := rfl
@[simp] theorem State.configChanged_free (s : State) : (s.configChanged).free = s.free := rfl
@[simp] theorem State.configChanged_hostMem (s : State) : (s.configChanged).hostMem = s.hostMem := rfl
@[simp] theorem State.configChanged_fns (s : State) : (s.configChanged).fns = s.fns := rfl
@[simp] theorem State.configChanged_queue (s : State) : (s.configChanged).queue = s.queue := rfl
@[simp] theorem State.configChanged_replies (s : State) : (s.configChanged).replies = s.replies := rfl
@[simp] theorem State.configChanged_records (s : State) : (s.configChanged).records = s.records := rfl
@[simp] theorem State.configChanged_wordStores (s : State) : (s.configChanged).wordStores = s.wordStores := rfl
@[simp] theorem State.configChanged_commits (s : State) : (s.configChanged).commits = s.commits := rfl
@[simp] theorem State.configChanged_comps (s : State) : (s.configChanged).comps = s.comps := rfl
@[simp] theorem State.configChanged_quench (s : State) : (s.configChanged).quench = s.quench := rfl
@[simp] theorem State.configChanged_watch (s : State) : (s.configChanged).watch = s.watch := rfl
@[simp] theorem State.configChanged_power (s : State) : (s.configChanged).power = s.power := rfl
@[simp] theorem State.configChanged_dawn (s : State) : (s.configChanged).dawn = s.dawn := rfl
@[simp] theorem State.configChanged_host (s : State) : (s.configChanged).host = s.host := rfl
@[simp] theorem State.configChanged_resv (s : State) : (s.configChanged).resv = s.resv := rfl
@[simp] theorem State.configChanged_baseKeys (s : State) : (s.configChanged).baseKeys = s.baseKeys := rfl
@[simp] theorem State.configChanged_transport (s : State) : (s.configChanged).transport = s.transport := rfl
@[simp] theorem State.configChanged_bases (s : State) : (s.configChanged).bases = s.bases := rfl
@[simp] theorem State.configChanged_link (s : State) : (s.configChanged).link = s.link := rfl
@[simp] theorem State.configChanged_works (s : State) : (s.configChanged).works = s.works := rfl
@[simp] theorem State.configChanged_anvils (s : State) : (s.configChanged).anvils = s.anvils := rfl
@[simp] theorem State.configChanged_tongs (s : State) : (s.configChanged).tongs = s.tongs := rfl
@[simp] theorem State.configChanged_fresh (s : State) : (s.configChanged).fresh = s.fresh := rfl
@[simp] theorem State.configChanged_sram (s : State) : (s.configChanged).sram = s.sram := rfl
@[simp] theorem State.configChanged_act (s : State) : (s.configChanged).act = s.act := rfl

@[simp] theorem State.withPending_pending (s : State) (l : List Instr) : (s.withPending l).pending = l := rfl
@[simp] theorem State.withPending_free (s : State) (l : List Instr) : (s.withPending l).free = s.free := rfl
@[simp] theorem State.withPending_hostMem (s : State) (l : List Instr) : (s.withPending l).hostMem = s.hostMem := rfl
@[simp] theorem State.withPending_stroke (s : State) (l : List Instr) : (s.withPending l).stroke = s.stroke := rfl
@[simp] theorem State.withPending_fns (s : State) (l : List Instr) : (s.withPending l).fns = s.fns := rfl
@[simp] theorem State.withPending_queue (s : State) (l : List Instr) : (s.withPending l).queue = s.queue := rfl
@[simp] theorem State.withPending_replies (s : State) (l : List Instr) : (s.withPending l).replies = s.replies := rfl
@[simp] theorem State.withPending_records (s : State) (l : List Instr) : (s.withPending l).records = s.records := rfl
@[simp] theorem State.withPending_wordStores (s : State) (l : List Instr) : (s.withPending l).wordStores = s.wordStores := rfl
@[simp] theorem State.withPending_commits (s : State) (l : List Instr) : (s.withPending l).commits = s.commits := rfl
@[simp] theorem State.withPending_comps (s : State) (l : List Instr) : (s.withPending l).comps = s.comps := rfl
@[simp] theorem State.withPending_quench (s : State) (l : List Instr) : (s.withPending l).quench = s.quench := rfl
@[simp] theorem State.withPending_watch (s : State) (l : List Instr) : (s.withPending l).watch = s.watch := rfl
@[simp] theorem State.withPending_power (s : State) (l : List Instr) : (s.withPending l).power = s.power := rfl
@[simp] theorem State.withPending_dawn (s : State) (l : List Instr) : (s.withPending l).dawn = s.dawn := rfl
@[simp] theorem State.withPending_host (s : State) (l : List Instr) : (s.withPending l).host = s.host := rfl
@[simp] theorem State.withPending_resv (s : State) (l : List Instr) : (s.withPending l).resv = s.resv := rfl
@[simp] theorem State.withPending_baseKeys (s : State) (l : List Instr) : (s.withPending l).baseKeys = s.baseKeys := rfl
@[simp] theorem State.withPending_transport (s : State) (l : List Instr) : (s.withPending l).transport = s.transport := rfl
@[simp] theorem State.withPending_bases (s : State) (l : List Instr) : (s.withPending l).bases = s.bases := rfl
@[simp] theorem State.withPending_link (s : State) (l : List Instr) : (s.withPending l).link = s.link := rfl
@[simp] theorem State.withPending_works (s : State) (l : List Instr) : (s.withPending l).works = s.works := rfl
@[simp] theorem State.withPending_anvils (s : State) (l : List Instr) : (s.withPending l).anvils = s.anvils := rfl
@[simp] theorem State.withPending_tongs (s : State) (l : List Instr) : (s.withPending l).tongs = s.tongs := rfl
@[simp] theorem State.withPending_fresh (s : State) (l : List Instr) : (s.withPending l).fresh = s.fresh := rfl
@[simp] theorem State.withPending_sram (s : State) (l : List Instr) : (s.withPending l).sram = s.sram := rfl
@[simp] theorem State.withPending_act (s : State) (l : List Instr) : (s.withPending l).act = s.act := rfl

@[simp] theorem State.draw_pending (s : State) : s.draw.2.pending = s.pending := rfl
@[simp] theorem State.draw_hostMem (s : State) : s.draw.2.hostMem = s.hostMem := rfl
@[simp] theorem State.draw_stroke (s : State) : s.draw.2.stroke = s.stroke := rfl
@[simp] theorem State.draw_fns (s : State) : s.draw.2.fns = s.fns := rfl
@[simp] theorem State.draw_queue (s : State) : s.draw.2.queue = s.queue := rfl
@[simp] theorem State.draw_replies (s : State) : s.draw.2.replies = s.replies := rfl
@[simp] theorem State.draw_records (s : State) : s.draw.2.records = s.records := rfl
@[simp] theorem State.draw_wordStores (s : State) : s.draw.2.wordStores = s.wordStores := rfl
@[simp] theorem State.draw_commits (s : State) : s.draw.2.commits = s.commits := rfl
@[simp] theorem State.draw_comps (s : State) : s.draw.2.comps = s.comps := rfl
@[simp] theorem State.draw_quench (s : State) : s.draw.2.quench = s.quench := rfl
@[simp] theorem State.draw_watch (s : State) : s.draw.2.watch = s.watch := rfl
@[simp] theorem State.draw_power (s : State) : s.draw.2.power = s.power := rfl
@[simp] theorem State.draw_dawn (s : State) : s.draw.2.dawn = s.dawn := rfl
@[simp] theorem State.draw_host (s : State) : s.draw.2.host = s.host := rfl
@[simp] theorem State.draw_resv (s : State) : s.draw.2.resv = s.resv := rfl
@[simp] theorem State.draw_baseKeys (s : State) : s.draw.2.baseKeys = s.baseKeys := rfl
@[simp] theorem State.draw_transport (s : State) : s.draw.2.transport = s.transport := rfl
@[simp] theorem State.draw_bases (s : State) : s.draw.2.bases = s.bases := rfl
@[simp] theorem State.draw_link (s : State) : s.draw.2.link = s.link := rfl
@[simp] theorem State.draw_works (s : State) : s.draw.2.works = s.works := rfl
@[simp] theorem State.draw_anvils (s : State) : s.draw.2.anvils = s.anvils := rfl
@[simp] theorem State.draw_tongs (s : State) : s.draw.2.tongs = s.tongs := rfl
@[simp] theorem State.draw_fresh (s : State) : s.draw.2.fresh = s.fresh := rfl
@[simp] theorem State.draw_sram (s : State) : s.draw.2.sram = s.sram := rfl
@[simp] theorem State.draw_act (s : State) : s.draw.2.act = s.act := rfl
@[simp] theorem State.draw_free (s : State) : s.draw.2.free = s.free + 1 := rfl

end Sys2Proof.Machine
end

