-- ==== Sys2Proof/WellFormed.lean ====
section
/-! DEFINITION. Well-formed commands: every operand lies in the range the spec gives it. The step does not need it: each
meaning is total and checks what the spec has it check. -/

namespace Sys2Proof

/-- A number of at most `w` bits. -/
def fits (w n : Nat) : Bool := decide (n < 2 ^ w)

/-- A compartment 0-63 (01 Table 1.2). -/
def compOk (k : Nat) : Bool := decide (k < 64)

/-- A function: virtual functions belong to compartments 0-63 (14 R517). -/
def Fn.wf : Fn → Bool
  | .pf => true
  | .vf k => compOk k

/-- A submission ring 0-3 (03 Table 3.1). -/
def ringOk (n : Nat) : Bool := decide (n < 4)

/-- The ring a register write names. -/
def RingName.wf : RingName → Bool
  | .sq n => ringOk n
  | .rq => true
  | .eq => true

/-- A packet command: the widths of 03 Table 3.3 and a block of at most 1 MiB. -/
def Cmd.wf (c : Cmd) : Bool :=
  c.fn.wf && ringOk c.ring && fits 48 c.seq && fits 32 c.tag && fits 64 c.cookie && fits 16 c.flags && fits 32 c.stream
    && fits 64 c.order && fits 64 c.stroke && decide (c.block.length ≤ 1048576)

/-- A port 0-15 (13 Table 13.1). -/
def portOk (p : Nat) : Bool := decide (p < 16)

/-- A sensor channel 0-255 (16 Table 16.1). -/
def channelOk (ch : Nat) : Bool := fits 8 ch

/-- A rule index of at most 1,024 rules (16 Table 16.2). -/
def ruleOk (i : Nat) : Bool := decide (i < 1024)

/-- One sample or its absence for each of the 256 channels (16 R566). -/
def samplesOk (l : List (Option Int)) : Bool := decide (l.length = 256)

/-- A flit of 256 bytes (13 R476). -/
def flitOk (l : List Byte) : Bool := decide (l.length = 256)

/-- Lanes 0-7, each once, rising (13 R475). -/
def lanesOk (l : List Nat) : Bool := l.all (fun n => decide (n < 8)) && decide (l.Pairwise (· < ·))

/-- A NODE_ID 0-8,191 (13 R491). -/
def nodeOk (n : Nat) : Bool := fits 13 n

/-- A member of a connected set (13 R491). -/
def memberOk (m : Machine.Member) : Bool := nodeOk m.node && fits 64 m.incarnation && fits 8 m.priority

/-- TARGET of a training state: 0 or 2 (09 R345). -/
def targetOk (t : Nat) : Bool := t == 0 || t == 2

/-- A nonce of 32 bytes (14 R527). -/
def nonceOk (l : List Byte) : Bool := decide (l.length = 32)

/-- A register access of 4 or 8 bytes (19 R654). -/
def widthOk (w : Nat) : Bool := w == 4 || w == 8

/-- A quantum: the command's admission order, its cuts, each at one of the 640 Anvils (05 R161), and the tiles that it names. -/
def RunItem.wf (x : RunItem) : Bool :=
  fits 64 x.order && (x.reach.all fun r => decide (r.anvil < 640))
    && (x.fetch ++ x.spoilt).all fun p => fits 64 p.1 && fits 32 p.2

/-- Bytes stored at a 64-bit address. -/
def HostStore.wf (x : HostStore) : Bool := decide (x.addr + x.bytes.length ≤ 2 ^ 64)

/-- A peer request (13 R498). -/
def PeerReq.wf (q : PeerReq) : Bool := nodeOk q.node && compOk q.comp && fits 8 q.epoch && fits 64 q.tensorId && fits 32 q.tile

/-- What a Dawn meets: fuse copies of 8 bits (11 R438). -/
def DawnIn.wf (d : DawnIn) : Bool :=
  fits 8 d.fuseA && fits 8 d.fuseB && (d.stop.all fun p => 1 ≤ p.1 && p.1 ≤ 7) && d.supply ≤ 4 && d.thermal ≤ 4

/-- What IDENTIFY shows: members and periods in range (13 R486; 02 R38). -/
def IdentMsg.wf (m : IdentMsg) : Bool := memberOk m.peer && fits 64 m.stroke && fits 16 m.period && m.members.all memberOk

/-- A TIMING record (13 R493). -/
def TimingRec.wf (r : TimingRec) : Bool := fits 64 r.stroke && nodeOk r.refNode

/-- Every operand of a command is within its range. -/
def Instr.wf : Instr → Bool
  | .strokeBoundary refPeriod => fits 16 refPeriod
  | .intakePhase readFail => readFail.all Fn.wf
  | .depHoldLimit f ring => f.wf && ringOk ring
  | .planPhase => true
  | .slotWaitLimit order => fits 64 order
  | .runStart k fin => compOk k && fin.all RunItem.wf
  | .guardInterval k cut _ => compOk k && cut.all RunItem.wf
  | .quantumDone lender borrower fin _ => compOk lender && compOk borrower && fin.all RunItem.wf
  | .settlePhase => true
  | .reportPhase _ writeFail => writeFail.all Fn.wf
  | .budgetPeriod => true
  | .drainLimit => true
  | .deferLimitExpiry order => fits 64 order
  | .strokeJoin refStroke refPeriod => fits 64 refStroke && fits 16 refPeriod
  | .forgeWindowEnd k => compOk k
  | .forgeCommit k v _ => compOk k && fits 16 v
  | .coldPageMove k stream layer page => compOk k && fits 32 stream && fits 16 layer && fits 32 page
  | .variantSwitch k v => compOk k && fits 16 v
  | .hearthRowClearDone k => compOk k
  | .tenantChangeDone k => compOk k
  | .hbmZeroingDone k => decide (k ≤ 66)
  | .deviceHearthClearDone => true
  | .hostReadCompletion order _ => fits 64 order
  | .completionTimeout order => fits 64 order
  | .levelRise _ _ _ => true
  | .levelFall _ _ _ => true
  | .thermalTrip ch _ => channelOk ch
  | .nightExit _ _ _ => true
  | .burstStart => true
  | .burstEnd => true
  | .inputUndervoltage _ => true
  | .standbyPowerOn => true
  | .standbyPowerLoss => true
  | .resetAssert _ => true
  | .resetRelease _ => true
  | .dawnStart d => d.wf
  | .refclkLoss => true
  | .refclkRestore => true
  | .nightwatchTick samples => samplesOk samples
  | .sensorFault ch => channelOk ch
  | .ruleAssert idx => ruleOk idx
  | .ruleClear idx => ruleOk idx
  | .tamper ch => channelOk ch
  | .entropyFault _ => true
  | .drbgReseed => true
  | .leaseRenewal _ count stroke _ => fits 64 count && fits 64 stroke
  | .leaseLapse => true
  | .doubleClaim _ count stroke => fits 64 count && fits 64 stroke
  | .leaseRegrant _ _ => true
  | .fenceRoundFail => true
  | .hostLinkTraining _ _ _ => true
  | .hostLinkDown => true
  | .functionLevelReset f => f.wf
  | .d3hotToD0 f => f.wf
  | .vfEnableClear => true
  | .ideInsecure stream _ => fits 8 stream
  | .doeAbort f => f.wf
  | .getVersion f => f.wf
  | .getCapabilities f _ => f.wf
  | .negotiateAlgorithms f _ => f.wf
  | .getDigests f => f.wf
  | .getCertificate f _ _ _ => f.wf
  | .challenge f _ _ => f.wf
  | .getMeasurements f _ _ _ => f.wf
  | .keyExchange f _ _ _ _ => f.wf
  | .finish f session _ _ _ => f.wf && fits 32 session
  | .pqFinish f session _ => f.wf && fits 32 session
  | .pqFinishTimeout f session => f.wf && fits 32 session
  | .getPqSignature f => f.wf
  | .getPqCert f _ _ => f.wf
  | .endSession f session => f.wf && fits 32 session
  | .heartbeat f session => f.wf && fits 32 session
  | .heartbeatMiss f session => f.wf && fits 32 session
  | .keyUpdate f session _ => f.wf && fits 32 session
  | .unsupportedSpdmRequest f _ => f.wf
  | .ideKmKeyProg f session block stream first last keySet => f.wf && fits 32 session && decide (block ≤ 64) && fits 8 stream && decide (first ≤ 64) && decide (last ≤ 64) && decide (keySet < 2)
  | .kSetGo f session stream keySet => f.wf && fits 32 session && fits 8 stream && decide (keySet < 2)
  | .lockInterfaceRequest f session k _ => f.wf && fits 32 session && compOk k
  | .startInterfaceRequest f session k nonce => f.wf && fits 32 session && compOk k && nonceOk nonce
  | .stopInterface f session k => f.wf && fits 32 session && compOk k
  | .tdiBind f session nonce => f.wf && fits 32 session && nonceOk nonce
  | .linkProbeBurst port => portOk port
  | .lightDetect port lanes => portOk port && decide (lanes ≤ 8)
  | .laneLock port lanes => portOk port && lanesOk lanes
  | .lockTimeout port => portOk port
  | .identifyMessage port m => portOk port && m.wf
  | .identifyTimeout port => portOk port
  | .alignTimeout port => portOk port
  | .linkTrainTimeout port => portOk port
  | .flitSlot port => portOk port
  | .flitReceive port flit _ _ => portOk port && flitOk flit
  | .retryLimit port => portOk port
  | .drainPoint port => portOk port
  | .messageReceive port _ => portOk port
  | .rekey port _ _ _ start => portOk port && fits 64 start
  | .keyEnd port => portOk port
  | .lossOfLight port => portOk port
  | .timingSend port _ => portOk port
  | .timingRecord port r _ => portOk port && r.wf
  | .referenceMissing => true
  | .membership port members ref => portOk port && members.all memberOk && nodeOk ref
  | .mreq k q => compOk k && q.wf
  | .mcpl k tensorId tile => compOk k && fits 64 tensorId && fits 32 tile.index
  | .peerTimeout order => fits 64 order
  | .peerRelease node comp epoch => nodeOk node && compOk comp && fits 8 epoch
  | .collDescriptor k g gen rank seq _ => compOk k && decide (g < 64) && fits 32 gen && decide (rank < 4096) && fits 64 seq
  | .collData k g gen rank seq _ => compOk k && decide (g < 64) && fits 32 gen && decide (rank < 4096) && fits 64 seq
  | .collReady k g gen rank seq => compOk k && decide (g < 64) && fits 32 gen && decide (rank < 4096) && fits 64 seq
  | .collCommit k g gen seq x => compOk k && decide (g < 64) && fits 32 gen && fits 64 seq && fits 64 x
  | .collAbandon k g gen seq _ => compOk k && decide (g < 64) && fits 32 gen && fits 64 seq
  | .collTimeout k g => compOk k && decide (g < 64)
  | .collGroupTimeout k g => compOk k && decide (g < 64)
  | .trainContribution k v target gen _ => compOk k && fits 16 v && targetOk target && fits 32 gen
  | .stepClose k v target => compOk k && fits 16 v && targetOk target
  | .laggedMark k v target replica => compOk k && fits 16 v && targetOk target && fits 16 replica
  | .trainUpdateMessage k v target gen _ => compOk k && fits 16 v && targetOk target && fits 32 gen
  | .trainUpdateApply k v target => compOk k && fits 16 v && targetOk target
  | .partsTransfer k v target gen _ => compOk k && fits 16 v && targetOk target && fits 32 gen
  | .groupJoin k v target _ => compOk k && fits 16 v && targetOk target
  | .trainTimeout order => fits 64 order
  | .sqTail f _ ring tail stores => f.wf && ringOk ring && fits 32 tail && stores.all HostStore.wf
  | .rqHead f _ head => f.wf && fits 32 head
  | .eqHead head => fits 32 head
  | .ringCtrlWrite f _ r value => f.wf && r.wf && fits 32 value
  | .ringGeometryWrite f _ r _ value => f.wf && r.wf && fits 64 value
  | .intStatus f _ value => f.wf && fits 32 value
  | .intMask f _ value => f.wf && fits 32 value
  | .registerWrite f _ offset width value => f.wf && fits 24 offset && widthOk width && fits (8 * width) value
  | .alarmSlot value => fits 16 value
  | .alarmWindow _ _ => true
  | .summary _ => true
  | .eventFifo _ => true
  | .alarmAck _ => true
  | .wake _ => true
  | .entdaa addr => fits 7 addr
  | .setdasa addr => fits 7 addr
  | .diagnosticCommand c => c.wf
  | .deviceQuery c => c.wf
  | .strokeQuery c => c.wf
  | .strokeConfig c => c.wf
  | .sliceSet c => c.wf
  | .sliceQuery c => c.wf
  | .lendGroup c => c.wf
  | .lendConsent c => c.wf
  | .strokeWait c => c.wf
  | .fenceSc c => c.wf
  | .wordStore c => c.wf
  | .wordLoad c => c.wf
  | .compCreate c => c.wf
  | .compDestroy c => c.wf
  | .compQuench c => c.wf
  | .tenantChange c => c.wf
  | .compQuery c => c.wf
  | .farClear c => c.wf
  | .deviceQuench c => c.wf
  | .certRead c => c.wf
  | .attestReport c => c.wf
  | .sessionQuery c => c.wf
  | .tenantClaim c => c.wf
  | .keyDeliver c => c.wf
  | .keyQuery c => c.wf
  | .keyPolicy c => c.wf
  | .keyRotate c => c.wf
  | .keyDestroy c => c.wf
  | .lifecycleAdvance c => c.wf
  | .memConfig c => c.wf
  | .tensorCreate c => c.wf
  | .bufferCreate c => c.wf
  | .memFree c => c.wf
  | .memQuery c => c.wf
  | .tensorPlace c => c.wf
  | .tensorImport c => c.wf
  | .tensorExport c => c.wf
  | .matmul c => c.wf
  | .conv c => c.wf
  | .scan c => c.wf
  | .moeRoute c => c.wf
  | .moeMatmul c => c.wf
  | .engineQuery c => c.wf
  | .numericConfig c => c.wf
  | .numericQuery c => c.wf
  | .scaleHistSet c => c.wf
  | .scaleHistRead c => c.wf
  | .streamOpen c => c.wf
  | .streamClose c => c.wf
  | .streamQuery c => c.wf
  | .kvAppend c => c.wf
  | .kvTruncate c => c.wf
  | .mixQuery c => c.wf
  | .attend c => c.wf
  | .attendMat c => c.wf
  | .linmix c => c.wf
  | .baseLoad c => c.wf
  | .baseUnload c => c.wf
  | .baseQuery c => c.wf
  | .baseAttach c => c.wf
  | .baseDetach c => c.wf
  | .servePolicy c => c.wf
  | .variantRegister c => c.wf
  | .variantLoad c => c.wf
  | .variantReside c => c.wf
  | .variantPark c => c.wf
  | .variantSwap c => c.wf
  | .variantMode c => c.wf
  | .variantRebase c => c.wf
  | .variantCutover c => c.wf
  | .variantUnregister c => c.wf
  | .variantQuery c => c.wf
  | .variantMatmul c => c.wf
  | .trainOpen c => c.wf
  | .trainClose c => c.wf
  | .trainConfig c => c.wf
  | .trainQuery c => c.wf
  | .feedbackSubmit c => c.wf
  | .feedbackTake c => c.wf
  | .trainStep c => c.wf
  | .trainCheckpoint c => c.wf
  | .trainPublish c => c.wf
  | .trainExport c => c.wf
  | .trainImport c => c.wf
  | .linkConfig c => c.wf
  | .linkEnable c => c.wf
  | .linkQuery c => c.wf
  | .cellSet c => c.wf
  | .routeSet c => c.wf
  | .spanSet c => c.wf
  | .collGroup c => c.wf
  | .collRun c => c.wf
  | .collQuery c => c.wf
  | .randGen c => c.wf
  | .randQuery c => c.wf
  | .powerSet c => c.wf
  | .powerQuery c => c.wf
  | .powerPin c => c.wf
  | .telemRead c => c.wf
  | .logConfig c => c.wf
  | .traceConfig c => c.wf
  | .alarmRead c => c.wf
  | .alarmAckCommand c => c.wf
  | .logQuery c => c.wf
  | .fwStage c => c.wf
  | .fwActivate c => c.wf
  | .fwCommit c => c.wf
  | .fwQuery c => c.wf
  | .unassignedUnits fin => fin.all RunItem.wf
  | .d0ToD3hot f => f.wf
  | .vfEnableSet numVfs => decide (numVfs ≤ 64)
  | .doeError f _ => f.wf

end Sys2Proof
end

