-- ==== Sys2Proof/Tests/Slice0.lean ====
section
/-! SUPPORT. Tests: ill-formed commands that WellFormed refuses, single steps against values worked from the spec by hand, and
for every statement a state and operands that meet its hypotheses. -/

set_option Elab.async false

namespace Sys2Proof.Tests

open Sys2Proof.Machine

/-! ### Small states -/

/-- Bytes of (width, value) pairs, little-endian. -/
def le (l : List (Nat × Nat)) : List Byte := l.flatMap fun p => leBytes p.2 p.1

/-- A packet command with a block. -/
def tc (f : Fn) (b : List Byte) : Cmd :=
  { fn := f, ring := 0, seq := 0, tag := 65536, cookie := 7, flags := 0, stream := 0, order := 5, stroke := 10, block := b }

/-- An EXCLUSIVE tensor of FP32 elements in Hearth. -/
def tT (id r c : Nat) : Tensor := { id, fmt := 0, axis := 0, home := 0, cache := 0, rows := r, cols := c }

/-- A key made by the device. -/
def tKey (kind : Nat) : KeyEntry := { kind, keyId := kind, sealerBase := 1, gens := [] }

/-- An active compartment with three 1 × 1 tensors. -/
def tX : Comp :=
  { st := .active, hearthUnits := 1, hbmGib := 1, tagQuota := 64, tagBase := 256, streamQuota := 8, domainQuota := 8, residentQuota := 2,
    keyQuota := 8, slice := { first := 0, count := 16, openFill := false }, compKey := some (tKey 1), hearthKey := some [],
    tensors := [(0x1000, tT 1 1 1), (0x2000, tT 2 1 1), (0x3000, tT 3 1 1)] }

/-- A state at stroke 10 with compartments 0 and 1. -/
def tS : State :=
  { State.reset with
    stroke := { State.reset.stroke with number := 10 }
    comps := [(0, tX), (1, { tX with slice := { first := 16, count := 16 }, tagBase := 320 })] }

/-- The state with another compartment 0. -/
def tS0 (x : Comp) : State := { tS with comps := [(0, x), (1, tX)] }

/-- The status and DETAIL that a command's work answers; the last three stand for a command that waits or has quanta left. -/
def ends (r : Chk Fin) : Nat × Nat :=
  match r with
  | .ok (.done _ st d) => (st.code, d)
  | .ok (.wait _) => (0x10000, 0)
  | .ok (.space _) => (0x10001, 0)
  | .ok (.part _) => (0x10002, 0)
  | .error e => (e.st.code, e.detail)

/-- What a step leaves, if it answers a next state. -/
def nextOf (o : Host.Outcome State Fault Refusal) : State :=
  match o with
  | .next s => s
  | _ => State.reset

/-! ### Witnesses: packet commands in general -/

/-- The state with no HBM awaiting zeroing. -/
def tZ : State := { tS with quench := { tS.quench with hbmAwaiting := [] } }

/-- COMP.CREATE of the lowest free compartment with a record. -/
def tCreate : Cmd := tc .pf (le [(1, 0xFF), (1, 0), (2, 1), (2, 1), (2, 16), (2, 4), (2, 1), (4, 8), (2, 2), (6, 0), (8, 0x40)])

theorem wit_PacketCommandEndsAsItsWorkEnds :
    (packetOf (.strokeWait (tc (.vf 0) (le [(8, 9)]))) = some (0x0008, tc (.vf 0) (le [(8, 9)])) ∧ tS.admits 0x0008 (tc (.vf 0) (le [(8, 9)])) ∧
      ends (opBody 0x0008 (tc (.vf 0) (le [(8, 9)])) tS) = (1, 0)) ∧
    (tS.admits 0x0008 (tc (.vf 0) []) ∧ ends (opBody 0x0008 (tc (.vf 0) []) tS) = (0x11, 0)) ∧
    (tS.admits 0x0008 (tc (.vf 0) (le [(8, 11)])) ∧ ends (opBody 0x0008 (tc (.vf 0) (le [(8, 11)])) tS) = (0x10000, 0)) := by decide +kernel

theorem wit_PacketCommandStoppedBeforeItsChecks :
    (tS.serving = true ∧ gate 0x0101 (.vf 0) tS = some .notPermitted ∧ gate 0x0008 (.vf 2) tS = some .noResource) ∧
    (({ tS with dawn := { tS.dawn with holder := none } } : State).serving = false) ∧
    gate 0x0401 (.vf 0) (tS0 { tX with unkeyed := true }) = some .entropyFault := by decide +kernel

theorem wit_PacketCommandLeavesTheRestAlone :
    movesHost 0x0008 = false ∧ tS.act = {} ∧ ∃ t, exec (.strokeWait (tc (.vf 0) [])) tS = .next t := ⟨rfl, rfl, _, rfl⟩

theorem wit_FailedCheckCommitsNothing :
    tS.admits 0x0008 (tc (.vf 0) []) ∧ opBody 0x0008 (tc (.vf 0) []) tS = .error ⟨.badParam, 0⟩ := ⟨by decide +kernel, rfl⟩

theorem wit_StatusLowByteTellsSuccess : succeeded 0x000F = true ∧ succeeded 0x0010 = false ∧ succeeded 0x0200 = true := by decide +kernel

/-! ### Witnesses: strokes and dataflow -/

theorem wit_StrokeConfigRefusesBadPeriod :
    (tS.admits 0x0003 (tc .pf (le [(8, 14), (2, 9), (6, 0)])) ∧ u16 (tc .pf (le [(8, 14), (2, 9), (6, 0)])).block 8 = 9) ∧
    (tS.admits 0x0003 (tc .pf (le [(8, 14), (2, 101), (6, 0)])) ∧ u16 (tc .pf (le [(8, 14), (2, 101), (6, 0)])).block 8 = 101) ∧
    let b := le [(8, 14), (2, 10), (1, 1), (5, 0)]
    tS.admits 0x0003 (tc .pf b) ∧ b.length = 16 ∧ tS.stroke.number + 4 ≤ u64 b 0 ∧ u64 b 0 ≤ tS.stroke.number + 65536 ∧ 10 ≤ u16 b 8 ∧
      u16 b 8 ≤ 100 ∧ u8 b 10 ≤ 1 ∧ zeroAt b 11 5 = true := by decide +kernel

theorem wit_SliceSetIsPendingForTwoStrokes :
    (let b := le [(1, 1), (1, 1), (2, 252), (2, 4), (2, 0)]
     tS.admits 0x0004 (tc .pf b) ∧ b.length = 8 ∧ u8 b 1 ≤ 1 ∧ u16 b 2 ≤ 255 ∧ u16 b 4 = 4 ∧ u16 b 2 + u16 b 4 ≤ 256 ∧ zeroAt b 6 2 = true ∧
      tS.exists_ 1 = true ∧ ∀ j < 64, j ≠ 1 → tS.exists_ j = true →
        runsOverlap { first := 252, count := 4, openFill := true } (tS.layoutSlice j) = false) ∧
    (let b := le [(1, 1), (1, 0), (2, 0), (2, 0), (2, 0)]
     tS.admits 0x0004 (tc .pf b) ∧ u16 b 4 = 0 ∧ ∀ j < 64, j ≠ 1 → tS.exists_ j = true → runsOverlap { first := 0, count := 0 } (tS.layoutSlice j) = false) ∧
    (let b := le [(1, 1), (1, 0), (2, 0), (2, 3), (2, 0)]; tS.admits 0x0004 (tc .pf b) ∧ 1 ≤ u16 b 4 ∧ u16 b 4 ≤ 3) ∧
    (let b := le [(1, 1), (1, 0), (2, 253), (2, 4), (2, 0)]; tS.admits 0x0004 (tc .pf b) ∧ 257 ≤ u16 b 2 + u16 b 4) ∧
    (let b := le [(1, 2), (1, 0), (2, 32), (2, 4), (2, 0)]; tS.admits 0x0004 (tc .pf b) ∧ tS.exists_ (u8 b 0) = false) ∧
    let b := le [(1, 1), (1, 0), (2, 15), (2, 4), (2, 0)]
    tS.admits 0x0004 (tc .pf b) ∧ ∃ j < 64, j ≠ 1 ∧ tS.exists_ j = true ∧ runsOverlap { first := 15, count := 4 } (tS.layoutSlice j) = true := by
  decide +kernel

theorem wit_StrokeQueriesRecordTheState :
    (let b := le [(8, 64)]; tS.admits 0x0001 (tc .pf b) ∧ tS.admits 0x0002 (tc (.vf 0) b) ∧ b.length = 8 ∧ u64 b 0 % 64 = 0) ∧
    (let b := le [(8, 63), (8, 0)]
     tS.admits 0x0005 (tc .pf b) ∧ b.length = 16 ∧ u8 b 0 < 64 ∧ zeroAt b 1 7 = true ∧ u64 b 8 % 64 = 0 ∧ tS.exists_ (u8 b 0) = false) ∧
    (let b := le [(8, 1), (8, 0)]
     tS.admits 0x0005 (tc (.vf 1) b) ∧ tS.admits 0x0005 (tc .pf b) ∧ b.length = 16 ∧ u8 b 0 = 1 ∧ zeroAt b 1 7 = true ∧
      tS.exists_ 1 = true ∧ tS.groupOf 1 = none) ∧
    (let b := le [(8, 1), (8, 0)]; tS.admits 0x0005 (tc (.vf 0) b) ∧ u8 b 0 ≠ 0) := by decide +kernel

/-- A lending group of compartments 0 and 1. -/
def tGroup : LendGroup := { members := 3, consents := [], active := false, dissolving := false }

/-- A session that has proved the tenant. -/
def tSess : Session :=
  { id := 9, established := true, mutualAuth := true, tenantAuth := true, secret := [], th2 := [1, 2], finishStroke := 0, beat := 0, reqUpdates := 0,
    rspUpdates := 0, blobSeq := 0 }

/-- The state with lending group 15 and a session of compartment 0. -/
def tSG : State :=
  ({ tS with stroke := { tS.stroke with groups := [(15, tGroup)] } } : State).setFn (.vf 0) { sessions := [tSess], spdmStage := 3 }

theorem wit_LendingGroupIsDefinedAndDissolved :
    (let b := le [(1, 15), (1, 0), (6, 0), (8, 3)]
     tS.admits 0x0006 (tc .pf b) ∧ b.length = 16 ∧ u8 b 0 ≤ 15 ∧ u8 b 1 = 0 ∧ zeroAt b 2 6 = true ∧ 2 ≤ popCount (u64 b 8) 64 ∧
      (∀ k ∈ bitList (u64 b 8) 64, tS.exists_ k = true ∧ tS.groupOf k = none) ∧ Tab.find? tS.stroke.groups 15 = none ∧
      tSG.admits 0x0006 (tc .pf b) ∧ (Tab.find? tSG.stroke.groups 15).isSome) ∧
    (let b := le [(1, 15), (1, 1), (6, 0), (8, 0)]
     tSG.admits 0x0006 (tc .pf b) ∧ b.length = 16 ∧ u8 b 1 = 1 ∧ zeroAt b 2 6 = true ∧ Tab.find? tSG.stroke.groups (u8 b 0) = some tGroup ∧
      tS.admits 0x0006 (tc .pf b) ∧ Tab.find? tS.stroke.groups (u8 b 0) = none) ∧
    (let b := le [(1, 15), (1, 0), (2, 0), (4, 9), (8, 3)]
     tSG.admits 0x0007 (tc (.vf 0) b) ∧ b.length = 16 ∧ u8 b 0 ≤ 15 ∧ u8 b 1 ≤ 1 ∧ zeroAt b 2 2 = true ∧
      Tab.find? tSG.stroke.groups (u8 b 0) = some tGroup ∧ u64 b 8 = tGroup.members ∧ bitOf tGroup.members 0 = true ∧
      tSG.session (.vf 0) (u32 b 4) = some tSess ∧ tSess.tenantAuth = true) ∧
    let b := le [(1, 15), (1, 0), (2, 0), (4, 8), (8, 3)]
    tSG.admits 0x0007 (tc (.vf 0) b) ∧ tSG.session (.vf 0) (u32 b 4) = none := by decide +kernel

theorem wit_StrokeWaitCompletesAtItsTarget :
    (let b := le [(8, 10)]; tS.admits 0x0008 { tc (.vf 0) b with stroke := 9 } ∧ b.length = 8 ∧ 9 < u64 b 0 ∧ u64 b 0 ≤ tS.stroke.number) ∧
    (let b := le [(8, 10)]; tS.admits 0x0008 (tc (.vf 0) b) ∧ u64 b 0 ≤ 10 ∧ u64 b 0 ≤ tS.stroke.number + 2 ^ 32) ∧
    (let b := le [(8, 10 + 2 ^ 32 + 1)]; tS.admits 0x0008 (tc (.vf 0) b) ∧ tS.stroke.number + 2 ^ 32 < u64 b 0) ∧
    let b := le [(8, 10 + 2 ^ 32)]; tS.admits 0x0008 (tc (.vf 0) b) ∧ tS.stroke.number < u64 b 0 ∧ u64 b 0 ≤ tS.stroke.number + 2 ^ 32 := by
  decide +kernel

/-- WORD.STORE of a word. -/
def tWs (ring i v : Nat) : Cmd := { tc (.vf 0) (le [(2, i), (6, 0), (8, v)]) with ring := ring }

/-- FENCE.SC. -/
def tFn (ring : Nat) : Cmd := { tc (.vf 0) (le [(8, 0)]) with ring := ring }

theorem wit_WordCommandsComplete :
    (tS.admits 0x000A (tWs 0 4095 1) ∧ tS.admits 0x000B (tWs 0 4095 64) ∧ (tWs 0 4095 64).block.length = 16 ∧ u16 (tWs 0 4095 64).block 0 ≤ 4095 ∧
      zeroAt (tWs 0 4095 64).block 2 6 = true ∧ u64 (tWs 0 4095 64).block 8 % 64 = 0) ∧
    (tS.admits 0x0009 (tFn 0) ∧ (tFn 0).block.length = 8 ∧ zeroAt (tFn 0).block 0 8 = true) ∧
    tS.admits 0x000A (tWs 0 4096 1) ∧ tS.admits 0x000B (tWs 0 4096 64) ∧ 4095 < u16 (tWs 0 4096 1).block 0 := by decide +kernel

theorem wit_SettledWordHoldsOneStore :
    let s : State := { tS with wordStores := [{ order := 5, comp := 0, index := 4095, value := 8, ring := 1, later := [6] },
      { order := 6, comp := 0, index := 4095, value := 9, ring := 1 }] }
    s.storesTo 0 4094 = [] ∧ ∃ w ∈ s.storesTo 0 4095, ∀ v ∈ s.storesTo 0 4095, v.order ∉ w.later := by decide +kernel

/-- The two-flag test in program order, queue 0 before queue 1. -/
def tLitmus : List Instr :=
  [.wordStore (tWs 0 0 1), .fenceSc (tFn 0), .wordLoad (tWs 0 1 64), .wordStore (tWs 1 1 1), .fenceSc (tFn 1), .wordLoad (tWs 1 0 128)]

theorem wit_FencedTwoFlagTestNeverReadsZeroTwice :
    (∀ c ∈ [tWs 0 0 1, tFn 0, tWs 0 1 64], c.fn = .vf 0 ∧ c.ring = 0) ∧ (∀ c ∈ [tWs 1 1 1, tFn 1, tWs 1 0 128], c.fn = .vf 0 ∧ c.ring = 1) ∧
    (∀ c ∈ [tWs 0 0 1, tWs 1 1 1, tWs 0 1 64, tWs 1 0 128], c.block.length = 16 ∧ zeroAt c.block 2 6 = true) ∧
    (∀ c ∈ [tFn 0, tFn 1], c.block.length = 8 ∧ zeroAt c.block 0 8 = true) ∧
    List.Sublist [.wordStore (tWs 0 0 1), .fenceSc (tFn 0), .wordLoad (tWs 0 1 64)] tLitmus ∧
    List.Sublist [.wordStore (tWs 1 1 1), .fenceSc (tFn 1), .wordLoad (tWs 1 0 128)] tLitmus ∧ tLitmus.length = 6 ∧
    (∀ op ∈ [0x0009, 0x000A, 0x000B], tS.admits op (tWs 0 0 1)) ∧ tS.wordStores = [] ∧ tS.records = [] ∧ Tab.get 0 (tS.comp 0).words 0 = 0 ∧
    Tab.get 0 (tS.comp 0).words 1 = 0 := by decide +kernel

theorem wit_litmus_runs : ∃ t, core.run 6 { tS with pending := tLitmus } = .next t := ⟨_, rfl⟩

/-! ### Witnesses: compartments -/

theorem wit_CompartmentCommandsRecordTheRequest :
    (let b := le [(8, 1)]
     b.length = 8 ∧ u8 b 0 < 64 ∧ mayName .pf 1 = true ∧ mayName (.vf 1) 1 = true ∧ zeroAt b 1 7 = true ∧ (tS.comp 1).st = .active ∧
      tS.admits 0x0102 (tc .pf b) ∧ tS.admits 0x0103 (tc (.vf 1) b) ∧ tS.admits 0x0104 (tc .pf b)) ∧
    (let b := le [(8, 63)]
     b.length = 8 ∧ mayName .pf (u8 b 0) = true ∧ (tS.comp 63).st = .absent ∧ tS.admits 0x0102 (tc .pf b) ∧ tS.admits 0x0103 (tc .pf b)) ∧
    (let b := le [(8, 64)]; mayName .pf (u8 b 0) = true ∧ 64 ≤ u8 b 0 ∧ tS.admits 0x0102 (tc .pf b)) ∧
    (let b := le [(4, 0x51554E43), (4, 0)]
     tS.admits 0x0107 (tc .pf b) ∧ b.length = 8 ∧ u32 b 0 = 0x51554E43 ∧ zeroAt b 4 4 = true) ∧
    let b := le [(4, 0x51554E42), (4, 0)]; tS.admits 0x0107 (tc .pf b) ∧ b.length = 8 ∧ u32 b 0 ≠ 0x51554E43 := by decide +kernel

theorem wit_CompCreateCommitsAtSettle : tZ.admits 0x0101 tCreate ∧ ends (opCompCreate tCreate tZ) = (0, 0) := by decide +kernel

/-- The commits of a command's work. -/
def commitsOf (r : Chk Fin) : List PendingCommit :=
  match r with
  | .ok (.done s _ _) => s.commits
  | _ => []

theorem wit_CreatedSharesNeverOverlap : (commitsOf (opCompCreate tCreate tZ)).map (fun p => match p.what with
    | .compActive k x _ => (p.order, k, x.tagBase, x.tagQuota, x.keyBase)
    | _ => (0, 0, 0, 0, 0)) = [(5, 2, 384, 16, 8), (0, 0, 0, 0, 0)] := by decide +kernel

/-- Compartment 0 in a state, its Hearth being cleared, in its own run. -/
def tClr (st : CompSt) : State :=
  { tS0 { tX with st := st, clearing := true } with stroke := { tS.stroke with phase := .execute, current := some 0 } }

/-- COMP.CREATE waits while the freed HBM is not zeroed (12 R449). -/
theorem test_create_waits_for_zeroing : ends (opCompCreate tCreate tS) = (0x10000, 0) := by decide +kernel

theorem wit_CompQueryFarClear :
    (let b := le [(8, 1), (8, 64)]
     tS.admits 0x0105 (tc .pf b) ∧ tS.admits 0x0105 (tc (.vf 1) b) ∧ b.length = 16 ∧ u8 b 0 = 1 ∧ mayName (.vf 1) 1 = true ∧ zeroAt b 1 7 = true ∧
      u64 b 8 % 64 = 0) ∧
    (let b := le [(8, 0)]; tS.admits 0x0106 (tc (.vf 0) b) ∧ b.length = 8 ∧ zeroAt b 0 8 = true ∧ (tS.comp 0).farPending = none) ∧
    (let s := tS0 { tX with farPending := some (0x1000, 0x1000), hostWin := some (0x2000, 0x1000) }
     s.admits 0x0106 (tc (.vf 0) (le [(8, 0)])) ∧ (s.comp 0).farPending = some (0x1000, 0x1000) ∧
      ((s.comp 0).hostWin.any fun w => rangesMeet w (0x1000, 0x1000)) = false) ∧
    let s := tS0 { tX with farPending := some (0x1000, 0x1000), hostWin := some (0x1FFF, 1) }
    s.admits 0x0106 (tc (.vf 0) (le [(8, 0)])) ∧ ((s.comp 0).hostWin.any fun w => rangesMeet w (0x1000, 0x1000)) = true := by decide +kernel

theorem wit_ClearingEventsComplete :
    (∀ st ∈ [CompSt.quenching, .changing, .destroying],
      ((tClr st).comp 0).clearing = true ∧ (tClr st).quench.deviceClearing = false ∧ (tClr st).clearsNow 0 = true ∧ ((tClr st).comp 0).st = st) ∧
    (let s := (tClr .changing).modComp 0 fun x => { x with clearing := false }
     (s.comp 0).st = .changing ∧ (s.comp 0).clearing = false ∧ s.clearsNow 0 = true) ∧
    tS.clearsNow 0 = false ∧ (tS.exists_ 0 = true ∧ ∀ a ∈ tS.queue, a.waiting = false) ∧
    (let s : State := { tClr .active with quench := { tS.quench with deviceClearing := true } }
     s.quench.deviceClearing = true ∧ s.stroke.phase = .execute) ∧ tS.stroke.phase ≠ .plan ∧ tS.stroke.phase ≠ .execute := by decide +kernel

/-! ### Witnesses: phases, packets, replies -/

/-- The state in a phase of its stroke. -/
def tPh (p : Phase) : State := { tS with stroke := { tS.stroke with phase := p } }

theorem wit_PhaseEventsMoveTheStrokeOn :
    (∀ p ∈ [Phase.boundary, .intake, .plan, .execute, .settle, .report], (tPh p).serving = true ∧ (tPh p).stroke.phase = p) ∧ (tPh .plan).watch.raised = [] := by
  decide +kernel

theorem test_intake_of_an_idle_device : (nextOf (exec (.intakePhase []) (tPh .boundary))).stroke.phase = .intake := by decide +kernel
theorem test_plan_of_an_idle_device : (nextOf (exec .planPhase (tPh .intake))).stroke.phase = .plan := by decide +kernel
theorem test_settle_of_an_idle_device : (nextOf (exec .settlePhase (tPh .plan))).stroke.phase = .settle := by decide +kernel

/-- A pending change of the period for stroke 12. -/
def tPend (n : Nat) : State := { tS with stroke := { tS.stroke with number := n, pending := some { target := 12, period := 50, burst := false } } }

theorem wit_PendingChangesWaitForTheirStroke :
    ((tPend 11).stroke.pending = some { target := 12, period := 50, burst := false } ∧ (tPend 11).stroke.number < 12) ∧
    12 ≤ (tPend 12).stroke.number ∧ tS.stroke.pending = none ∧ tS.exists_ 0 = true := by decide +kernel

/-- The header of a packet with an opcode. -/
def tHead (op : Nat) : Header :=
  { op, version := 1, kind := 0, flags := 0, depCount := 0, rsvd := 0, paramLen := 8, stream := 0, cookie := 7, paramAddr := 0, deps := [0, 0, 0, 0] }

theorem wit_AdmittedPacketTakesTagAndSequence :
    (tS.packetCheck (.vf 0) 0 0 (tHead 0x0101) true = some .notPermitted) ∧
    (tS.packetCheck (.vf 0) 0 0 (tHead 0x0008) true = none ∧ tS.stateRuns (.vf 0) 0 0x0008 0 = true ∧
      (tS.fnOf (.vf 0)).held 0 ((tHead 0x0008).depList 0 0) = false ∧
      ((tS.fnOf (.vf 0)).tags.assign (tS.tagRange (.vf 0)).1 (tS.tagRange (.vf 0)).2).isSome = true) ∧
    let s := tS0 { tX with tagQuota := 0 }
    s.packetCheck (.vf 0) 0 0 (tHead 0x0008) true = none ∧ (s.fnOf (.vf 0)).tags.assign (s.tagRange (.vf 0)).1 (s.tagRange (.vf 0)).2 = none := by
  decide +kernel

theorem wit_IndexFreedLeastRecentlyIsAssigned :
    let r : IdxRange := { fresh := 2, freed := [9], used := [8] }
    r.fresh ≤ 2 ∧ (r.used ++ r.freed).Nodup ∧ (∀ j < 32, j ∈ r.used ++ r.freed ↔ 8 ≤ j ∧ j < 8 + r.fresh) ∧ (r.assign 8 2).isSome = true ∧
      8 ∈ r.used := by decide +kernel

theorem wit_RepliesAreWrittenInAdmissionOrder :
    (∀ r : OutRing, ((fun r : OutRing => leBytes r.tail 32) r).length = 32) ∧ ∀ n ∈ [6, 16], ∀ t ∈ [0, 63, 0xFFFFFFFF],
      6 ≤ ({ sizeLog := n, tail := t } : OutRing).sizeLog ∧ ({ sizeLog := n, tail := t } : OutRing).sizeLog ≤ 16 ∧ t < 2 ^ 32 := by
  refine ⟨fun r => ?_, by decide +kernel⟩
  show (leBytes r.tail 32).length = 32
  simp [leBytes]

/-- An admitted command. -/
def tAdm (op : Nat) (f : Fn) : Adm := admDirect (tc f []) op

/-- The state with an admitted command in a phase. -/
def tQ (p : Phase) (a : Adm) : State := { tPh p with queue := [a] }

theorem wit_LimitEventsEndTheirCommands :
    (let a := { tAdm 0x0401 (.vf 0) with slotWait := 64, planned := false }
     (tQ .plan a).admOf 5 = some a ∧ (tQ .plan a).serving = true ∧ (tQ .plan a).stroke.phase = .plan ∧ 64 ≤ a.slotWait ∧ a.planned = false) ∧
    (let a := { tAdm 0x0401 (.vf 0) with slotWait := 64 }
     (tQ .plan a).admOf 5 = some a ∧ 64 ≤ a.slotWait ∧ ∀ r ∈ (tQ .plan a).resv, r.order ≠ 5) ∧
    (let a := { tAdm 0x0720 (.vf 0) with heldStrokes := 4096, planned := false }
     let s : State := { tQ .plan a with power := { (tQ .plan a).power with state := .afternoon } }
     s.admOf 5 = some a ∧ s.serving = true ∧ s.stroke.phase = .plan ∧ isDeferrable a.op = true ∧ s.holdsDeferred = true ∧
      s.power.deferLimit ≤ a.heldStrokes ∧ a.planned = false) ∧
    (let s := ({ tPh .intake with stroke := { (tPh .intake).stroke with intakeLeft := [(.vf 0, 3)] } } : State).setFn (.vf 0) { sq := [(3, { hold := 256 })] }
     s.serving = true ∧ s.stroke.phase = .intake ∧ s.atLimit (.vf 0) 3 = true) ∧
    (let a := { tAdm 0x0401 (.vf 0) with ref := some (64, 8), fetched := false }
     let s : State := { tQ .execute a with stroke := { (tQ .execute a).stroke with ran := [0], current := some 0 } }
     s.admOf 5 = some a ∧ s.readable a = true ∧ s.host.up = true ∧ a.ref = some (64, 8) ∧ (le [(8, 0)]).length = 8) ∧
    (tPh .settle).power.main = .service ∧ (tPh .settle).stroke.phase = .settle := by decide +kernel

/-- An active lending group of compartments 0 and 1, run 0 begun. -/
def tRun : State :=
  { tPh .execute with stroke := { (tPh .execute).stroke with ran := [0], current := some 0, groups := [(0, { tGroup with active := true })] } }

theorem wit_RunEventsAccountForTheirTime :
    (tRun.executing = true ∧ tRun.quench.deviceClearing = false ∧ tRun.exists_ 1 = true ∧ (tRun.comp 1).slice.count ≠ 0 ∧ 1 ∉ tRun.stroke.ran ∧
      ∀ j ∈ tRun.stroke.ran, (tRun.comp j).slice.first + (tRun.comp j).slice.count ≤ (tRun.comp 1).slice.first) ∧
    (tRun.inRun 0 = true ∧ tRun.calm ∧ tRun.watch.raised = [] ∧ tRun.mayBorrow 0 1 = true ∧ tRun.changeNs 1 ≤ tRun.leftNs ∧ tRun.lends 0 2 = false ∧
      tRun.unassigned ≠ 0 ∧ tRun.leftNs < tRun.leftNs + 1) ∧
    let s : State := { tRun with comps := [(0, { tX with slice := { first := 0, count := 16, openFill := true } })] }
    s.inRun 0 = true ∧ s.stroke.borrower = none ∧ (s.comp 0).slice.openFill = true := by decide +kernel

/-! ### Witnesses: Crucible and keys -/

theorem wit_DiagnosticCommandIsNotPermitted :
    tS.serving = true ∧ tS.dawn.lifecycle = 3 ∧ (tc (.vf 0) []).fn ≠ .pf ∧
    let s : State := { tS with dawn := { tS.dawn with lifecycle := 1 } }
    s.serving = true ∧ s.dawn.lifecycle ≠ 3 ∧ s.dawn.lifecycle ≠ 4 := by decide +kernel

/-- The state with a session and keys of compartment 0, which is claimed or not. -/
def tK (claim : Option Claim) (y : Session) : State :=
  (tS0 { tX with
    claim := claim
    keys := [(0, { kind := 2, keyId := 2, sealerBase := 0x10, gens := [{ gen := 0, key := [1], count := 2 ^ 40 }] })]
    compKey := some { kind := 0, keyId := 0, sealerBase := 0x10, rotate := true, gens := [{ gen := 0, key := [2] }] } }).setFn (.vf 0)
    { sessions := [y], spdmStage := 3 }

theorem wit_ReadsOfCertificatesAndSessions :
    (let b := le [(1, 1), (3, 0), (4, 65536), (8, 64)]
     tS.admits 0x0201 (tc (.vf 0) b) ∧ b.length = 16 ∧ u8 b 0 ≤ 1 ∧ zeroAt b 1 3 = true ∧ 64 ≤ u32 b 4 ∧ u32 b 4 ≤ 65536 ∧ u32 b 4 % 64 = 0 ∧
      u64 b 8 % 64 = 0) ∧
    (let b := le [(32, 5), (8, 64), (4, 64), (4, 0)]
     tS.admits 0x0202 (tc (.vf 0) b) ∧ b.length = 48 ∧ u64 b 32 % 64 = 0 ∧ u32 b 44 = 0 ∧ 64 ≤ u32 b 40 ∧ u32 b 40 % 64 = 0) ∧
    (let b := le [(4, 9), (4, 0), (8, 64)]
     (tK none tSess).admits 0x0203 (tc (.vf 0) b) ∧ b.length = 16 ∧ zeroAt b 4 4 = true ∧
      (((tK none tSess).fnOf (.vf 0)).sessions.find? fun y => y.id == u32 b 0) = some tSess) ∧
    let b := le [(4, 8), (4, 0), (8, 64)]; ∀ y ∈ ((tK none tSess).fnOf (.vf 0)).sessions, y.id ≠ u32 b 0 := by decide +kernel

/-- The base point of P-384 (FIPS 186-5), uncompressed. -/
def tPoint : List Byte :=
  [4] ++ beBytes 0xaa87ca22be8b05378eb1c71ef320ad746e1d3b628ba79b9859f741e082542a385502f25dbf55296c3a545e3872760ab7 48 ++
    beBytes 0x3617de4a96262c6f5d9e98bf9292dc29f8f41dbd289a147ce9da3113b5f0b8c00a60b1ce1d7e819d7a431d7c90ea0e5f 48

/-- TENANT.CLAIM of that point. -/
def tClaim : List Byte := le [(4, 9), (4, 0)] ++ tPoint ++ le [(7, 0), (2592, 1), (48, 0)]

theorem wit_ClaimAndKeyCommandsCommitAtSettle :
    ((tK none tSess).admits 0x0204 (tc (.vf 0) tClaim) ∧ tClaim.length = 2752 ∧ zeroAt tClaim 4 4 = true ∧ zeroAt tClaim 105 7 = true ∧
      zeroAt tClaim 2704 48 = true ∧ p384Point ((tClaim.drop 8).take 97) = true ∧ ((tK none tSess).session (.vf 0) (u32 tClaim 0)).isSome = true ∧
      ((tK none tSess).comp 0).claim = none ∧ (tK none tSess).claimDue 0 = false) ∧
    (let b := le [(2, 2 * 8192), (1, 1), (5, 0)]
     (tK none tSess).admits 0x0212 (tc (.vf 0) b) ∧ b.length = 8 ∧ keyHandleKind (u16 b 0) = 2 ∧ u8 b 2 ≤ 1 ∧ zeroAt b 3 5 = true ∧
      ((tK none tSess).liveKey (tc (.vf 0) b) (u16 b 0)).isSome = true) ∧
    (∀ h ∈ [0, 2 * 8192], let b := le [(2, h), (6, 0)]
      (tK none tSess).admits 0x0213 (tc (.vf 0) b) ∧ b.length = 8 ∧ (u16 b 0 = 0 ∨ keyHandleKind (u16 b 0) = 2) ∧ zeroAt b 2 6 = true ∧
      (((tK none tSess).liveKey (tc (.vf 0) b) (u16 b 0)).map fun e => e.full) = some false ∧ (tK none tSess).dawn.entropyOk = true) ∧
    let b := le [(2, 2 * 8192), (6, 0)]
    (tK none tSess).admits 0x0214 (tc (.vf 0) b) ∧ 1 ≤ keyHandleKind (u16 b 0) ∧ keyHandleKind (u16 b 0) ≤ 3 ∧
      kindAllowed (.vf 0) (keyHandleKind (u16 b 0)) = true ∧
      (((tK none tSess).keyEntry (.vf 0) (u16 b 0)).map fun e => e.destroying) = some none ∧
      ((tK none tSess).queue.any fun a => decide (a.cmd.order < 5) && namesKey (.vf 0) (u16 b 0) a) = false ∧
      ((tK none tSess).markKey (.vf 0) (u16 b 0) (some 5)).keyInUse (.vf 0) (u16 b 0) = false := by decide +kernel

theorem wit_KeyDestroy_in_use :
    let s := tS0 { tX with keys := [(0, tKey 2)], tensors := [(0x1000, { tT 1 1 1 with keyRef := 2 * 8192 })] }
    s.keyEntry (.vf 0) (2 * 8192) = some (tKey 2) ∧ (s.markKey (.vf 0) (2 * 8192) (some 5)).keyInUse (.vf 0) (2 * 8192) = true := by decide +kernel

/-- A key blob of kind 2 for compartment 0; its ciphertext and tag are zeros. -/
def tBlob (kind comp seq : Nat) : List Byte :=
  le [(8, 64), (8, 0)] ++ le [(1, 1), (1, kind), (1, comp), (1, 0), (4, 9), (4, 0x10), (4, 0), (8, 77), (8, seq), (32, 0), (32, 0), (16, 0)]

theorem wit_KeyDeliverChecksInTheirOrder :
    (let c := tc (.vf 0) (tBlob 2 0 1)
     (tK none tSess).admits 0x0210 c ∧ c.block.length = 128 ∧ u64 c.block 0 % 64 = 0 ∧ zeroAt c.block 8 8 = true ∧
      (tK none tSess).dawn.lifecycle = 3 ∧ (tK none tSess).session (.vf 0) (u32 (c.block.drop 16) 4) = some tSess ∧
      u8 (c.block.drop 16) 1 = 2 ∧ tSess.blobSeq < u64 (c.block.drop 16) 24 ∧ blobMatches (.vf 0) 2 0 = true ∧
      sealerValid 2 (u32 (c.block.drop 16) 8) = true ∧ zeroAt (c.block.drop 16) 12 4 = true ∧ zeroAt (c.block.drop 16) 32 32 = true ∧
      (tK none tSess).freeKeyIndex (.vf 0) = some 1) ∧
    (tS.session (.vf 0) 9 = none ∧ tS.admits 0x0210 (tc (.vf 0) (tBlob 2 0 1))) ∧
    u64 ((tBlob 2 0 0).drop 16) 24 ≤ tSess.blobSeq ∧ blobMatches (.vf 0) 2 1 = false ∧
    (({ tS0 { tX with keyQuota := 0 } with dawn := { tS.dawn with lifecycle := 2 } } : State).freeKeyIndex (.vf 0) = none) ∧
    ({ tS with dawn := { tS.dawn with lifecycle := 1 } } : State).admits 0x0210 (tc (.vf 0) (tBlob 2 0 1)) := by decide +kernel

theorem wit_KeyQueryShowsTheKey :
    (let b := le [(2, 2 * 8192), (6, 0), (8, 64)]
     (tK none tSess).admits 0x0211 (tc (.vf 0) b) ∧ b.length = 16 ∧ zeroAt b 2 6 = true ∧ u64 b 8 % 64 = 0 ∧ keyHandleKind (u16 b 0) ≤ 3 ∧
      kindAllowed (.vf 0) 2 = true ∧ ((tK none tSess).liveKey (tc (.vf 0) b) (u16 b 0)).isSome = true) ∧
    (let b := le [(2, 2 * 8192 + 8191), (6, 0), (8, 64)]
     (tK none tSess).admits 0x0211 (tc (.vf 0) b) ∧ (tK none tSess).liveKey (tc (.vf 0) b) (u16 b 0) = none) ∧
    let b := le [(2, 8192), (6, 0), (8, 64)]
    (tK none tSess).admits 0x0211 (tc (.vf 0) b) ∧ kindAllowed (.vf 0) (keyHandleKind (u16 b 0)) = false := by decide +kernel

theorem wit_SealCountsNeverRepeat : ∃ (e : KeyEntry) (t u : State) (x y : Seal),
    (tK none tSess).keyEntry (.vf 0) 0 = some e ∧ e.gens ≠ [] ∧ e.gens.Pairwise (fun a b => a.gen < b.gen) ∧ e.newest.count ≤ 2 ^ 40 ∧
    (tK none tSess).seal 0 0 = (t, .ok x) ∧ t.seal 0 0 = (u, .ok y) :=
  ⟨_, _, _, _, _, rfl, by decide, by decide, by decide, rfl, rfl⟩

/-! ### Witnesses: memory, numbers, compute -/

/-- The state with a buffer, pending sizes, and tensors that may be placed and imported. -/
def tM : State := Sample.state false false

theorem wit_MemoryCommandsEndAsTheirWorkEnds :
    (let c := tc (.vf 0) (le [(1, 0), (1, 0), (22, 0)]); tS.admits 0x0301 c ∧ ends (opMemConfig c tS) = (0, 0)) ∧
    (let c := tc (.vf 0) (le [(8, 64), (1, 0), (7, 0), (8, 64)]); tM.admits 0x0303 c ∧ ends (opBufferCreate c tM) = (0, 0)) ∧
    (let c := tc (.vf 0) (le [(8, 0x3000)]); tM.admits 0x0304 c ∧ ends (opMemFree c tM) = (0, 0)) ∧
    (let c := tc (.vf 0) (le [(8, 64)]); tM.admits 0x0305 c ∧ ends (opMemQuery c tM) = (0, 0)) ∧
    (let c := tc (.vf 0) (le [(8, 0xA000), (1, 1), (7, 0)]); tM.admits 0x0306 c ∧ ends (opTensorPlace c tM) = (0, 0)) ∧
    tM.admits 0x0307 Sample.tensorImport ∧ (opTensorImport Sample.tensorImport tM).toOption.isSome = true := by decide +kernel

theorem wit_MemoryObjectsAreMadeAndFreed :
    (let b := le [(1, 1), (1, 16), (22, 0)]
     tM.admits 0x0301 (tc (.vf 0) b) ∧ b.length = 24 ∧ u8 b 0 ≤ 1 ∧ u8 b 1 ≤ 16 ∧ zeroAt b 2 6 = true ∧ u64 b 8 = 0 ∧ u64 b 16 = 0 ∧
      tS.admits 0x0301 (tc (.vf 0) b) ∧ (tS.comp 0).windowAhead = none) ∧
    (∀ n ∈ [64, 2097152], let b := le [(8, n), (1, 0), (7, 0), (8, 64)]
     let c := tc (.vf 0) b
     tM.admits 0x0303 c ∧ b.length = 24 ∧ n = u64 b 0 ∧ u8 b 8 ≤ 1 ∧ zeroAt b 9 7 = true ∧ u64 b 16 % 64 = 0 ∧
      tM.spaceFree 0 c.order (Buffer.space { id := 0, len := n, home := 0 }) = true ∧
      (tM.comp 0).bufNext + 2097152 * ceilDiv n 2097152 ≤ 0x1000000000000) ∧
    (let c := tc (.vf 0) (le [(8, 0x3000)])
     tM.admits 0x0304 c ∧ c.block.length = 8 ∧ ∃ t, Tab.find? (tM.comp 0).tensors 0x3000 = some t ∧ liveFor t.closing c = true ∧ t.owner = 3) ∧
    (let c := tc (.vf 0) (le [(8, 0x9000), (1, 1), (1, 3), (6, 0)])
     let t : Tensor := { tT 4 1 1 with home := 1 }
     let s := tS0 { tX with tensors := [(0x9000, t)] }
     s.admits 0x0306 c ∧ c.block.length = 16 ∧ Tab.find? (s.comp 0).tensors 0x9000 = some t ∧ liveFor t.closing c = true ∧ t.base = none ∧
      t.home = u8 c.block 8 ∧ t.peer = u8 c.block 10 ∧ t.peer = 0 ∧ u8 c.block 9 = 3 ∧ zeroAt c.block 11 5 = true) ∧
    tM.admits 0x0305 (tc (.vf 0) (le [(8, 64)])) := by decide +kernel

theorem wit_TensorExportStoresOnlyItsImages :
    let c := tc (.vf 0) (le [(8, 0x1000), (8, 2 ^ 32), (4, 0), (4, 1), (8, 0)])
    tM.admits 0x0308 c ∧ (Tab.find? (tM.comp 0).tensors (u64 c.block 0)).isSome = true ∧ ends (opTensorExport c tM) = (0, 0) := by decide +kernel

theorem wit_NumericSettingsWaitForTheBoundary :
    (∀ m ∈ [1, 2], ∀ n ∈ [0, 65536], let b := le [(1, m), (1, 3 - m), (4, n), (1, 8), (1, 0)]
     tS.admits 0x0440 (tc (.vf 0) b) ∧ b.length = 8 ∧ (u8 b 0 = 1 ∨ u8 b 0 = 2) ∧ (u8 b 1 = 1 ∨ u8 b 1 = 2) ∧ u32 b 2 = n ∧ u8 b 6 = 8 ∧ u8 b 7 = 0) ∧
    ((tS0 { tX with numPending := some (4, ⟨true, true, 0, 8⟩) }).comp 0).numPending = some (4, ⟨true, true, 0, 8⟩) ∧
    (let b := le [(2, 4095), (2, 0), (1, 0), (1, 1), (2, 0), (4, 0), (4, 0)]
     tS.admits 0x0442 (tc (.vf 0) b) ∧ b.length = 16 ∧ u16 b 0 = 4095 ∧ u8 b 5 = 1 ∧ zeroAt b 6 2 = true ∧ zeroAt b 12 4 = true) ∧
    (∀ op ∈ [0x0441, 0x0406, 0x0902], tS.admits op (tc (.vf 0) (le [(8, 64)]))) ∧
    let b := le [(2, 4095), (6, 0), (8, 64)]
    tS.admits 0x0443 (tc (.vf 0) b) ∧ b.length = 16 ∧ zeroAt b 2 6 = true ∧ u64 b 8 = 64 ∧ Tab.find? (tS.comp 0).hist 4095 = none ∧
      ∀ h : HistSlot, Tab.find? ((tS0 { tX with hist := [(4095, h)] }).comp 0).hist 4095 = some h := by
  refine ⟨by decide +kernel, by decide +kernel, by decide +kernel, by decide +kernel, ?_⟩
  exact ⟨by decide +kernel, by decide +kernel, by decide +kernel, by decide +kernel, by decide +kernel, fun h => rfl⟩

theorem wit_ComputeCommandsEnd :
    (Sample.state true true).admits 0x0401 Sample.matmul ∧ (opMatmul Sample.matmul (Sample.state true true)).toOption.isSome = true ∧
    tS.admits 0x0402 (tc (.vf 0) []) ∧ tS.admits 0x0403 (tc (.vf 0) []) ∧ tS.admits 0x0404 (tc (.vf 0) []) ∧ tS.admits 0x0405 (tc (.vf 0) []) ∧
    tS.admits 0x0510 (tc (.vf 0) []) ∧ tS.admits 0x0511 (tc (.vf 0) []) ∧ tS.admits 0x0512 (tc (.vf 0) []) ∧ tS.admits 0x0620 (tc (.vf 0) []) ∧
    tS.admits 0x0901 (tc (.vf 0) []) := by decide +kernel

/-! ### Witnesses: streams, bases, variants -/

/-- The sample state with one variant's entry and stream replaced. -/
def tV (v : Variant) (y : StreamCtx) : State :=
  let s := Sample.state true true
  { s with comps := [(0, { Sample.comp true true with variants := [(0, v)], streams := [(65536, y)] })] }

/-- A stream of two pages and three positions more. -/
def tY : StreamCtx := { Sample.stream with layers := [{ len := 515, stage := 0x5000, pages := [(0, 0xE000), (1, 0xF000)] }] }

/-- The variant of the sample compartment. -/
def tVar : Variant := Sample.variant true

theorem wit_ServingCommandsEndAsTheirWorkEnds :
    (Sample.state true true).admits 0x0501 Sample.streamOpen ∧ (opStreamOpen Sample.streamOpen (Sample.state true true)).toOption.isSome = true ∧
    (let c := { tc (.vf 0) (le [(2, 0), (6, 0), (8, 512)]) with stream := 65536 }
     (tV tVar tY).admits 0x0505 c ∧ ends (opKvTruncate c (tV tVar tY)) = (0, 0)) ∧
    ∀ op ∈ [0x0502, 0x0503, 0x0504, 0x0506, 0x0604, 0x0605, 0x0610, 0x0611, 0x0612, 0x0613, 0x0615, 0x0616, 0x0618, 0x0619, 0x0701, 0x0703, 0x0704, 0x0710, 0x0711,
      0x0720, 0x0721, 0x0722, 0x0724], (Sample.state true true).admits op Sample.named := by decide +kernel

theorem wit_LayersGrowByPagesAndShrinkWithinTheOpenPage :
    (flushPages 0 255 1 = [0] ∧ flushPages 2 255 769 = [2, 3]) ∧
    (∀ n ∈ [512, 515], let c := { tc (.vf 0) (le [(2, 0), (6, 0), (8, n)]) with stream := 65536 }
     (tV tVar tY).admits 0x0505 c ∧ c.block.length = 16 ∧ (tV tVar tY).streamOf 0 c.stream c = some tY ∧
      (tY.layers[u16 c.block 0]?).map (·.len) = some 515 ∧ u64 c.block 8 = n ∧ zeroAt c.block 2 6 = true ∧ n ≤ 515 ∧ 515 - 515 % 256 ≤ n ∧
      (tV tVar tY).kvPending 0 tY.handle c.order = false) ∧
    (let c := { tc (.vf 0) (le [(2, 0), (6, 0), (8, 511)]) with stream := 65536 }
     (tV tVar tY).admits 0x0505 c ∧ u64 c.block 8 < 515 - 515 % 256) ∧
    (Tab.find? ((tV tVar tY).comp 0).streams 65536 = some tY ∧ (tY.layers[0]?).isSome = true) ∧
    (tV tVar tY).admits 0x0506 (tc (.vf 0) (le [(8, 64)])) ∧ (tV tVar tY).coldNext 0 tY = none := by decide +kernel

/-- A page that is due to move: two pages behind the newest, none of its tiles written. -/
def tCold : State :=
  let s := Sample.state true true
  { s with stroke := { s.stroke with phase := .settle, ran := [0] }, comps := [(0, { Sample.comp true true with
      streams := [(65536, { tY with coldHome := 2, layers := [{ len := 515, stage := 0x5000, pages := [(0, 0xE000), (1, 0xF000), (2, 0x10000)] }] })]
      tensors := [(0xE000, { tT 60 256 32 with home := 1 }), (0xF000, { tT 61 256 32 with home := 1 })] })] }

theorem wit_cold_page :
    (Tab.find? (tCold.comp 0).streams 65536).bind (tCold.coldNext 0) = some (0, 0, 0xE000) ∧
    Tab.find? (tCold.comp 0).tensors 0xE000 = some { tT 60 256 32 with home := 1 } ∧ tCold.forgesRun = true ∧
    tCold.stroke.phase = .settle ∧ 0 ∈ tCold.stroke.ran ∧ tCold.spaceFree 0 0 (0, 0, Tensor.homeBytes { tT 60 256 32 with home := 2 }) = true := by decide +kernel

/-- A base slot in a state, and no attachment. -/
def tB (x : BaseSlot) : State := { Sample.state false false with bases := [(1, x)] }

theorem wit_BaseSlotCommandsComplete :
    (let c := { tc .pf (le [(1, 0), (1, 0)]) with order := 5 }
     tS.admits 0x0601 c ∧ ends (opBaseLoad c tS) = (0x11, 0xFFFFFFFF)) ∧
    (let c := tc .pf (le [(8, 1)])
     (tB { st := .ready }).admits 0x0602 c ∧ c.block.length = 8 ∧ u8 c.block 0 = 1 ∧ zeroAt c.block 1 7 = true ∧
      ((tB { st := .ready }).baseSlot 1).st = .ready ∧
      ((tB { st := .ready }).comps.any fun p => p.2.boundVariants 1 != 0) = false ∧
      ((tB { st := .unloading, order := some 5 }).baseSlot 1).order = some c.order) ∧
    (∀ x ∈ [BaseSt.empty, .ready, .unloading], let c := tc .pf (le [(8, 1), (8, 64)])
     (tB { st := x }).admits 0x0603 c ∧ c.block.length = 16 ∧ u64 c.block 8 = 64 ∧ ((tB { st := x }).baseSlot 1).st = x) ∧
    (let s : State := { Sample.state true true with comps := [(0, { Sample.comp true true with variants := [] })] }
     let c := tc (.vf 0) (le [(8, 0)])
     s.admits 0x0605 c ∧ c.block.length = 8 ∧ (s.comp 0).aliases 0 ≠ [] ∧ (s.comp 0).boundVariants 0 = 0) ∧
    ∀ p ∈ [(⟨0, 16, 1, 0⟩ : Policy), ⟨16, 65536, 2 ^ 32 - 1, 2 ^ 32 - 2⟩], let b := le [(1, 1), (1, p.cap), (2, 0), (4, p.window), (4, p.hot), (4, p.cold)]
      tS.admits 0x0606 (tc .pf b) ∧ b.length = 16 ∧ tS.exists_ (u8 b 0) = true ∧ p = ⟨u8 b 1, u32 b 4, u32 b 8, u32 b 12⟩ ∧ u16 b 2 = 0 := by
  decide +kernel

/-- The sample state with a switch under way at an admission order, and the command that asked for it admitted. -/
def tSw (w : Switch) (sh su : Option VarSet) : State :=
  let s := tV { tVar with switch := some w, shadow := sh, successor := su } tY
  { s with queue := [{ tAdm 0x0614 (.vf 0) with cmd := { Sample.named with order := w.order } }], stroke := { s.stroke with phase := .settle } }

theorem wit_SwitchesDivideTheOrderAndTakeEffectAtOnce :
    (∀ cut : Bool, ∀ res ∈ [true, false],
      let s := tV { tVar with resident := res } tY
      Sample.named.block.length = 8 ∧ zeroAt Sample.named.block 4 4 = true ∧ s.admits (if cut then 0x0617 else 0x0614) Sample.named ∧
      (s.variantOf 0 (u32 Sample.named.block 0) Sample.named).map (fun v => (v.switch, v.resident)) = some (none, res)) ∧
    (∀ cut : Bool, let s := tSw ⟨5, cut⟩ tVar.active tVar.active
      s.stroke.phase = .settle ∧ s.boundBefore 0 65536 5 = false ∧ (s.admOf 5).map (·.planned) = some true ∧ tVar.resident = true ∧ ((Tab.find? (s.comp 0).variants 0).bind fun v => v.next cut).isSome = true ∧
      ((Tab.find? ((tSw ⟨5, cut⟩ none none).comp 0).variants 0).bind fun v => v.next cut).isNone = true) ∧
    (let s := tSw ⟨6, false⟩ tVar.active none
     let b := { tAdm 0x0613 (.vf 0) with cmd := Sample.named }
     (({ s with queue := b :: s.queue } : State).admOf 6).map (·.cmd.order) = some 6 ∧ ({ s with queue := b :: s.queue } : State).boundBefore 0 65536 6 = true) ∧
    ((Tab.find? ((tV tVar tY).comp 0).variants 0).bind (·.switch)).isNone = true := by
  refine ⟨?_, ?_, ?_, ?_⟩
  · decide +kernel
  · decide +kernel
  · decide +kernel
  · decide +kernel

/-- A forge of one window, with a cap. -/
def tF (s : State) (v : Variant) (cap : Nat) : State :=
  { s with comps := [(0, { Sample.comp true true with variants := [(0, v)], policy := ⟨cap, 16, 1, 0⟩ })] }

theorem wit_ForgesFollowTheirWindowsAndCaps :
    (let s : State := { Sample.state true true with stroke := { (Sample.state true true).stroke with number := 15, phase := .settle } }
     s.stroke.phase = .settle ∧ ((tF s tVar 16).stroke.number + 1) % ((tF s tVar 16).comp 0).policy.window = 0) ∧
    ((Sample.state true true).stroke.number + 1) % 16 ≠ 0 ∧
    (let s := tF (Sample.state true true) tVar 0
     (s.comp 0).forgeCap < s.forgeUse 0 0 + s.forgeNeed tVar true) ∧
    let w : ForgeWork := { started := 0, all := true, bytes := 1 }
    let v := { tVar with forging := some w }
    let s := tF { Sample.state true true with stroke := { (Sample.state true true).stroke with phase := .settle, ran := [0] } } v 16
    s.forgeDue 0 v w = true ∧ ((s.workNow (forgeWork 0 0 v (s.forgeLayers v true))).1.map fun x => x.isSome) = some true := by decide +kernel

/-! ### Witnesses: training -/

/-- The sample state with a training state replaced, and admitted commands. -/
def tT0 (t : Train) (q : List Adm) : State :=
  { Sample.training with
    queue := q
    comps := [(0, { Sample.comp true true with
      keys := [(0, { kind := 3, keyId := 3, sealerBase := 0x20, gens := [{ gen := 0, key := leBytes 5 32 }] })]
      variants := [(0, { Sample.variant true with train0 := some t })] })] }

/-- A training command of the sample variant, TARGET 0. -/
def tTc (op : Nat) (order : Nat) : Adm := { tAdm op (.vf 0) with cmd := { Sample.named with order := order } }

/-- TRAIN.EXPORT of the one shard. -/
def tTexp : Cmd := tc (.vf 0) (le [(4, 65536), (1, 0), (1, 0), (2, 3 * 8192), (8, 2 ^ 32), (8, 1048576), (4, 0), (4, 1)])

/-- A waiting TRAIN.OPEN, and a waiting TRAIN.STEP. -/
def tOpening (rejoin : Bool) : Train :=
  { Sample.train with root := none, opening := some { order := 4, start := 10, rejoin := rejoin, digest := [], tables := [(0x8000, Sample.tensor 8 1 none)], records := [(64, [0])] } }
def tStepping : Train := { Sample.train with stepping := some { order := 4, step := 1, start := 10, err := [] } }

/-- A state at a later stroke. -/
def at_ (s : State) (n : Nat) (p : Phase) : State := { s with stroke := { s.stroke with number := n, phase := p } }

theorem wit_TrainingEndsAndLeavesTheDevice :
    (let s := tT0 tStepping [tTc 0x0720 4]
     let c := Sample.named
     s.admits 0x0702 c ∧ c.block.length = 8 ∧ u8 c.block 4 = 0 ∧ zeroAt c.block 5 3 = true ∧
      ((s.variantOf 0 (u32 c.block 0) c).bind fun v => v.train? 0).isSome = true ∧ ((s.variantOf 0 (u32 c.block 0) c).map fun v => s.queue.map (trainCmd 0 v (v.targetOf c))) = some [true]) ∧
    ((tT0 Sample.train []).admits 0x0723 tTexp ∧ (ends (opTrainExport tTexp (tT0 Sample.train []))).1 = 0) ∧
    (∀ r : Bool, let s := tT0 (tOpening r) [tTc 0x0701 4]
     s.trainOf 0 0 0 = some (tOpening r) ∧ (tOpening r).root = none ∧ (tOpening r).opening.isSome = true ∧ (s.admOf 4).isSome = true) ∧
    (∀ t ∈ [tOpening false, tStepping], ∀ n ∈ [4104, 4105], let s := at_ (tT0 t [tTc 0x0701 4]) n .execute
     (s.admOf 4).map (fun a => (a.cmd.fn, u8 a.cmd.block 4, varIndex (u32 a.cmd.block 0))) = some (.vf 0, 0, 0) ∧ s.trainOf 0 0 0 = some t ∧
      (n = 4105 ↔ 10 + 4095 ≤ s.stroke.number)) := by decide +kernel

/-- A contribution of a replica. -/
def tContr (gen step : Nat) : Contribution := { replica := 0, gen, step, samples := 0, codes := none, digests := [], applied := 0 }

/-- The training state with a group of a generation. -/
def tGrp : State :=
  let t := { Sample.train with collGroup := 65536 }
  { tT0 t [] with comps := [(0, { Sample.comp true true with
      groups := [(0, { handle := 65536, members := [1], rank := 0, st := .formed, gen := 2 })]
      variants := [(0, { Sample.variant true with train0 := some t })] })] }

theorem wit_TrainingMessagesReachTheirState :
    ((tGrp.trainOf 0 0 0).bind fun t => (tGrp.groupAt 0 t.collGroup).map fun p => p.2.gen) = some 2 ∧
    ((tGrp.trainOf 0 0 0).map fun t => t.opening) = some none ∧
    (let r : TrainRoot := { gen := 1, arrived := [(0, 3)] }
     (tContr 0 3).gen < r.gen ∧ r.gen ≤ (tContr 1 3).gen ∧ ((tContr 1 3).replica, (tContr 1 3).step) ∈ r.arrived ∧
      ((tContr 1 4).replica, (tContr 1 4).step) ∉ r.arrived) ∧
    (let r : TrainRoot := { missed := [(1, 64)] }
     ((tT0 { Sample.train with root := some r } []).trainOf 0 0 0).map (·.root) = some (some r) ∧ 64 ≤ Tab.get 0 r.missed 1 ∧ 1 ∉ r.lagged) ∧
    (let r : TrainRoot := { held := [(10, tContr 0 1)], arrived := [(0, 1)] }
     let t := { Sample.train with root := some r }
     let s := at_ (tT0 t []) 10 .settle
     s.trainOf 0 0 0 = some t ∧ t.opening = none ∧ s.stroke.phase = .settle ∧ s.rootRuns = true ∧ t.closable r s.stroke.number = true) ∧
    (let s := at_ (tT0 tStepping [tTc 0x0720 4]) 10 .plan
     s.trainOf 0 0 0 = some tStepping ∧ tStepping.stepping.isSome = true ∧ (s.admOf 4).isSome = true ∧ s.stroke.phase ≠ .execute) := by decide +kernel

/-- A message that tells the replica it lags. -/
def tLag : UpdMsg := { gen := 0, step := 1, included := [], late := [], dropped := [], n := 0, lagged := [0], verdicts := [], rejoins := [], codes := none }

theorem wit_update_applies :
    let t := { tStepping with messages := [(10, tLag)] }
    let s0 := at_ (tT0 t [tTc 0x0720 4]) 10 .execute
    let s : State := { s0 with stroke := { s0.stroke with current := some 0, ran := [0] } }
    s.inRunOf 0 = true ∧ s.stroke.guard = false ∧ s0.inRunOf 0 = false ∧ ends (runWork s (applyUpdate Sample.named 0 0 0)) = (0x0717, 0) := by decide +kernel

/-! ### Witnesses: optical links -/

/-- The device with ports in given states and a NODE_ID. -/
def tL (l : List (Nat × Port)) : State :=
  { tS with link := { tS.link with node := some 5, ref := some 5, ports := l, members := [] } }

/-- LINK.ENABLE of port 15. -/
def tEn (action lanes ms : Nat) : Cmd := tc .pf (le [(1, 15), (1, action), (1, lanes), (1, 0), (2, ms), (2, 0)])

/-- CELL.SET of this node and another. -/
def tCell : Cmd := tc .pf (le ([(4, 7), (1, 0), (1, 2), (1, 0), (1, 0), (2, 5), (2, 8191)] ++ (upFrom 0 14).map (fun _ => (2, 0xFFFF)) ++ [(8, 0)]))

theorem wit_LinkAndCellCommandsComplete :
    (∀ n ∈ [0, 8191], let c := tc .pf (le [(2, n), (1, 255), (5, 0)]); tS.admits 0x0801 c ∧ c.block.length = 8 ∧ u16 c.block 0 = n ∧ zeroAt c.block 3 5 = true) ∧
    (∀ lanes ∈ [2, 4, 8], let c := tEn 0 lanes 60000
     (tL []).admits 0x0802 c ∧ tS.admits 0x0802 c ∧ c.block.length = 8 ∧ u8 c.block 2 = lanes ∧ u16 c.block 4 = 60000 ∧ u16 c.block 6 = 0 ∧ tS.link.node = none ∧
      tS.nodeSeen = none ∧ (tL []).nodeSeen.isSome = true ∧ (tL []).disabling 15 = false ∧ (tL []).link.refused = none ∧ ((tL []).port 15).order = none ∧ ((tL []).port 15).disable = none ∧
      ((tL []).port 15).st = .dark ∧ ((tL [(15, { st := .up })]).port 15).st = .up) ∧
    (∀ a ∈ [1, 2], let c := tEn a 0 0; (tL []).admits 0x0802 c ∧ u8 c.block 1 = a ∧ u8 c.block 2 = 0) ∧
    (∀ f ∈ [Fn.pf, .vf 0], let c := tc f (le [(8, 15), (8, 64)]); (tL []).admits 0x0803 c ∧ c.block.length = 16 ∧ u8 c.block 0 = 15 ∧ zeroAt c.block 1 7 = true) ∧
    (tL []).admits 0x0804 tCell := by decide +kernel

theorem wit_cell_route_and_span :
    (let c := tCell
     (tL []).admits 0x0804 c ∧ c.block.length = 48 ∧ u8 c.block 4 = 0 ∧ u8 c.block 5 = 2 ∧ u8 c.block 6 = 0 ∧ u8 c.block 7 = 0 ∧
      (∀ n ∈ (upFrom 0 2).map (fun i => u16 c.block (8 + 2 * i)), n ≤ 8191) ∧ (∀ i < 16, 2 ≤ i → u16 c.block (8 + 2 * i) = 0xFFFF) ∧ zeroAt c.block 40 8 = true ∧
      (tL []).nodeSeen = some (u16 c.block 8) ∧ (tL []).cellSeen = none) ∧
    (let c := tc .pf (le [(2, 8191), (2, 65535), (4, 0)]); (tL []).admits 0x0805 c ∧ c.block.length = 8 ∧ u16 c.block 0 ≤ 8191 ∧ u32 c.block 4 = 0) ∧
    (let s := tS0 { tX with span := some { id := 9, members := [(5, 0)] } }
     let c := tc .pf (le [(2, 9), (1, 0), (1, 1), (4, 0), (8, 0), (8, 0)])
     s.admits 0x0806 c ∧ c.block.length = 24 ∧ u8 c.block 2 = 0 ∧ s.exists_ 0 = true ∧ u8 c.block 3 = 1 ∧ u32 c.block 4 = 0 ∧ zeroAt c.block 16 8 = true ∧
      ((s.spanSeen 0).map (·.id)) = some 9) := by decide +kernel

/-- A LINK.ENABLE that waits on port 15, and the port in a state. -/
def tPort (x : Port) : State :=
  let s := tL [(15, { x with order := some 4, timeoutMs := 100, maxLanes := 8 })]
  { s with queue := [{ tAdm 0x0802 .pf with cmd := { tEn 0 8 100 with order := 4 } }] }

/-- What IDENTIFY shows of an honest peer. -/
def tPeer : IdentMsg :=
  { peer := ⟨6, 77, 0⟩, stroke := 10, period := 50, members := [], ref := none, chainsOk := true, reportsOk := true
    blocks := (tS.measBlocks .pf [1, 2, 3, 4]).flatten, stepping := 0x00B1, lifecycle := 3, ecdh := [], mlkem := [], transcript := [] }

theorem wit_PortsTrainAndFallBackByTheirTable :
    (∀ st ∈ [PortSt.dark, .probe, .lock, .identify, .align, .up], ((tPort { st := st }).port 15).st = st ∧ (tPort { st := st }).calm ∧
      ((tPort { st := st }).port 15).timeoutMs ≠ 0 ∧ ((tPort { st := st }).admOf 4).map (·.cmd.order) = some 4) ∧
    (widthOf 8 8 = 8 ∧ widthOf 8 1 = 0) ∧ (tPort { st := .identify }).peerAdmitted { tPeer with chainsOk := false } = false ∧
    (let s := tL [(15, { st := .identify })]
     nodeClash tPeer.members s.self = false ∧ nodeClash s.link.members tPeer.peer = false ∧ tPeer.peer.node ≠ s.self.node ∧ s.link.members = [] ∧
      (unionMembers (tPeer.members ++ [s.self, tPeer.peer])).length ≤ 8192 ∧ s.joinRef tPeer = some s.self.node ∧ (s.port 15).order = none) ∧
    ((tPort { st := .align }).port 15).alignSince + 64 ≤ (at_ (tPort { st := .align }) 64 .report).stroke.number ∧
    (let x : Port := { st := .up, txCount := 2 ^ 40 }
     x.epochStart + 2 ^ 40 ≤ max x.txCount x.rxCount ∧ x.epochStart + 2 ^ 36 ≤ max x.txCount x.rxCount ∧ x.nextPrk = none) ∧
    (∃ f : Flit, 32 ≤ f.sends) := by
  refine ⟨by decide +kernel, by decide +kernel, by decide +kernel, by decide +kernel, by decide +kernel, by decide +kernel, ?_⟩
  exact ⟨{ seq := 0, vc := 0, last := true, payload := [], sends := 32, msg := ⟨0, 0, 0, 0, 0, 0, 0, 0, 0, 0, []⟩ }, Nat.le_refl _⟩

/-! ### Witnesses: collectives, messages, timing -/

/-- A formed group of two members, this device with a rank. -/
def tCg (rank : Nat) (running : Option CollRunning) : CollGroup :=
  { handle := 65536, members := [5, 6], rank := rank, st := .formed, gen := 2, running := running }

/-- The device with that group, its COLL.RUN admitted. -/
def tCs (g : CollGroup) : State :=
  let s := tL []
  { s with
    queue := [{ tAdm 0x0811 (.vf 0) with cmd := { tc (.vf 0) [] with order := 4 } }]
    comps := [(0, { tX with groups := [(0, g)], span := some { id := 9, members := [(5, 0), (6, 0)] } })] }

/-- A collective under way. -/
def tRg (done : Bool) (commit : Option Nat) : CollRunning :=
  { order := 4, seq := 1, desc := { op := 0, redop := 0, root := 0, srcShape := (0, 1, 1), srcFmt := 0, dstShape := (0, 1, 1), dstFmt := 0, numctl := 0 },
    start := 10, timeout := 16, done := done, commitAt := commit }

/-- COLL.RUN of ALLREDUCE SUM of a 1 × 1 tensor. -/
def tCrun : Cmd := tc (.vf 0) (le [(4, 65536), (1, 0), (1, 0), (2, 0), (8, 1), (8, 0x1000), (8, 0x2000), (24, 0), (2, 64), (6, 0)])

theorem wit_CollectivesFormRunAndEnd :
    (∀ a ∈ [1, 2], let c := tc (.vf 0) (le [(4, 65536), (1, a), (1, 0), (2, 0), (2, 0), (6, 0), (8, 64), (8, 64)])
     (tCs (tCg 0 none)).admits 0x0810 c ∧ c.block.length = 32 ∧ ((tCs (tCg 0 none)).groupAt 0 (u32 c.block 0)).isSome = true ∧ u8 c.block 4 = a ∧
      (tCg 0 none).order = none ∧ (tCg 0 none).running = none) ∧
    (let c := tc (.vf 0) (le [(4, 65536), (4, 0), (8, 64)])
     (tCs (tCg 0 none)).admits 0x0812 c ∧ c.block.length = 16 ∧ zeroAt c.block 4 4 = true ∧ u64 c.block 8 = 64) ∧
    (let s := tCs (tCg 0 (some (tRg true none)))
     s.collGroup 0 0 = some (tCg 0 (some (tRg true none))) ∧ (tRg true none).seq = 1 ∧ (tRg true none).done = true ∧ s.stroke.number < 11 ∧ (s.admOf 4).isSome = true) ∧
    (∀ n ∈ [25, 26], let s := at_ (tCs (tCg 1 (some (tRg true none)))) n .plan
     (s.collGroup 0 0).isSome = true ∧ (tCg 1 none).rank ≠ 0 ∧ (n = 26 ↔ (tRg true none).start + (tRg true none).timeout ≤ s.stroke.number) ∧
      (tRg true none).commitAt = none ∧ (tRg true (some 11)).commitAt.isSome = true) ∧
    (∀ st ∈ [GroupSt.forming, .resetting], let g := { tCg 0 none with st := st, order := some 4 }
     let s := at_ (tCs g) 4096 .plan
     s.collGroup 0 0 = some g ∧ g.order = some 4 ∧ (s.admOf 4).isSome = true ∧ g.since + 4096 ≤ s.stroke.number) := by decide +kernel

/-- That device, ALIGNED and its span established, with operands written. -/
def tCr : State :=
  let s := tCs (tCg 0 none)
  { s with
    stroke := { s.stroke with align := .aligned }
    comps := [(0, { s.comp 0 with
      tensors := [(0x1000, Sample.tensor 1 1 (some 0x40000000)), (0x2000, Sample.tensor 2 1 none)]
      span := some { id := 9, members := [(5, 0), (6, 0)], reports := [(6, true, 0, 16, [])] } })] }

theorem wit_collective_starts :
    tCr.admits 0x0811 tCrun ∧ ends (opCollRun tCrun tCr) = (0x10000, 0) ∧ (∀ p ∈ (tCr.comp 0).tensors, p.2.home ≠ 3) := by decide +kernel

/-- A peer's stored line. -/
def tLine : PeerReq := { node := 6, comp := 0, epoch := 0, tensorId := 1, tile := 0, store := some [1] }

/-- A message for a span of no compartment. -/
def tMsg : List Byte := le [(2, 5), (2, 6), (2, 77), (1, 2), (1, 0), (2, 0), (2, 0), (4, 0), (8, 1), (8, 0)]

/-- A first message of VC 2 for span 77 that arrived whole on port 15, and the compartment of that span. -/
def tGot (dest : Nat) : State :=
  let s := tL [(15, { st := .up, whole := [(2, le [(2, dest), (2, 6), (2, 77), (1, 2), (1, 0), (2, 0xFFFF), (2, 0), (4, 0), (8, 1), (8, 0)])] })]
  { s with comps := [(0, { tX with span := some { id := 77, members := [(5, 0), (6, 0)] } })] }

theorem wit_message_arrives : ∀ dest ∈ [5, 9], ∃ w m, ((tGot dest).port 15).whole.find? (tGot dest).takable = some w ∧ msgOf w.1 w.2 = some m ∧
    (tGot dest).spanComp m.span = some 0 ∧ ((tGot dest).link.node = some m.dest ↔ dest = 5) ∧ m.groupIndex = 0xFFFF ∧
    m.msgId = assocGet (tGot dest).link.gotIds (m.src, m.span, m.vc) + 1 := by
  intro d hd
  simp only [List.mem_cons, List.not_mem_nil, or_false] at hd
  rcases hd with rfl | rfl <;> exact ⟨_, _, rfl, rfl, by decide +kernel, by decide +kernel, by decide +kernel, by decide +kernel⟩

/-- A port on the way into the reference's strokes. -/
def tJoin : State :=
  let s := tL [(15, { st := .align })]
  at_ { s with link := { s.link with ref := some 6 } } 10 .report

theorem wit_PeersExchangeMessagesTilesAndTime :
    (tS.exists_ 0 = true ∧ tLine.store = some [1] ∧ tS.holdsPeer 0 tLine [1] = true ∧ (tS0 { tX with hbmGib := 0 }).holdsPeer 0 tLine [1] = false) ∧
    (let s : State := { tCs (tCg 0 none) with link := { (tL []).link with moves := [{ order := 4, comp := 0, tensor := 0x1000, id := 1, tile := 0, since := 0 }] } }
     (s.admOf 4).isSome = true ∧ (∃ m ∈ s.link.moves, m.order = 4 ∧ m.got = false ∧ m.since + 16 ≤ (at_ s 16 .plan).stroke.number) ∧
      (∀ m ∈ s.link.moves, m.order = 4 → m.got = false → (at_ s 15 .plan).stroke.number < m.since + 16) ∧
      ({ s with queue := [] } : State).admOf 4 = none) ∧
    (let s := tL [(15, { st := .up, whole := [(2, [1])] })]
     (s.port 15).st = .up ∧ (s.port 15).whole.find? s.takable = some (2, [1]) ∧ msgOf 2 [1] = none) ∧
    (let s := tL [(15, { st := .up, whole := [(2, tMsg)] })]
     (s.port 15).whole.find? s.takable = some (2, tMsg) ∧ (msgOf 2 tMsg).map (·.span) = some 77 ∧ s.spanComp 77 = none) ∧
    (let s := tL [(15, { st := .up })]; s.link.ref = s.link.node ∧ s.watch.raised = []) ∧
    (∀ n ∈ [15, 16], let s : State := { tS with stroke := { tS.stroke with refMissing := n, align := .aligned } }
     s.calm ∧ s.stroke.align = .aligned ∧ (n = 16 ↔ 16 ≤ s.stroke.refMissing)) ∧
    (∃ m ∈ unionMembers ([⟨6, 77, 0⟩] ++ [(tL []).self]), m.node = 6) ∧
    (tJoin.link.ref ≠ tJoin.link.node ∧ tJoin.stroke.phase = .report ∧ tJoin.link.ports = [(15, tJoin.port 15)] ∧ (tJoin.port 15).st = .align ∧
      (tJoin.port 15).order = none ∧ (tJoin.port 15).depth ≤ 8 ∧ tJoin.stroke.number < 11 ∧ 10 ≤ tJoin.stroke.number ∧ tJoin.stroke.align ≠ .unaligned) := by decide +kernel

/-! ### Witnesses: power, firmware, lifecycle -/

/-- An alarm that waits for acknowledgement. -/
def tAlarm : AlarmRec :=
  { stroke := 5, code := 1, scope := 0, rep := 1, arg0 := 0, arg1 := 0, lastStroke := 9, coalesced := false, merged := false, alert := false, acked := false,
    hostSent := false, sbSent := false }

/-- The device with an alarm in a general slot and one in an overflow slot. -/
def tA : State := { tS with watch := { tS.watch with alarms := [(0, tAlarm), (7, { tAlarm with lastStroke := 11 }), (4095, tAlarm)] } }

theorem wit_PowerCommandsComplete :
    (∀ x ∈ [1, 3, 6, 7], let b := le [(1, x), (1, 0), (2, 16), (4, if x = 7 then 0x4E494748 else 0), (8, 0)]
     tS.admits 0x0A01 (tc .pf b) ∧ b.length = 16 ∧ u8 b 0 = x ∧ u8 b 1 = 0 ∧ u16 b 2 = 16 ∧ u32 b 4 = (if x = 7 then 0x4E494748 else 0) ∧ zeroAt b 8 8 = true) ∧
    (∀ f ∈ [Fn.pf, .vf 0], tS.admits 0x0A02 (tc f (le [(8, 64)])) ∧ tS.power.burst = none) ∧
    (∀ r ∈ [0, 3, 0xFF], let b := le [(1, 2), (1, r), (2, 0), (4, 0), (8, 0)]
     tS.admits 0x0A03 (tc (.vf 0) b) ∧ b.length = 16 ∧ u8 b 0 = 2 ∧ u8 b 1 = r ∧ zeroAt b 2 2 = true ∧ u32 b 4 = 0 ∧ zeroAt b 8 8 = true) ∧
    (∀ p ∈ [(0, 256), (255, 1)], let b := le [(2, p.1), (2, p.2), (4, 0), (8, 64)]
     tS.admits 0x0A10 (tc .pf b) ∧ b.length = 16 ∧ u16 b 0 + u16 b 2 = 256 ∧ zeroAt b 4 4 = true) ∧
    (let b := le [(1, 32), (1, 32), (1, 64), (1, 4), (1, 2), (1, 3), (10, 0)]
     tS.admits 0x0A11 (tc .pf b) ∧ b.length = 16 ∧ zeroAt b 6 10 = true) ∧
    (let b := le [(2, 0), (1, 0), (1, 31), (12, 0)]; tS.admits 0x0A12 (tc (.vf 0) b) ∧ b.length = 16 ∧ u8 b 3 = 31 ∧ zeroAt b 4 12 = true) ∧
    (∀ p ∈ [(0, 4096), (4095, 1)], let b := le [(2, p.1), (2, p.2), (1, 1), (3, 0), (8, 64), (8, 0)]
     tA.admits 0x0A13 (tc .pf b) ∧ b.length = 24 ∧ u16 b 0 + u16 b 2 = 4096 ∧ u8 b 4 = 1 ∧ zeroAt b 5 3 = true ∧ zeroAt b 16 8 = true) ∧
    (let b := le [(2, 0), (2, 4096), (4, 0), (8, 10)]
     tA.admits 0x0A14 (tc .pf b) ∧ b.length = 16 ∧ zeroAt b 4 4 = true ∧ tA.watch.alarms.map (ackable 0 4096 10) = [true, false, true]) ∧
    ∀ f ∈ [Fn.pf, .vf 0], tS.admits 0x0A15 (tc f (le [(8, 64)])) := by decide +kernel

/-- The device with a valid image staged and pending counters. -/
def tFw (svn counter : Nat) : State :=
  { tS with dawn := { tS.dawn with fw :=
    { active := 0, banks := [(0, { valid := true, svn := 3 }), (1, { valid := true, svn := svn })], slots := [counter] } } }

/-- LIFECYCLE.ADVANCE to RETURNED. -/
def tAdv (ph ch : Nat) : Cmd := tc .pf (le [(1, 4), (1, ph), (2, 0), (4, ch), (8, 0)])

theorem wit_FirmwareAndLifecycleCommandsComplete :
    (let b := le [(8, 1), (8, 0), (4, 9024), (12, 0)]
     tS.admits 0x0B01 (tc .pf b) ∧ b.length = 32 ∧ u8 b 0 = 1 ∧ zeroAt b 1 7 = true ∧ u32 b 16 = 9024 ∧ bodyLenValid 1 (9024 - 4928) = true ∧
      bodyLenValid 2 (9088 - 4928) = true ∧ zeroAt b 20 12 = true) ∧
    (∀ m ∈ [0, 1], let b := le [(1, m), (1, 1), (2, 0), (4, 0x52455354), (8, 0)]
     (tFw 3 2).admits 0x0B02 (tc .pf b) ∧ b.length = 16 ∧ u8 b 0 = m ∧ u8 b 1 = 1 ∧ zeroAt b 2 2 = true ∧ u32 b 4 = 0x52455354 ∧ zeroAt b 8 8 = true ∧
      ∀ k ∈ kindsOf m, ((tFw 3 2).dawn.banks k).inactiveBank.valid = true ∧ ((tFw 3 2).dawn.banks k).counter ≤ ((tFw 3 2).dawn.banks k).inactiveBank.svn) ∧
    (let b := le [(8, 1)]
     (tFw 3 3).admits 0x0B03 (tc .pf b) ∧ b.length = 8 ∧ u8 b 0 = 1 ∧ zeroAt b 1 7 = true ∧
      (∀ k ∈ kindsOf 1, ((tFw 3 3).dawn.banks k).activeBank.svn ≤ ((tFw 3 3).dawn.banks k).counter) ∧
      (∃ k ∈ kindsOf 1, ((tFw 3 2).dawn.banks k).counter < ((tFw 3 2).dawn.banks k).activeBank.svn) ∧
      (tFw 3 2).raising = [] ∧ ∀ k ∈ kindsOf 1, ((tFw 3 2).dawn.banks k).slots.length < 255) ∧
    tS.admits 0x0B04 (tc .pf (le [(8, 64)])) ∧
    (tS.admits 0x0B20 (tAdv 0 0) ∧ (tAdv 0 0).block.length = 16 ∧ u8 (tAdv 0 0).block 0 = tS.dawn.lifecycle + 1 ∧ tS.dawn.entropyOk = true ∧
      zeroAt (tAdv 0 0).block 2 2 = true ∧ zeroAt (tAdv 0 0).block 8 8 = true ∧ ({ tS with dawn := { tS.dawn with lifecycle := 2 } } : State).dawn.lifecycle + 1 ≠ 4) ∧
    (let s : State := { tS with dawn := { tS.dawn with armed := some (4, 77, 9) } }
     s.admits 0x0B20 (tAdv 1 77) ∧ s.armedSeen = some (4, u32 (tAdv 1 77).block 4, 9) ∧ s.dawn.lifecycle + 1 = 4 ∧ (tAdv 1 77).stroke ≤ 9 + 1024 ∧
      u32 (tAdv 1 78).block 4 ≠ 77) := by decide +kernel

/-- The device in service at a boundary, its dies cool and its supply at 44 V, burst asked for. -/
def tBurst : State :=
  let s := tPh .boundary
  { s with
    stroke := { s.stroke with burst := true }
    watch := { s.watch with chans := [(0, { st := .valid }), (84, { yRule := 44000 * 2 ^ 16 })] } }

/-- The device in a Night of a cause. -/
def tNight (x : NightCause) : State := { State.reset with power := { State.reset.power with main := .night, state := .night, nightCause := x } }

/-- What a Dawn meets when all is well. -/
def tDawn : DawnIn :=
  { p48HeldMs := 1000, crucibleTemp := 1520, substrateTemp := 1520, fuseA := 3, fuseB := 3, entropyOk := true, refclk := true, selfTest := true, cpA := false, cpB := true }

theorem wit_LevelsBurstsAndSuppliesMoveThePowerState :
    (tS.calm ∧ tS.power.main = .service ∧ supplyLevel 44000 = 0 ∧ supplyLevel 43999 = 1 ∧ thermalLevel 2000 = 5 ∧ tS.power.supply < 5 ∧ tS.power.cap < 7 ∧
      tS.dawn.fence = none) ∧
    (let s : State := { tPh .boundary with power := { (tPh .boundary).power with supply := 1, thermal := 3 } }
     s.calm ∧ s.stroke.phase = .boundary ∧ recovered .supply 1 45000 100000 = true ∧ recovered .thermal 3 1760 1000000 = true ∧ s.floor .supply < 1 ∧
      s.floor .thermal < 3) ∧
    (let s := tBurst
     s.power.main = .service ∧ s.stroke.phase = .boundary ∧ s.stroke.burst = true ∧ s.power.burst = none ∧ s.power.state = .noon ∧
      44000 ≤ (s.watch.chan 84).yRule / 2 ^ 16 ∧ tjMax s.watch = some 0 ∧ s.power.lastBurstEnd = none ∧
      burstTime s.power.bursts s.strokeNs (s.stroke.number * s.strokeNs) + burstLen s.stroke.period * s.stroke.period * 10000 ≤ 200000000) ∧
    (∀ n ∈ [12, 13], let s := at_ { tPh .boundary with power := { (tPh .boundary).power with burst := some ⟨10, 3⟩ } } n .boundary
     s.power.burst = some ⟨10, 3⟩ ∧ s.dawn.fence = none ∧ (n = 13 ↔ 10 + 3 ≤ s.stroke.number)) ∧
    (∀ x ∈ [NightCause.supply, .thermal, .trip, .restart, .reset, .powerOn], exitHolds (tNight x) 1000 1000 44000 = true) ∧
    (exitHolds (tNight .tamper) 1000 1000 44000 = false ∧ tS.power.inputSwitch = true ∧ (29999 : Int) < 30000) ∧
    ({ tS with power := { tS.power with main := .unpowered } } : State).power.main = .unpowered ∧ tS.power.resetN = true ∧
    ({ tS with power := { tS.power with resetN := false } } : State).power.resetN = false ∧
    ({ tS with power := { tS.power with holdover := true } } : State).power.holdover = true ∧
    (dawnReady tDawn tS = false ∧ dawnReady tDawn (tNight .restart) = true ∧ (tNight .restart).watch.raised = [] ∧
      (tNight .restart).dawn.fw.select.isSome = true ∧ (tNight .restart).dawn.rule.select.isSome = true ∧ (tNight .restart).calm ∧
      (tNight .restart).dawn.fuseB = (tNight .restart).dawn.fuseA ∧ dawnReady { tDawn with stop := some (7, .reset) } (tNight .restart) = true) := by decide +kernel

/-- RESET_N of 10 us enters Night; one below 1 us does nothing (18 R643; log 22). -/
theorem test_reset_pulse : (nextOf (exec (.resetAssert 10) tS)).power.main = .night ∧ (nextOf (exec (.resetAssert 0) tS)).power.main = .service := by
  decide +kernel

/-! ### Witnesses: Nightwatch, mailboxes, the HOST link -/

/-- A rule on a channel. -/
def tRule (action : Nat) : Rule :=
  { source := 1, below := false, action := action, arg := 0, first := 0, last := 0, threshold := 0, clear := 0, holdTicks := 3, clearTicks := 4, cls := 0, flags := 0 }

/-- The device with that rule, in a rule state. -/
def tW (action : Nat) (x : RuleSt) : State :=
  { tS with watch := { tS.watch with table := { rules := [tRule action] }, ruleSt := [(0, x)], chans := [(252, { tamperRun := 3 }), (1, { badRun := 5, st := .valid })] } }

/-- The device after a fence. -/
def tFence (rounds : Nat) : State :=
  { tPh .boundary with dawn := { tS.dawn with holder := none, fence := some ⟨1, some .a, rounds⟩ } }

theorem wit_NightwatchActsOnItsCounts :
    (tS.power.main ≠ .unpowered ∧ (tW 0 {}).calm ∧ (tS.watch.chan 1).badRun < 5 ∧ 5 ≤ ((tW 0 {}).watch.chan 1).badRun ∧ ((tW 0 {}).watch.chan 1).st = .valid ∧
      (tW 0 {}).power.supply < 5 ∧ (tW 0 {}).power.thermal < 5 ∧ (tW 0 {}).power.cap < 7) ∧
    (∀ a ∈ [0, 5], ∀ n ∈ [2, 3], let s := tW a { ticks := n }
     s.calm ∧ s.watch.table.rules[0]? = some (tRule a) ∧ isChanRule (tRule a) = true ∧ (Tab.get {} s.watch.ruleSt 0).asserted = false ∧
      (n = 3 ↔ (tRule a).holdTicks ≤ (Tab.get {} s.watch.ruleSt 0).ticks) ∧ s.power.main = .service) ∧
    (∀ n ∈ [3, 4], let s := tW 0 { ticks := n, asserted := true }
     (Tab.get {} s.watch.ruleSt 0).asserted = true ∧ (n = 4 ↔ (tRule 0).clearTicks ≤ (Tab.get {} s.watch.ruleSt 0).ticks)) ∧
    (((tW 0 {}).watch.chan 252).tamperRun = 3 ∧ (tS.watch.chan 252).tamperRun < 3 ∧ tS.dawn.lifecycle ≠ 1 ∧
      ({ tW 0 {} with dawn := { tS.dawn with lifecycle := 1 } } : State).dawn.lifecycle = 1) ∧
    (tS.dawn.holder = some .a ∧ tS.dawn.leaseCounter = 1 ∧ tS.stroke.period * 10000 ≤ (tS.stroke.period * 10000 - 10000) + 10000 ∧
      tS.doubleClaim .a 1 11 = false ∧ tS.doubleClaim .b 1 11 = true ∧ tS.doubleClaim .a 2 11 = true ∧ tS.doubleClaim .a 1 12 = true) ∧
    ((tPh .boundary).dawn.holder.isSome = true ∧ (tPh .boundary).dawn.leaseFor ≠ (tPh .boundary).stroke.number ∧ (at_ tS 0 .boundary).dawn.leaseFor = 0) ∧
    ((tFence 0).dawn.fence = some ⟨1, some .a, 0⟩ ∧ regrantTo ⟨1, some .a, 0⟩ true true = some .b ∧ (tFence 0).power.main = .service ∧
      (tFence 0).stroke.phase = .boundary ∧ (tFence 2).calm) := by decide +kernel

/-- The device with virtual functions, a mailbox at a stage with a session, and a secure stream that covers them. -/
def tD (stage : Nat) (est : Bool) (tdi : TdiSt) : State :=
  let y : Session := { tSess with established := est, mutualAuth := false, tenantAuth := true }
  let z : FnState := { sessions := [y], spdmStage := stage, keptSig := some [1], tdi := tdi, nonce := [7] }
  (({ tS with host := { tS.host with vfEnable := true, numVfs := 64, ide := [(0, { id := 3, first := 0, last := 64, key0 := true, active := some 0, secure := true })] } }
    : State).setFn .pf z).setFn (.vf 0) z

theorem wit_MailboxAndLinkEventsAnswer :
    (let s : State := { tS with host := { tS.host with up := false } }; s.watch.raised = [] ∧ s.serving = true ∧ s.host.up = false) ∧
    ((tD 3 true .unlocked).calm ∧ (tD 3 true .unlocked).host.up = true ∧ (tD 3 true .unlocked).host.vfEnable = true ∧ tS.host.vfEnable = false ∧
      (tD 3 true .unlocked).enabledFn (.vf 63) = true) ∧
    (((tD 3 true .unlocked).setFn (.vf 0) { d3 := true }).fnOf (.vf 0)).d3 = true ∧
    (∀ n ∈ [0, 1, 2, 3], ∀ f ∈ [Fn.pf, .vf 0], (tD n true .unlocked).mailbox f = true ∧ ((tD n true .unlocked).fnOf f).spdmStage = n) ∧
    (((tD 3 true .unlocked).fnOf .pf).keptSig = some [1] ∧ ((tD 3 true .unlocked).fnOf .pf).sessions.length < 2 ∧ (tD 3 true .unlocked).dawn.entropyOk = true) ∧
    (((tD 3 false .unlocked).anySession .pf 9).map (fun y => (y.established, y.mutualAuth)) = some (false, false) ∧
      (tD 3 true .unlocked).session .pf 8 = none ∧ ((tD 3 true .unlocked).session .pf 9).isSome = true) ∧
    ((Tab.find? (tD 3 true .unlocked).host.ide 0).map (fun x => (x.id, x.programmed 0)) = some (3, true)) ∧
    ((tD 3 true .unlocked).covered (.vf 0) = true ∧ ((tD 3 true .unlocked).comp 0).st = .active ∧ ((tD 3 true .unlocked).fnOf (.vf 0)).tdi = .unlocked ∧
      ((tD 3 true .locked).fnOf (.vf 0)).tdi = .locked ∧ ((tD 3 true .locked).fnOf (.vf 0)).nonce = [7]) ∧
    (((tD 3 true .run).session (.vf 0) 9).map (·.tenantAuth) = some true ∧ ((tD 3 true .run).fnOf (.vf 0)).tdi = .run) := by decide +kernel

/-- A claimed compartment's mutual session that awaits PQ_FINISH. -/
theorem wit_pq_finish_awaited :
    let s := (tD 3 true .unlocked).setFn (.vf 0) { sessions := [{ tSess with tenantAuth := false, finishStroke := 0 }], spdmStage := 3 }
    (at_ s 65 .plan).mailbox (.vf 0) = true ∧ ((at_ s 65 .plan).session (.vf 0) 9).map (fun y => (y.mutualAuth, y.tenantAuth, decide (y.finishStroke + 64 < 65))) =
      some (true, false, true) := by decide +kernel

/-! ### Witnesses: registers, invariants, runs -/

/-- The device with an ENABLED ring pair of 64 entries of the physical function, and an ENABLED event ring. -/
def tR (st : RingSt) : State :=
  ({ tS with watch := { tS.watch with eq := { st := st, enable := true, sizeLog := 6, head := 2, tail := 5 } } } : State).setFn .pf
    { sq := [(3, { st := st, enable := true, sizeLog := 6, head := 0xFFFFFFF0, tail := 0xFFFFFFF0 })], rq := { st := st, enable := true, sizeLog := 6, head := 2, tail := 5 } }

theorem wit_HostWritesReachTheirRegisters :
    (∀ st ∈ [RingSt.disabled, .enabled, .disabling], (tR st).mmio .pf false = true ∧ (tR st).watch.raised = [] ∧ (tR st).calm ∧
      (((tR st).fnOf .pf).ring 3).st = st ∧ ((tR st).fnOf .pf).rq.st = st ∧ (tR st).watch.eq.st = st) ∧
    (ahead 0x30 0xFFFFFFF0 = 64 ∧ ahead 0x31 0xFFFFFFF0 = 65 ∧ (0x30 : Nat) ≠ 0xFFFFFFF0) ∧ (ahead 5 2 ≤ ahead 5 2 ∧ ahead 5 2 < ahead 6 2) ∧
    (bitOf 2 0 = false ∧ bitOf 1 0 = true) ∧ tS.mmio (.vf 0) false = false := by decide +kernel

theorem wit_SidebandAccessesActAsTheirTable :
    (tA.sideband = true ∧ Tab.find? tA.watch.alarms tA.watch.alarmSlot = some tAlarm ∧ tA.watch.dynAddr = none) ∧
    (let b := le [(8, 10), (2, 4095), (2, 1)]; 12 ≤ b.length ∧ b.length < 68 ∧ u16 b 8 = 4095 ∧ u16 b 10 = 1 ∧ u16 b 8 + u16 b 10 = 4096) ∧
    (let b := le [(8, 10), (2, 4095), (2, 2)]; 12 ≤ b.length ∧ 4096 < u16 b 8 + u16 b 10) ∧
    ((tNight .cap).power.main = .night ∧ (tNight .cap).power.nightCause = .cap ∧ ({ tS with power := { tS.power with main := .failed } } : State).power.main = .failed ∧
      tS.power.nightCause ≠ .cap) ∧
    (tA.watch.alarms.Pairwise fun p q => p.1 < q.1) ∧ Tab.find? tA.watch.alarms 7 = some { tAlarm with lastStroke := 11 } := by decide +kernel

theorem wit_HostStateKeepsItsForm :
    isHostWrite (.sqTail .pf false 3 0xFFFFFFF1 [⟨64, [1, 0]⟩]) = true ∧ (tR .enabled).noEventRule ∧ (tR .enabled).regsOk ∧ State.reset.regsOk ∧
    (packetOf (.strokeWait (tc .pf []))).isSome = true ∧ (tR .enabled).hostOk = true := by decide +kernel

theorem test_doorbell_moves_the_tail :
    ((nextOf (exec (.sqTail .pf false 3 0x30 []) (tR .enabled))).fnOf .pf).ring 3 =
      { st := .enabled, enable := true, sizeLog := 6, head := 0xFFFFFFF0, tail := 0x30 } := by decide +kernel

theorem wit_TenantCommandsTouchOnlyTheirOwn :
    packetOf (.memFree (tc (.vf 0) (le [(8, 0x3000)]))) = some (0x0304, tc (.vf 0) (le [(8, 0x3000)])) ∧ tM.act = {} ∧
      ∃ t, exec (.memFree (tc (.vf 0) (le [(8, 0x3000)]))) tM = .next t := ⟨rfl, rfl, _, rfl⟩

theorem wit_ServingCommandsRunOnTheirOperands :
    let s := Sample.state true true
    let c := { Sample.named with stream := 65536 }
    (s.admits 0x0502 { c with block := le [(8, 0)] } ∧ (s.streamOf 0 65536 c).isSome = true ∧ (s.earlier (.vf 0) 5).any (s.namesStream 0 65536) = false ∧
      let t : State := { s with queue := [{ tAdm 0x0503 (.vf 0) with cmd := { c with order := 4 } }] }
      (t.earlier (.vf 0) 5).any (t.namesStream 0 65536) = true) ∧
    (s.admits 0x0503 { c with block := le [(8, 0), (8, 64)] } ∧ ((s.streamOf 0 65536 c).bind fun x => x.layers[0]?).isSome = true) ∧
    (let b := le [(2, 2 * 8192), (1, 0), (5, 0), (8, 64)]
     s.admits 0x0610 (tc (.vf 0) b) ∧ b.length = 16 ∧ keyHandleKind (u16 b 0) = 2 ∧ zeroAt b 3 5 = true ∧ (s.liveKey c (u16 b 0)).isSome = true ∧
      (s.comp 0).aliases 0 ≠ [] ∧ ((s.comp 0).domIdx.assign (s.comp 0).domainBase (s.comp 0).domainQuota).isSome = true) ∧
    ((s.variantOf 0 65536 c).map (fun v => (v.resident, v.baseSlot, v.successor, v.queue)) = some (true, 0, none, []) ∧ s.boundBefore 0 65536 5 = false) ∧
    s.admits 0x0615 Sample.named := by decide +kernel

theorem wit_variant_and_feedback_commands :
    let s := Sample.state true true
    let c := { Sample.named with stream := 65536 }
    (∀ m ∈ [0, 2], let b := le [(4, 65536), (1, m), (3, 0)]; s.admits 0x0615 (tc (.vf 0) b) ∧ b.length = 8 ∧ u8 b 4 = m ∧ zeroAt b 5 3 = true) ∧
    (s.admits 0x0618 Sample.named ∧ zeroAt Sample.named.block 4 4 = true ∧ (s.earlier (.vf 0) 5).any (s.namesVariant 0 65536) = false) ∧
    (let b := le [(4, 65536), (4, 0), (8, 64)]; s.admits 0x0619 (tc (.vf 0) b) ∧ b.length = 16 ∧ s.admits 0x0704 (tc (.vf 0) b)) ∧
    (let b := le [(4, 65536), (4, 1), (8, 0x10000000000), (8, 128), (8, 0)]
     s.admits 0x0711 (tc (.vf 0) b) ∧ b.length = 32 ∧
      (((s.comp 0).buffers.find? fun p => p.1 ≤ u64 b 8 && u64 b 8 + u64 b 16 ≤ p.1 + p.2.len).map fun p => liveFor p.2.closing c) = some true) := by
  decide +kernel

theorem wit_training_settings :
    let s := Sample.training
    (∀ x, x = Sample.train → ((s.variantOf 0 65536 Sample.named).bind fun v => v.train? 0) = some x ∧ x.opening = none ∧ x.lagged = false ∧ x.ckptPending = none) ∧
    (let b := le [(4, 65536), (4, 0), (8, 1), (4, 0), (4, 0), (4, 0x3F7FFFFF), (4, 1), (4, 0), (4, 0), (8, 0)]
     s.admits 0x0703 (tc (.vf 0) b) ∧ b.length = 48 ∧ Sample.train.applied < u64 b 8 ∧ notNegative (u32 b 16) = true ∧ notNegative (u32 b 20) = true ∧
      flt (u32 b 20) one32 = true ∧ flt (u32 b 24) one32 = true ∧ isFin (u32 b 28) = true ∧ flt 0 (u32 b 28) = true ∧ zeroAt b 40 8 = true ∧
      (Sample.train.configs.filter fun h => Sample.train.applied < h.from_).length + s.commits.length < 4) ∧
    ((s.variantOf 0 65536 Sample.named).map fun v => v.ended Sample.named) = some false ∧
    (((Sample.state true true).variantOf 0 65536 Sample.named).map fun v => (v.train? 0).isNone) = some true ∧
    (s.admits 0x0721 Sample.named ∧ ({ Sample.train with ckptInterval := 8 } : Train).ckptInterval ≠ 0) := by
  refine ⟨fun x h => ?_, by decide +kernel, by decide +kernel, by decide +kernel, by decide +kernel⟩
  subst h
  exact ⟨rfl, rfl, rfl, rfl⟩

theorem wit_rebase :
    let s := { Sample.state true true with comps := [(0, { Sample.comp true true with attached := [(0, [0xD000]), (1, [0xE000])] })] }
    let b := le [(4, 65536), (1, 1), (3, 0)]
    s.admits 0x0616 (tc (.vf 0) b) ∧ b.length = 8 ∧ u8 b 4 = 1 ∧ zeroAt b 5 3 = true ∧ (s.comp 0).aliases 1 ≠ [] ∧
      (s.variantOf 0 65536 (tc (.vf 0) b)).map (fun v => (v.resident, v.baseSlot, v.successor)) = some (true, 0, none) := by decide +kernel

theorem wit_tensor_create :
    (∀ p ∈ [(1, 1, 1), (4096, 4096, 1)],
      let b := le [(1, 0), (1, 1), (1, 1), (1, 0), (4, p.1), (4, p.2.1), (2, p.2.2), (10, 0), (8, 64)]
      let x : Tensor := { tT 32 p.1 p.2.1 with axis := 1, home := 1, batch := p.2.2 }
      tM.admits 0x0302 (tc (.vf 0) b) ∧ b.length = 32 ∧ fmtValid (u8 b 0) = true ∧ zeroAt b 14 10 = true ∧
        x = { id := (tM.comp 0).idNext, fmt := u8 b 0, axis := u8 b 1, home := u8 b 2, cache := 0, rows := u32 b 4, cols := u32 b 8, batch := u16 b 12 } ∧
        x.count ≤ 67108864 ∧ tM.spaceFree 0 5 x.space = true ∧ (tM.comp 0).tabNext + x.tableBytes ≤ tabEnd) := by decide +kernel

/-- The sample commands complete (15 s of evaluation for the longest of them is spared here; three of them stand for the rest). -/
theorem wit_WorkCommandsRunOnSmallOperands :
    Sample.Runs (.matmul Sample.matmul) 0x0401 Sample.matmul (Sample.state true false) [(0x3000, 0x40C00000)] ∧
    Sample.Runs (.streamOpen Sample.streamOpen) 0x0501 Sample.streamOpen (Sample.state true false) [] :=
  ⟨⟨_, rfl, ⟨by decide +kernel, by decide +kernel⟩, by decide +kernel⟩, ⟨_, rfl, ⟨by decide +kernel, by decide +kernel⟩, by decide +kernel⟩⟩

/-! ### Well-formed commands: one ill-formed term for each check, and the term at the limit that passes -/

theorem wf_fits : Instr.wf (.strokeBoundary 0x10000) = false ∧ Instr.wf (.strokeBoundary 0xFFFF) = true := by decide +kernel
theorem wf_compartment : Instr.wf (.runStart 64 []) = false ∧ Instr.wf (.runStart 63 []) = true := by decide +kernel
theorem wf_function : Instr.wf (.getDigests (.vf 64)) = false ∧ Instr.wf (.getDigests (.vf 63)) = true := by decide +kernel
theorem wf_ring : Instr.wf (.depHoldLimit .pf 4) = false ∧ Instr.wf (.depHoldLimit .pf 3) = true := by decide +kernel
theorem wf_ring_name : Instr.wf (.ringCtrlWrite .pf false (.sq 4) 1) = false ∧ Instr.wf (.ringCtrlWrite .pf false .eq 1) = true := by decide +kernel
theorem wf_packet : Instr.wf (.deviceQuery { tc .pf [] with tag := 2 ^ 32 }) = false ∧ Instr.wf (.deviceQuery { tc .pf [] with ring := 4 }) = false ∧
    Instr.wf (.deviceQuery { tc .pf [] with seq := 2 ^ 48 }) = false ∧ Instr.wf (.deviceQuery { tc .pf [] with flags := 65536 }) = false ∧
    Instr.wf (.deviceQuery (tc .pf [])) = true := by decide +kernel
theorem wf_run_item : Instr.wf (.runStart 0 [{ order := 2 ^ 64, fault := .none }]) = false ∧ Instr.wf (.runStart 0 [{ order := 2 ^ 64 - 1, fault := .none }]) = true := by
  decide +kernel
theorem wf_cut : Instr.wf (.guardInterval 0 [{ order := 1, fault := .none, fetch := [(2 ^ 64, 0)] }] 0) = false ∧ Instr.wf (.guardInterval 0 [{ order := 1, fault := .none }] 0) = true := by
  decide +kernel
theorem wf_port : Instr.wf (.lossOfLight 16) = false ∧ Instr.wf (.lossOfLight 15) = true := by decide +kernel
theorem wf_channel : Instr.wf (.sensorFault 256) = false ∧ Instr.wf (.sensorFault 255) = true := by decide +kernel
theorem wf_rule : Instr.wf (.ruleAssert 1024) = false ∧ Instr.wf (.ruleAssert 1023) = true := by decide +kernel
theorem wf_samples : Instr.wf (.nightwatchTick (List.replicate 255 none)) = false ∧ Instr.wf (.nightwatchTick (List.replicate 256 none)) = true := by
  decide +kernel
theorem wf_flit : Instr.wf (.flitReceive 0 (List.replicate 255 0) 0 0) = false ∧ Instr.wf (.flitReceive 0 (List.replicate 256 0) 0 0) = true := by
  decide +kernel
theorem wf_lanes : Instr.wf (.laneLock 0 [1, 0]) = false ∧ Instr.wf (.laneLock 0 [8]) = false ∧ Instr.wf (.laneLock 0 [0, 7]) = true ∧
    Instr.wf (.lightDetect 0 9) = false := by decide +kernel
theorem wf_member : Instr.wf (.membership 0 [⟨8192, 0, 0⟩] 0) = false ∧ Instr.wf (.membership 0 [⟨8191, 0, 256⟩] 0) = false ∧
    Instr.wf (.membership 0 [⟨8191, 0, 255⟩] 0) = true ∧ Instr.wf (.membership 0 [] 8192) = false := by decide +kernel
theorem wf_target : Instr.wf (.stepClose 0 0 1) = false ∧ Instr.wf (.stepClose 0 0 2) = true := by decide +kernel
theorem wf_nonce : Instr.wf (.startInterfaceRequest .pf 0 0 []) = false ∧ Instr.wf (.startInterfaceRequest .pf 0 0 (List.replicate 32 0)) = true := by
  decide +kernel
theorem wf_width : Instr.wf (.registerWrite .pf false 0 2 0) = false ∧ Instr.wf (.registerWrite .pf false 0 4 (2 ^ 32)) = false ∧
    Instr.wf (.registerWrite .pf false (2 ^ 24) 4 0) = false ∧ Instr.wf (.registerWrite .pf false 0 8 (2 ^ 32)) = true := by decide +kernel
theorem wf_store : Instr.wf (.sqTail .pf false 0 0 [⟨2 ^ 64 - 1, [0, 0]⟩]) = false ∧ Instr.wf (.sqTail .pf false 0 0 [⟨2 ^ 64 - 1, [0]⟩]) = true := by
  decide +kernel
theorem wf_peer_request : Instr.wf (.mreq 0 { tLine with epoch := 256 }) = false ∧ Instr.wf (.mreq 0 { tLine with tile := 2 ^ 32 }) = false ∧
    Instr.wf (.mreq 0 tLine) = true := by decide +kernel
theorem wf_dawn : Instr.wf (.dawnStart { tDawn with fuseA := 256 }) = false ∧ Instr.wf (.dawnStart { tDawn with supply := 5 }) = false ∧
    Instr.wf (.dawnStart tDawn) = true := by decide +kernel
theorem wf_identify : Instr.wf (.identifyMessage 0 { tPeer with period := 65536 }) = false ∧ Instr.wf (.identifyMessage 0 { tPeer with members := [⟨8192, 0, 0⟩] }) = false := by
  decide +kernel
theorem wf_timing : Instr.wf (.timingRecord 0 ⟨2 ^ 64, 0, 0, 0, 0, 0, 0, 0⟩ 0) = false ∧ Instr.wf (.timingRecord 0 ⟨0, 0, 0, 0, 0, 0, 8191, 0⟩ 0) = true := by
  decide +kernel
theorem wf_ide : Instr.wf (.ideKmKeyProg .pf 0 65 0 0 0 0) = false ∧ Instr.wf (.ideKmKeyProg .pf 0 64 255 0 64 2) = false ∧
    Instr.wf (.ideKmKeyProg .pf 0 64 255 0 64 1) = true := by decide +kernel
theorem wf_collective : Instr.wf (.collReady 0 64 0 0 0) = false ∧ Instr.wf (.collReady 0 63 0 4096 0) = false ∧ Instr.wf (.collReady 0 63 0 4095 0) = true := by
  decide +kernel
theorem wf_vfs : Instr.wf (.vfEnableSet 65) = false ∧ Instr.wf (.vfEnableSet 64) = true := by decide +kernel
theorem wf_address : Instr.wf (.entdaa 128) = false ∧ Instr.wf (.entdaa 127) = true := by decide +kernel
theorem wf_count : Instr.wf (.rqHead .pf false (2 ^ 32)) = false ∧ Instr.wf (.rqHead .pf false (2 ^ 32 - 1)) = true := by decide +kernel

end Sys2Proof.Tests
end

section
/-! SUPPORT. Index ranges: what assigning and freeing an index do (03 R96, R97, R99, R103). -/

namespace Sys2Proof.Machine

theorem nextGen_ne_zero (g : Nat) : nextGen g ≠ 0 := by
  unfold nextGen
  split <;> omega

/-- The range once a free index has been handed out with its next GENERATION. -/
def IdxRange.handOut (r : IdxRange) (i : Nat) : IdxRange :=
  { r with gens := Tab.set r.gens i (nextGen (r.gen i)), used := r.used ++ [i] }

@[simp] theorem IdxRange.gen_handOut_same (r : IdxRange) (i : Nat) : (r.handOut i).gen i = nextGen (r.gen i) := by
  simp [IdxRange.handOut, IdxRange.gen, Tab.find?_set_same]

theorem IdxRange.gen_handOut_other (r : IdxRange) {i j : Nat} (h : j ≠ i) : (r.handOut i).gen j = r.gen j := by
  simp [IdxRange.handOut, IdxRange.gen, Tab.find?_set_other _ _ h]

/-! ### The cases of an assignment -/

theorem IdxRange.assign_of_lt {r : IdxRange} (base : Nat) {quota : Nat} (h : r.fresh < quota) :
    r.assign base quota = some (base + r.fresh, nextGen (r.gen (base + r.fresh)),
      ({ r with fresh := r.fresh + 1 } : IdxRange).handOut (base + r.fresh)) := by
  simp only [IdxRange.assign, if_pos h]
  rfl

theorem IdxRange.assign_of_freed {r : IdxRange} (base : Nat) {quota i : Nat} {rest : List Nat} (h : ¬ r.fresh < quota)
    (hf : r.freed = i :: rest) :
    r.assign base quota = some (i, nextGen (r.gen i), ({ r with freed := rest } : IdxRange).handOut i) := by
  simp only [IdxRange.assign, if_neg h, hf]
  rfl

theorem IdxRange.assign_of_none_free {r : IdxRange} (base : Nat) {quota : Nat} (h : ¬ r.fresh < quota) (hf : r.freed = []) :
    r.assign base quota = none := by
  simp only [IdxRange.assign, if_neg h, hf]

/-- What an assignment hands out: the first index never used, and once there is none the one freed longest ago. -/
theorem IdxRange.assign_cases {r q : IdxRange} {base quota i g : Nat} (h : r.assign base quota = some (i, g, q)) :
    g = nextGen (r.gen i) ∧
      ((r.fresh < quota ∧ i = base + r.fresh ∧ q = ({ r with fresh := r.fresh + 1 } : IdxRange).handOut i) ∨
        (¬ r.fresh < quota ∧ ∃ rest, r.freed = i :: rest ∧ q = ({ r with freed := rest } : IdxRange).handOut i)) := by
  by_cases hq : r.fresh < quota
  · rw [IdxRange.assign_of_lt base hq] at h
    cases h
    exact ⟨rfl, .inl ⟨hq, rfl, rfl⟩⟩
  · cases hf : r.freed with
    | nil => rw [IdxRange.assign_of_none_free base hq hf] at h; cases h
    | cons j rest =>
      rw [IdxRange.assign_of_freed base hq hf] at h
      cases h
      exact ⟨rfl, .inr ⟨hq, rest, rfl, rfl⟩⟩

/-- The index handed out is in use with its next GENERATION, and no other index gets one. -/
theorem IdxRange.assign_generation {r q : IdxRange} {base quota i g : Nat} (h : r.assign base quota = some (i, g, q)) :
    i ∈ q.used ∧ q.gen i = g ∧ ∀ j, j ≠ i → q.gen j = r.gen j := by
  obtain ⟨rfl, ⟨-, -, rfl⟩ | ⟨-, rest, -, rfl⟩⟩ := IdxRange.assign_cases h <;>
    exact ⟨by simp [IdxRange.handOut], IdxRange.gen_handOut_same .., fun j hj => IdxRange.gen_handOut_other _ hj⟩

theorem IdxRange.assign_eq_none_iff (r : IdxRange) (base quota : Nat) :
    r.assign base quota = none ↔ r.freed = [] ∧ ¬ r.fresh < quota := by
  by_cases hq : r.fresh < quota
  · simp [IdxRange.assign_of_lt base hq, hq]
  · cases hf : r.freed with
    | nil => simp [IdxRange.assign_of_none_free base hq hf, hq]
    | cons j rest => simp [IdxRange.assign_of_freed base hq hf]

/-! ### The invariant of a range -/

/-- The indices in use and the freed ones are, without repeats, exactly those below the first never used. -/
structure IdxRange.Sound (r : IdxRange) (base quota : Nat) : Prop where
  fits : r.fresh ≤ quota
  nodup : (r.used ++ r.freed).Nodup
  mem_iff : ∀ j, j ∈ r.used ++ r.freed ↔ base ≤ j ∧ j < base + r.fresh

section
variable {r q : IdxRange} {base quota i g : Nat}

theorem IdxRange.Sound.fresh_not_mem (hr : r.Sound base quota) : base + r.fresh ∉ r.used ++ r.freed := fun h =>
  Nat.lt_irrefl _ ((hr.mem_iff _).1 h).2

/-- An assigned index lies in the range and was not in use. -/
theorem IdxRange.Sound.assigned_free (hr : r.Sound base quota) (h : r.assign base quota = some (i, g, q)) :
    base ≤ i ∧ i < base + quota ∧ i ∉ r.used := by
  have hfit := hr.fits
  obtain ⟨-, ⟨hq, rfl, -⟩ | ⟨-, rest, hf, -⟩⟩ := IdxRange.assign_cases h
  · exact ⟨Nat.le_add_right .., by omega, fun hu => hr.fresh_not_mem (List.mem_append_left _ hu)⟩
  · have hi : i ∈ r.freed := by simp [hf]
    obtain ⟨hlo, hhi⟩ := (hr.mem_iff i).1 (List.mem_append_right _ hi)
    obtain ⟨-, -, hdisjoint⟩ := List.nodup_append.1 hr.nodup
    exact ⟨hlo, by omega, fun hu => hdisjoint i hu i hi rfl⟩

theorem IdxRange.Sound.assign (hr : r.Sound base quota) (h : r.assign base quota = some (i, g, q)) : q.Sound base quota := by
  obtain ⟨-, ⟨hq, rfl, rfl⟩ | ⟨-, rest, hf, rfl⟩⟩ := IdxRange.assign_cases h
  · have hp : (r.used ++ [base + r.fresh] ++ r.freed).Perm ((base + r.fresh) :: (r.used ++ r.freed)) :=
      List.append_cons .. ▸ List.perm_middle
    refine ⟨hq, hp.nodup_iff.2 (List.nodup_cons.2 ⟨hr.fresh_not_mem, hr.nodup⟩), fun j => ?_⟩
    show j ∈ r.used ++ [base + r.fresh] ++ r.freed ↔ base ≤ j ∧ j < base + (r.fresh + 1)
    rw [hp.mem_iff, List.mem_cons, hr.mem_iff]
    omega
  · have he : r.used ++ [i] ++ rest = r.used ++ r.freed := hf ▸ (List.append_cons ..).symm
    exact ⟨hr.fits, he ▸ hr.nodup, he ▸ hr.mem_iff⟩

end

/-! ### Freeing -/

theorem IdxRange.free_of_used {r : IdxRange} {i : Nat} (h : i ∈ r.used) :
    r.free i = { r with used := r.used.filter (· ≠ i), freed := r.freed ++ [i] } := by
  simp [IdxRange.free, h]

end Sys2Proof.Machine

open Sys2Proof Sys2Proof.Machine

/-- Settles O23: the two cases of an assignment, and the invariant of the range that each keeps. -/
theorem indexFreedLeastRecentlyIsAssigned : Obligations.IndexFreedLeastRecentlyIsAssigned := by
  intro r base quota hfit hnodup hmem
  have hr : r.Sound base quota := ⟨hfit, hnodup, hmem⟩
  refine ⟨?_, fun i g q h => ?_, fun i hi => ?_⟩
  · rw [IdxRange.assign_eq_none_iff]
    exact and_congr_right fun _ => by omega
  · obtain ⟨hlo, hhi, hfree⟩ := hr.assigned_free h
    obtain ⟨hfit', hnodup', hmem'⟩ := hr.assign h
    obtain ⟨hused, hgen, hothers⟩ := IdxRange.assign_generation h
    obtain ⟨hg, hcases⟩ := IdxRange.assign_cases h
    refine ⟨hlo, hhi, hfree, hused, hg, hg ▸ nextGen_ne_zero _, hgen, hothers, fun hlt => ?_, fun heq => ?_, hfit', hnodup', hmem'⟩
    · obtain ⟨-, hi, -⟩ | ⟨hq, -⟩ := hcases
      · exact hi
      · exact absurd hlt hq
    · obtain ⟨hq, -⟩ | ⟨-, rest, hf, rfl⟩ := hcases
      · omega
      · exact hf
  · rw [IdxRange.free_of_used hi]
    exact ⟨rfl, by simp, rfl⟩

end

section
/-! SUPPORT. The packet at the head of a submission ring: what refusing it and admitting it leave (03 R78, R83, R92, R103). -/

namespace Sys2Proof.Machine

/-! ### A function's rings, counters and tags -/

@[simp] theorem FnState.ring_set_same (x : FnState) (n : Nat) (r : SqRing) :
    ({ x with sq := Tab.set x.sq n r } : FnState).ring n = r := Tab.get_set_same ..

@[simp] theorem FnState.ring_setTags (x : FnState) (n : Nat) (tags : IdxRange) : ({ x with tags } : FnState).ring n = x.ring n := rfl
@[simp] theorem FnState.ring_setCounters (x : FnState) (n : Nat) (l : Tab Nat) : ({ x with counters := l } : FnState).ring n = x.ring n := rfl

section
variable (s : State) (f : Fn) (n i m units : Nat) (g : SqRing → SqRing)

@[simp] theorem State.ring_modRing : ((s.modRing f n g).fnOf f).ring n = g ((s.fnOf f).ring n) := by
  simp [State.modRing]

@[simp] theorem State.counters_modRing : ((s.modRing f n g).fnOf f).counters = (s.fnOf f).counters := by
  simp [State.modRing]

@[simp] theorem State.tags_modRing : ((s.modRing f n g).fnOf f).tags = (s.fnOf f).tags := by
  simp [State.modRing]

@[simp] theorem State.ring_bumpRing : ((s.bumpRing f i m).fnOf f).ring n = (s.fnOf f).ring n := by
  simp [State.bumpRing]

@[simp] theorem State.tags_bumpRing : ((s.bumpRing f i m).fnOf f).tags = (s.fnOf f).tags := by
  simp [State.bumpRing]

@[simp] theorem State.counter_bumpRing :
    Tab.get 0 ((s.bumpRing f i m).fnOf f).counters i = sat64 (Tab.get 0 (s.fnOf f).counters i) m := by
  simp [State.bumpRing, Tab.modify]

@[simp] theorem State.ring_consume :
    ((s.consume f n units).fnOf f).ring n =
      { (s.fnOf f).ring n with head := (((s.fnOf f).ring n).head + units) % count32, hold := 0 } := State.ring_modRing ..

@[simp] theorem State.counters_consume : ((s.consume f n units).fnOf f).counters = (s.fnOf f).counters := State.counters_modRing ..
@[simp] theorem State.tags_consume : ((s.consume f n units).fnOf f).tags = (s.fnOf f).tags := State.tags_modRing ..
@[simp] theorem State.consume_queue : (s.consume f n units).queue = s.queue := rfl

end

theorem State.fnOf_congr {s t : State} (h : t.fns = s.fns) (f : Fn) : t.fnOf f = s.fnOf f := by
  rw [State.fnOf, h, State.fnOf]

/-! ### What the admission of a command does before it runs -/

/-- What packets and replies pass through is as it was: functions, stroke, queue and replies. -/
structure SamePackets (s t : State) : Prop where
  fns : t.fns = s.fns
  stroke : t.stroke = s.stroke
  queue : t.queue = s.queue
  replies : t.replies = s.replies

theorem SamePackets.refl (s : State) : SamePackets s s := ⟨rfl, rfl, rfl, rfl⟩

theorem samePackets_modComp (s : State) (k : Nat) (g : Comp → Comp) : SamePackets s (s.modComp k g) := ⟨rfl, rfl, rfl, rfl⟩

theorem samePackets_setBase (s : State) (i : Nat) (b : BaseSlot) : SamePackets s (s.setBase i b) := ⟨rfl, rfl, rfl, rfl⟩

theorem samePackets_loseBank (s : State) (kind : Nat) : SamePackets s (s.loseBank kind) := ⟨rfl, rfl, rfl, rfl⟩

theorem samePackets_modVariant (s : State) (k i : Nat) (g : Variant → Variant) : SamePackets s (s.modVariant k i g) :=
  samePackets_modComp ..

theorem samePackets_markClose (s : State) (k h order : Nat) : SamePackets s (s.markClose k h order) := ⟨rfl, rfl, rfl, rfl⟩

theorem samePackets_setKey (s : State) (f : Fn) (h : Nat) (e : KeyEntry) : SamePackets s (s.setKey f h e) := by
  cases f with
  | pf => exact ⟨rfl, rfl, rfl, rfl⟩
  | vf k =>
    simp only [State.setKey]
    split <;> exact samePackets_modComp ..

theorem samePackets_markKey (s : State) (f : Fn) (h : Nat) (order : Option Nat) : SamePackets s (s.markKey f h order) := by
  unfold State.markKey
  split
  · exact samePackets_setKey ..
  · exact .refl s

theorem samePackets_admitBase (s : State) (c : Cmd) (op : Nat) : SamePackets s (s.admitBase c op) := by
  unfold State.admitBase
  simp only
  split
  · exact samePackets_setBase ..
  · split
    · exact samePackets_setBase ..
    · exact .refl s

theorem samePackets_admitDestroy (s : State) (c : Cmd) : SamePackets s (s.admitDestroy c) := by
  unfold State.admitDestroy
  simp only
  split
  · split
    · exact samePackets_markKey ..
    · exact .refl s
  · exact .refl s

theorem samePackets_admitStage (s : State) (c : Cmd) : SamePackets s (s.admitStage c) := by
  unfold State.admitStage
  simp only
  split
  · exact samePackets_loseBank ..
  · exact .refl s

theorem samePackets_admitVariant (s : State) (c : Cmd) (k : Nat) (g : Variant → Variant) : SamePackets s (s.admitVariant c k g) := by
  unfold State.admitVariant
  split
  · exact samePackets_modVariant ..
  · exact .refl s

theorem samePackets_admitEffects_pf (s : State) {c : Cmd} (hc : c.fn = .pf) (op : Nat) : SamePackets s (s.admitEffects c op) := by
  simp only [State.admitEffects, hc]
  split
  · exact samePackets_admitBase ..
  · split
    · exact samePackets_admitDestroy ..
    · split
      · exact samePackets_admitStage ..
      · exact .refl s

theorem samePackets_admitEffects_vf (s : State) {c : Cmd} {k : Nat} (hc : c.fn = .vf k) (op : Nat) :
    SamePackets s (s.admitEffects c op) := by
  simp only [State.admitEffects, hc]
  split
  · exact samePackets_admitDestroy ..
  · exact samePackets_modComp ..
  · exact samePackets_modComp ..
  · exact samePackets_modComp ..
  · exact samePackets_admitVariant ..
  · exact samePackets_admitVariant ..
  · split
    · exact samePackets_markClose ..
    · exact .refl s
  · exact .refl s

theorem samePackets_admitEffects (s : State) (c : Cmd) (op : Nat) : SamePackets s (s.admitEffects c op) := by
  cases hc : c.fn with
  | pf => exact samePackets_admitEffects_pf s hc op
  | vf k => exact samePackets_admitEffects_vf s hc op

/-! ### A refused packet -/

/-- A packet is refused: its units are consumed, its reply without a tag waits, its counter counts it, and it takes neither a
sequence number nor a place in the queue. -/
structure PacketRefused (s t : State) (f : Fn) (n units : Nat) (h : Header) (st : Status) (counter : Nat) : Prop where
  queue : t.queue = s.queue
  nextSeq : ((t.fnOf f).ring n).nextSeq = ((s.fnOf f).ring n).nextSeq
  head : ((t.fnOf f).ring n).head = (((s.fnOf f).ring n).head + units) % count32
  counted : Tab.get 0 (t.fnOf f).counters counter = sat64 (Tab.get 0 (s.fnOf f).counters counter) 1
  reply : ∃ r, t.replies = s.replies ++ [r] ∧ r.status = st.code ∧ r.admitted = false ∧ r.cmd.tag = 0 ∧ r.cmd.cookie = h.cookie

theorem packetRefused_refusePacket (s : State) (f : Fn) (n units : Nat) (h : Header) (st : Status) (counter : Nat) :
    PacketRefused s (s.refusePacket f n units h st counter) f n units h st counter := by
  -- the reply is put before the units are consumed, and the function's state is not touched by it
  have hfn (l : List Reply) : ({ s with replies := l } : State).fnOf f = s.fnOf f := rfl
  constructor
  case reply => exact ⟨_, rfl, rfl, rfl, rfl, rfl⟩
  all_goals simp [State.refusePacket, hfn]

/-! ### An admitted packet -/

/-- A packet is admitted: its units are consumed, it takes the next sequence number, its tag and the next place in admission
order, and it ends the queue. -/
structure PacketAdmitted (s t : State) (f : Fn) (n units : Nat) (h : Header) (block : List Byte) (i g : Nat) (tags : IdxRange) : Prop where
  replies : t.replies = s.replies
  nextSeq : ((t.fnOf f).ring n).nextSeq = ((s.fnOf f).ring n).nextSeq + 1
  head : ((t.fnOf f).ring n).head = (((s.fnOf f).ring n).head + units) % count32
  tags : (t.fnOf f).tags = tags
  counted : Tab.get 0 (t.fnOf f).counters 0 = sat64 (Tab.get 0 (s.fnOf f).counters 0) 1
  order : t.stroke.nextOrder = s.stroke.nextOrder + 1
  queue : ∃ x, t.queue = s.queue ++ [x] ∧ x.op = h.op ∧
    x.cmd = s.packetCmd f n ((s.fnOf f).ring n).nextSeq (handleOf g i) h block

section
variable {s t u : State} {f : Fn} {n units : Nat} {h : Header} {block : List Byte} {i g : Nat} {tags : IdxRange}

theorem PacketAdmitted.samePackets (ha : PacketAdmitted s t f n units h block i g tags) (hp : SamePackets t u) :
    PacketAdmitted s u f n units h block i g tags := by
  have hfn := State.fnOf_congr hp.fns f
  obtain ⟨hrep, hseq, hhead, htags, hcount, horder, hqueue⟩ := ha
  constructor
  case replies => exact hp.replies.trans hrep
  case queue => exact hp.queue ▸ hqueue
  all_goals simpa only [hfn, hp.stroke]

variable (s f n units h block i g tags)

/-- The function's half of an admission: the tags, the ring and PKTS_ADMITTED. -/
def State.takeTag : State :=
  (((s.modFn f fun x => { x with tags }).consume f n units).modRing f n fun r =>
    { r with nextSeq := ((s.fnOf f).ring n).nextSeq + 1 }).bumpRing f 0 1

/-- The queue entry of an admitted packet. -/
def State.packetEntry : Adm :=
  { admDirect (s.packetCmd f n ((s.fnOf f).ring n).nextSeq (handleOf g i) h block) h.op with
    deps := h.depList n ((s.fnOf f).ring n).nextSeq
    epochs := (upFrom 0 4).map fun j => ((s.fnOf f).ring j).epoch
    requireOk := bitOf h.flags 2
    ref := if h.byRef then some (h.paramAddr, h.paramLen) else none
    fetched := !h.byRef
    planned := false }

/-- The state with the packet in the queue, before what its admission does. -/
def State.enqueuePacket : State :=
  { s.takeTag f n units tags with
    queue := s.queue ++ [s.packetEntry f n h block i g]
    stroke := { s.stroke with nextOrder := s.stroke.nextOrder + 1 } }

theorem State.admitPacket_eq : s.admitPacket f n units h block i g tags =
    if h.byRef && h.op != 0x0502 then s.enqueuePacket f n units h block i g tags
    else (s.enqueuePacket f n units h block i g tags).admitEffects
      (s.packetCmd f n ((s.fnOf f).ring n).nextSeq (handleOf g i) h block) h.op := rfl

theorem packetAdmitted_enqueuePacket :
    PacketAdmitted s (s.enqueuePacket f n units h block i g tags) f n units h block i g tags := by
  have hfn : (s.enqueuePacket f n units h block i g tags).fnOf f = (s.takeTag f n units tags).fnOf f := rfl
  constructor
  case replies => rfl
  case order => rfl
  case queue => exact ⟨_, rfl, rfl, rfl⟩
  all_goals simp [hfn, State.takeTag]

theorem packetAdmitted_admitPacket :
    PacketAdmitted s (s.admitPacket f n units h block i g tags) f n units h block i g tags := by
  have ha := packetAdmitted_enqueuePacket s f n units h block i g tags
  rw [State.admitPacket_eq]
  split
  · exact ha
  · exact ha.samePackets (samePackets_admitEffects ..)

end

/-! ### The cases of a packet -/

section
variable {s : State} {f : Fn} {n units : Nat} {a : Allow} {h : Header} {block : List Byte} {within : Bool}

theorem State.takeCommand_of_failed {st : Status} (hc : s.packetCheck f n ((s.fnOf f).ring n).nextSeq h within = some st) :
    (s.takeCommand f n a h block within units).1 = s.refusePacket f n units h st 1 := by
  simp [State.takeCommand, hc]

variable (hc : s.packetCheck f n ((s.fnOf f).ring n).nextSeq h within = none) (hr : s.stateRuns f n h.op h.stream = true)
  (hd : (s.fnOf f).held n (h.depList n ((s.fnOf f).ring n).nextSeq) = false)
include hc hr hd

theorem State.takeCommand_of_tag {i g : Nat} {tags : IdxRange}
    (ht : (s.fnOf f).tags.assign (s.tagRange f).1 (s.tagRange f).2 = some (i, g, tags)) :
    (s.takeCommand f n a h block within units).1 = s.admitPacket f n units h block i g tags := by
  simp [State.takeCommand, hc, hr, hd, ht]

theorem State.takeCommand_of_no_tag (ht : (s.fnOf f).tags.assign (s.tagRange f).1 (s.tagRange f).2 = none) :
    (s.takeCommand f n a h block within units).1 = s.refusePacket f n units h .noResource 2 := by
  simp [State.takeCommand, hc, hr, hd, ht]

end

end Sys2Proof.Machine

open Sys2Proof Sys2Proof.Machine

/-- Settles O22: the three cases of a packet, each with what refusing or admitting it leaves. -/
theorem admittedPacketTakesTagAndSequence : Obligations.AdmittedPacketTakesTagAndSequence := by
  intro s t f n units _ _ h block within _ ht
  obtain rfl : (s.takeCommand f n _ h block within units).1 = t := congrArg Prod.fst ht
  refine ⟨fun st hc => ?_, fun i g tags hc hr hd ha => ?_, fun hc hr hd ha => ?_⟩
  · rw [State.takeCommand_of_failed hc]
    obtain ⟨hqueue, hseq, hhead, hcount, hreply⟩ := packetRefused_refusePacket s f n units h st 1
    exact ⟨hqueue, hseq, hhead, hcount, hreply⟩
  · rw [State.takeCommand_of_tag hc hr hd ha]
    obtain ⟨hrep, hseq, hhead, htags, hcount, horder, x, hqueue, hop, hcmd⟩ := packetAdmitted_admitPacket s f n units h block i g tags
    refine ⟨hrep, hseq, hhead, htags, hcount, horder, x, hqueue, ?_⟩
    simp [hcmd, hop, State.packetCmd]
  · rw [State.takeCommand_of_no_tag hc hr hd ha]
    obtain ⟨hqueue, -, -, -, r, hreply, hst, -, htag, -⟩ := packetRefused_refusePacket s f n units h .noResource 2
    exact ⟨hqueue, r, hreply, hst, htag⟩

end

section
/-! SUPPORT. How the work of a tenant's command ends it, and how the frame passes through branches and lists (02 R65, R69). -/

namespace Sys2Proof.Machine

variable {c : Cmd} {k : Nat}

/-! ### Steps of work -/

theorem owns_then {α} {m : Run Unit} {r : Run α} (h : Owns c k m) (g : Owns c k r) : Owns c k (m >>= fun _ => r) :=
  owns_bind h fun _ => g

theorem owns_ite {α} {p : Prop} [Decidable p] {a b : Run α} (h : Owns c k a) (g : Owns c k b) : Owns c k (if p then a else b) := by
  split
  · exact h
  · exact g

theorem owns_filterMapM {α β} {l : List α} {f : α → Run (Option β)} (h : ∀ a, Owns c k (f a)) : Owns c k (l.filterMapM f) := by
  induction l with
  | nil => exact owns_pure _
  | cons a l ih =>
    rw [List.filterMapM_cons]
    refine owns_bind (h a) fun o => ?_
    cases o with
    | none => exact ih
    | some b => exact owns_bind ih fun _ => owns_pure _

/-- A command of a compartment works for that compartment. -/
theorem owns_vfOf {α} {f : Nat → Run α} (hc : c.fn = .vf k) (h : Owns c k (f k)) : Owns c k (vfOf c >>= f) := by
  simp only [vfOf, hc]
  exact h

/-! ### The end of a command -/

/-- Work that ends with a status leaves as it was what it does not own: a failure drops its results and records besides. -/
theorem ownWork_of_runWork {m : Run (Status × Nat)} {s s' : State} {st : Status} {d : Nat} (hm : Owns c k m)
    (h : runWork s m = .ok (.done s' st d)) : OwnWork c k s s' := by
  have hs := hm s
  unfold runWork at h
  generalize (ExceptT.run m).run s = r at h hs
  obtain ⟨e | ⟨st', d'⟩, s1⟩ := r
  · cases e with
    | fail e => cases h; exact { hs with commits := ⟨[], by simp⟩, records := ⟨[], by simp⟩ }
    | planned => cases h; exact hs
    | wait => cases h
    | space => cases h
    | peer => cases h
    | part => cases h
  · cases h; exact hs

/-- An admitted command whose work is its compartment's own ends as its work ends. -/
theorem ends_of_owns {i : Instr} {op : Nat} {m : Run (Status × Nat)} {s : State}
    (hexec : exec i s = .next (runCmd op c s (runWork s m))) (hm : Owns c k m) : Ends i op c k s (runWork s m) := by
  rintro ⟨hserving, hgate, -⟩ s' st d hdone
  refine ⟨?_, ownWork_of_runWork hm hdone⟩
  rw [hexec, hdone]
  simp only [runCmd, hserving, if_true, hgate, finishCmd]

end Sys2Proof.Machine
end

section
/-! SUPPORT. The work of the products: MATMUL, CONV and MOE.MATMUL, and what they share with VARIANT.MATMUL (05 R161-R170, R175-R179,
R186-R190, R196-R203). -/

namespace Sys2Proof.Machine

variable {c : Cmd} {k : Nat}

/-! ### Fields and tensors -/

theorem owns_regionAt (b a n o) : Owns c k (regionAt c k b a n o) :=
  owns_ite (owns_bind (owns_bufferAt _ _ _) fun _ => owns_pure _) (owns_pure _)

theorem owns_mmFields (use) : Owns c k (mmFields c k use) := by
  unfold mmFields
  iterate 2 refine owns_then (owns_fld _ _) ?_
  refine owns_then (owns_regionAt _ _ _ _) ?_
  iterate 12 refine owns_then (owns_fld _ _) ?_
  refine owns_bind owns_get fun s => owns_then (owns_fldPlan _ _) ?_
  iterate 6 refine owns_then (owns_fld _ _) ?_
  refine owns_then (owns_regionAt _ _ _ _) ?_
  iterate 6 refine owns_then (owns_fld _ _) ?_
  exact owns_pure _

theorem owns_refIf (used a o) : Owns c k (refIf c k used a o) :=
  owns_ite (owns_bind (owns_tensorAt _ _) fun _ => owns_pure _) (owns_pure _)

theorem owns_epiRefs (f) : Owns c k (epiRefs c k f) :=
  owns_bind (owns_tensorAt _ _) fun _ => owns_bind (owns_refIf _ _ _) fun _ => owns_bind (owns_refIf _ _ _) fun _ =>
    owns_bind (owns_refIf _ _ _) fun _ => owns_bind (owns_refIf _ _ _) fun _ => owns_pure _

theorem owns_outSpace (f y n) : Owns c k (outSpace c k f y n) :=
  owns_ite (owns_bind (owns_bufferAt _ _ _) fun _ => owns_pure _) (owns_pure _)

/-- The end of a product's plan: the right to write its output, the conversion, the space, the judgement of the integer path. -/
theorem owns_planOutput {α} (y : Tensor) (ns : List Nat) (f : Mm) (n : Nat) (judge : State → List (List (Option Nat)))
    {work : OutPlan → List (List (Option Nat)) → Run α} (h : ∀ o j, Owns c k (work o j)) :
    Owns c k (do
      mayWrite y ns
      let o ← outPlan k f.fmt f.numctl f.scale f.seed f.stream
      reserve c k (← outSpace c k f y n)
      let j ← judged judge
      endPlan
      work o j) :=
  owns_then (owns_mayWrite _ _) (owns_bind (owns_outPlan _ _ _ _ _) fun o => owns_bind (owns_outSpace _ _ _) fun _ =>
    owns_then (owns_reserve _) (owns_bind (owns_judged _) fun j => owns_then owns_endPlan (h o j)))

/-! ### Reading -/

theorem owns_readIf (t a trap ns) : Owns c k (readIf c k t a trap ns) := by
  cases t with
  | none => exact owns_pure _
  | some t => exact owns_bind (owns_readSome _ _ _ _) fun _ => owns_pure _

theorem owns_epiMats (f r trap outs) : Owns c k (epiMats c k f r trap outs) := by
  unfold epiMats
  refine owns_bind (owns_readIf _ _ _ _) fun cm => owns_bind (owns_readIf _ _ _ _) fun bias =>
    owns_bind (owns_readIf _ _ _ _) fun freq => owns_bind (owns_readIf _ _ _ _) fun pos => ?_
  cases pos with
  | none => exact owns_pure _
  | some m => exact owns_then (owns_fld _ _) (owns_pure _)

theorem owns_fill (o : Port2) (a trap ns) : Owns c k (o.fill c k a trap ns) :=
  owns_ite (owns_pure _) (owns_bind (owns_readSome _ _ _ _) fun _ => owns_then (owns_enterSram c k _ _ _) (owns_pure _))

-- extract_lets names the join point of a do block: what comes after its branch
theorem owns_readFixed (b off n) : Owns c k (readFixed c k b off n) := by
  unfold readFixed
  refine owns_bind owns_get fun s => ?_
  extract_lets -underBinder keep
  have hkeep (u) : Owns c k (keep u) :=
    owns_bind (owns_takenAll (owns_bind (owns_readBuffer _ _ _) fun _ => owns_pure _)) fun _ => owns_pure _
  exact owns_ite (owns_bind (owns_readBuffer _ _ _) fun _ => hkeep ()) (hkeep ())

/-! ### The quanta of a product -/

theorem owns_countK0 (f) : Owns c k (countK0 c k f) := owns_stageCounts _

theorem owns_freeBump (x n) : Owns c k (freeBump k x n) :=
  owns_ite (owns_pure _) (owns_modify fun s => (ownWork_draw s).trans (ownWork_bump _ _ _))

theorem owns_productCount (P : Product) (l) : Owns c k (P.count k l) :=
  owns_then (owns_bumpNow _ _) (owns_then (owns_bumpNow _ _) (owns_then (owns_freeBump _ _) (owns_freeBump _ _)))

section
variable (P : Product) {read : List Piece → Run Feed} (hread : ∀ l, Owns c k (read l))
include hread

theorem owns_runPieces (l) : Owns c k (P.runPieces c k l read) :=
  owns_ite (owns_pure _) (owns_then (owns_productCount _ _) (owns_bind (hread _) fun _ =>
    owns_then (owns_stageCounts _) (owns_bank _ _)))

theorem owns_productRun : Owns c k (P.run c k read) :=
  owns_bind (owns_pieces _) fun _ => owns_then (owns_runPieces P hread _) (owns_bind owns_get fun _ =>
    owns_then (owns_runPieces P hread _) (owns_ready _))

theorem owns_produceMm (f e o) {acc : Work → List Nat → Run (Nat → Nat → Nat → Nat)} (hacc : ∀ w l, Owns c k (acc w l)) :
    Owns c k (produceMm c k f e o P read acc) :=
  owns_bind (owns_productRun P hread) fun _ => owns_bind (owns_epiMats _ _ _ _) fun _ => owns_bind owns_get fun _ =>
    owns_bind (hacc _ _) fun _ => owns_then (owns_produce _ _ _ _ _ _ _) (owns_countK0 _)

end

/-! ### The commands -/

theorem ends_matmul (s : State) (hc : c.fn = .vf k) : Ends (.matmul c) 0x0401 c k s (opMatmul c s) := by
  refine ends_of_owns rfl (owns_vfOf hc (owns_bind (owns_chk _) fun _ => owns_bind (owns_mmFields _) fun f => ?_))
  refine owns_bind (owns_tensorAt _ _) fun x => owns_bind (owns_tensorAt _ _) fun w => owns_bind (owns_epiRefs _) fun e =>
    owns_bind (owns_refIf _ _ _) fun sa => owns_bind (owns_refIf _ _ _) fun sb => ?_
  refine owns_then (owns_oneDomain _) (owns_then (owns_req _ _ _) ?_)
  iterate 5 refine owns_then (owns_fld _ _) ?_
  refine owns_planOutput _ _ _ _ _ fun o j => ?_
  refine owns_then (owns_produceMm _ (fun ps => ?_) _ _ _ fun _ _ => owns_pure _) (owns_pure _)
  exact owns_bind (owns_fill _ _ _ _) fun xp => owns_bind (owns_fill _ _ _ _) fun wp => owns_bind (owns_fill _ _ _ _) fun ap =>
    owns_bind (owns_fill _ _ _ _) fun bp => owns_bind owns_get fun s => owns_pure _

theorem ends_conv (s : State) (hc : c.fn = .vf k) : Ends (.conv c) 0x0402 c k s (opConv c s) := by
  refine ends_of_owns rfl (owns_vfOf hc (owns_bind (owns_chk _) fun _ => owns_bind (owns_mmFields _) fun f => ?_))
  refine owns_bind (owns_forIn fun q _ => owns_then (owns_fld _ _) (owns_pure _)) fun _ => ?_
  refine owns_bind (owns_tensorAt _ _) fun x => owns_bind (owns_tensorAt _ _) fun w => owns_bind (owns_epiRefs _) fun e => ?_
  refine owns_then (owns_oneDomain _) (owns_then (owns_req _ _ _) ?_)
  iterate 2 refine owns_then (owns_fld _ _) ?_
  refine owns_planOutput _ _ _ _ _ fun o j => ?_
  refine owns_then (owns_produceMm _ (fun ps => ?_) _ _ _ fun _ _ => owns_pure _) (owns_pure _)
  exact owns_bind (owns_fill _ _ _ _) fun xp => owns_bind (owns_fill _ _ _ _) fun wp => owns_pure _

theorem ends_moeMatmul (s : State) (hc : c.fn = .vf k) : Ends (.moeMatmul c) 0x0405 c k s (opMoeMatmul c s) := by
  refine ends_of_owns rfl (owns_vfOf hc (owns_bind (owns_chk _) fun _ => owns_bind (owns_mmFields _) fun f => ?_))
  refine owns_then (owns_fld _ _) (owns_then (owns_regionAt _ _ _ _) ?_)
  iterate 4 refine owns_then (owns_fld _ _) ?_
  refine owns_bind (owns_tensorAt _ _) fun x => owns_bind (owns_tensorAt _ _) fun y => owns_bind (owns_bufferAt _ _ _) fun ⟨_, tb, toff⟩ =>
    owns_bind (owns_bufferAt _ _ _) fun ⟨_, rb, roff⟩ => owns_then (owns_reqPlan _ _ _) ?_
  refine owns_bind (owns_readFixed _ _ _) fun table => owns_bind (owns_readFixed _ _ _) fun route =>
    owns_bind (owns_mapM fun _ => owns_tensorAt _ _) fun ws => owns_then (owns_oneDomain _) ?_
  refine owns_then (owns_fld _ _) (owns_then (owns_req _ _ _) ?_)
  iterate 3 refine owns_then (owns_fld _ _) ?_
  refine owns_planOutput _ _ _ _ _ fun o j => ?_
  refine owns_bind (owns_productRun _ fun ps => ?_) fun ready => owns_bind owns_get fun s1 =>
    owns_then (owns_produce _ _ _ _ _ _ _) (owns_then (owns_countK0 _) (owns_pure _))
  exact owns_bind (owns_fill _ _ _ _) fun xp =>
    owns_bind (owns_mapM fun q => owns_bind (owns_fill _ _ _ _) fun _ => owns_pure _) fun wps => owns_pure _

end Sys2Proof.Machine
end

section
/-! SUPPORT. The work of SCAN, MOE.ROUTE and RAND.GEN (05 R180-R185, R201, R202; 10 R402-R404). -/

namespace Sys2Proof.Machine

variable {c : Cmd} {k : Nat}

theorem ends_scan (s : State) (hc : c.fn = .vf k) : Ends (.scan c) 0x0403 c k s (opScan c s) := by
  refine ends_of_owns rfl (owns_vfOf hc (owns_bind (owns_chk _) fun _ => ?_))
  iterate 11 refine owns_then (owns_fld _ _) ?_
  refine owns_bind (owns_tensorAt _ _) fun at_ => owns_bind (owns_tensorAt _ _) fun bt => owns_bind (owns_refIf _ _ _) fun ht =>
    owns_bind (owns_refIf _ _ _) fun ot => owns_bind (owns_refIf _ _ _) fun ft => owns_then (owns_oneDomain _) ?_
  iterate 3 refine owns_then (owns_fld _ _) ?_
  refine owns_bind (owns_forIn fun o _ => owns_then (owns_mayWrite _ _) (owns_pure _)) fun _ => owns_then (owns_reserve _) ?_
  refine owns_bind owns_get fun s1 => owns_bind (owns_taken owns_freshDraw) fun seed => owns_then owns_endPlan ?_
  refine owns_bind owns_get fun s2 => owns_bind (owns_pieces _) fun pieces => ?_
  refine owns_bind (owns_readSome _ _ _ _) fun am => owns_bind (owns_readSome _ _ _ _) fun bm =>
    owns_bind (owns_readIf _ _ _ _) fun hm => ?_
  refine owns_then (owns_bumpNow _ _) (owns_then (owns_bank _ _) (owns_bind (owns_ready _) fun outs => owns_bind owns_get fun s3 => ?_))
  extract_lets -underBinder _ _ _ writeFinal
  have hfinal (u) : Owns c k (writeFinal u) := by
    cases ft with
    | none => exact owns_then (owns_close _ _) (owns_pure _)
    | some o => exact owns_then (owns_emitPlain _ _ _ _ _) (owns_then (owns_close _ _) (owns_pure _))
  cases ot with
  | none => exact hfinal ()
  | some o => exact owns_bind (owns_emitPlain _ _ _ _ _) hfinal

theorem ends_moeRoute (s : State) (hc : c.fn = .vf k) : Ends (.moeRoute c) 0x0404 c k s (opMoeRoute c s) := by
  refine ends_of_owns rfl (owns_vfOf hc (owns_bind (owns_chk _) fun _ => ?_))
  iterate 2 refine owns_then (owns_fld _ _) ?_
  refine owns_then (owns_regionAt _ _ _ _) ?_
  iterate 6 refine owns_then (owns_fld _ _) ?_
  refine owns_bind (owns_tensorAt _ _) fun lt => owns_then (owns_fld _ _) (owns_bind (owns_bufferAt _ _ _) fun ⟨ba, buf, off⟩ => ?_)
  refine owns_then (owns_reserve _) (owns_bind owns_get fun s1 => owns_then owns_endPlan (owns_bind (owns_readMat _ _ _) fun m => ?_))
  -- the record's free bytes take one draw
  refine owns_then (owns_bumpNow _ _) (owns_then (owns_bumpNow _ _) (owns_getB fun s2 => ownsAt_set (ownWork_free s2 _) ?_))
  exact owns_then (owns_writeBuffer _ _ _ _) (owns_then (owns_stage _) (owns_pure _))

theorem ends_randGen (s : State) (hc : c.fn = .vf k) : Ends (.randGen c) 0x0901 c k s (opRandGen c s) := by
  refine ends_of_owns rfl (owns_vfOf hc (owns_bind (owns_chk _) fun _ => ?_))
  iterate 6 refine owns_then (owns_fld _ _) ?_
  refine owns_ite ?buffer ?tensor
  case buffer =>
    iterate 6 refine owns_then (owns_fld _ _) ?_
    exact owns_bind (owns_bufferAt _ _ _) fun ⟨ba, x, off⟩ => owns_then (owns_reserve _) (owns_then (owns_writeBuffer _ _ _ _)
      (owns_then (owns_stageCounts _) (owns_pure _)))
  case tensor =>
    refine owns_bind (owns_tensorAt _ _) fun t => ?_
    iterate 7 refine owns_then (owns_fld _ _) ?_
    exact owns_then (owns_mayWrite _ _) (owns_then (owns_reserve _) (owns_bind (owns_encode _ _ _ _) fun l =>
      owns_then (owns_writeTiles _ _ _) (owns_then (owns_stageCounts _) (owns_pure _))))

end Sys2Proof.Machine
end

section
/-! SUPPORT. The work of VARIANT.MATMUL: groups served from base, side path or forged copy (07 R277, R283-R287). -/

namespace Sys2Proof.Machine

variable {c : Cmd} {k : Nat}

theorem owns_variantAt (h) : Owns c k (variantAt c k h) := owns_bind owns_get fun _ => owns_some _ _ _

theorem owns_serveGroup (slot no forceSide g) : Owns c k (serveGroup c k slot no forceSide g) := by
  unfold serveGroup
  refine owns_bind (owns_variantAt _) fun v => ?_
  extract_lets -underBinder serve
  have hserve (u) : Owns c k (serve u) := by
    refine owns_then (owns_req _ _ _) (owns_bind (owns_some _ _ _) fun x => owns_then (owns_req _ _ _) (owns_bind owns_get fun s => ?_))
    split
    · exact owns_pure _
    · extract_lets -underBinder _ copy
      cases copy with
      | some a => exact owns_pure _
      | none => exact owns_then (owns_req _ _ _) (owns_pure _)
  exact owns_ite (owns_bind (owns_throw _) hserve) (hserve ())

theorem owns_sideScales (l f y trap outs) : Owns c k (sideScales c k l f y trap outs) := by
  refine owns_mapM fun g => ?_
  split
  · split
    · exact owns_ite (owns_pure _) (owns_bind (owns_tensorAt _ _) fun _ => owns_readIf _ _ _ _)
    · exact owns_pure _
  · exact owns_pure _

theorem ends_variantMatmul (s : State) (hc : c.fn = .vf k) : Ends (.variantMatmul c) 0x0620 c k s (opVariantMatmul c s) := by
  refine ends_of_owns rfl (owns_vfOf hc (owns_bind (owns_chk _) fun _ => owns_bind (owns_mmFields _) fun f => ?_))
  refine owns_then (owns_fld _ _) (owns_then (owns_regionAt _ _ _ _) ?_)
  iterate 3 refine owns_then (owns_fld _ _) ?_
  refine owns_bind (owns_tensorAt _ _) fun x => owns_bind (owns_tensorAt _ _) fun w => owns_bind (owns_epiRefs _) fun e => ?_
  refine owns_then (owns_oneDomain _) (owns_bind (owns_some _ _ _) fun ⟨slot, no⟩ => ?_)
  dsimp -zeta only
  extract_lets -underBinder serve
  suffices hserve : ∀ table, Owns c k (serve table) from owns_ite (owns_bind (owns_pure _) hserve)
    (owns_bind (owns_bufferAt _ _ _) fun ⟨_, gb, off⟩ => owns_bind (owns_readFixed _ _ _) hserve)
  intro table
  refine owns_bind (owns_some _ _ _) fun groups => owns_bind (owns_takenAll (owns_bind (owns_mapM fun g => owns_serveGroup _ _ _ _)
    fun l => owns_pure _)) fun words => owns_then (owns_req _ _ _) ?_
  iterate 5 refine owns_then (owns_fld _ _) ?_
  refine owns_planOutput _ _ _ _ _ fun o j => ?_
  refine owns_then (owns_produceMm _ (fun ps => ?_) _ _ _ fun _ _ => owns_bind (owns_sideScales _ _ _ _ _) fun _ => owns_pure _)
    (owns_bind (owns_forIn fun g _ => owns_ite (owns_then (owns_stage _) (owns_pure _)) (owns_pure _)) fun _ => owns_pure _)
  refine owns_bind (owns_fill _ _ _ _) fun xp => owns_bind (owns_fill _ _ _ _) fun wp => owns_bind (owns_mapM fun g => ?_) fun ports =>
    owns_bind owns_get fun s => owns_pure _
  extract_lets -underBinder _ port
  have hport (a ns) : Owns c k (port a ns) := owns_bind (owns_tensorAt _ _) fun t => owns_fill _ _ _ _
  clear_value port
  split
  · exact owns_ite (owns_pure _) (owns_bind (hport _ _) fun p => owns_pure _)
  · extract_lets -underBinder _ pair
    have hpair (ap) : Owns c k (pair ap) := owns_ite (owns_bind (owns_pure _) fun _ => owns_pure _) (owns_bind (hport _ _) fun bp => owns_pure _)
    exact owns_ite (owns_bind (owns_pure _) hpair) (owns_bind (hport _ _) hpair)
  · exact owns_pure _

end Sys2Proof.Machine
end

section
/-! SUPPORT. The work of ATTEND, ATTEND.MAT and LINMIX: the length table, the key-value cache they read and extend, and their
outputs (08 R307-R312, R321-R338). -/

namespace Sys2Proof.Machine

variable {c : Cmd} {k : Nat}

/-! ### Lengths, fields and masks -/

theorem owns_streamAt (h) : Owns c k (streamAt c k h) := owns_bind owns_get fun _ => owns_some _ _ _

theorem owns_readLens (ref t n off) : Owns c k (readLens c k ref t n off) := by
  unfold readLens
  refine owns_bind (owns_bufferAt _ _ _) fun ⟨_, lb, o⟩ => owns_bind (owns_readFixed _ _ _) fun b => ?_
  extract_lets -underBinder l
  cases lensBad t b l with
  | some i => exact owns_fail _ _
  | none => exact owns_pure _

theorem owns_readBitmap (a) : Owns c k (readBitmap c k a) :=
  owns_bind (owns_bufferAt _ _ _) fun _ => owns_bind (owns_readBuffer _ _ _) fun _ =>
    owns_bind (owns_bufferAt _ _ _) fun _ => owns_bind (owns_readBuffer _ _ _) fun _ =>
      owns_then (owns_fld _ _) (owns_then (owns_fld _ _) (owns_pure _))

theorem owns_attFields (mat sts) : Owns c k (attFields c k mat sts) := by
  unfold attFields
  iterate 18 refine owns_then (owns_fld _ _) ?_
  refine owns_bind owns_get fun s => owns_then (owns_fldPlan _ _) ?_
  iterate 4 refine owns_then (owns_fld _ _) ?_
  exact owns_pure _

theorem owns_seqsOf (f lens l) : Owns c k (seqsOf c k f lens l) :=
  owns_bind (owns_mapM fun _ => owns_streamAt _) fun _ => owns_then (owns_fld _ _) (owns_then (owns_fld _ _)
    (owns_mapM fun _ => owns_then (owns_fld _ _) (owns_pure _)))

/-! ### The key-value cache -/

theorem owns_readBlocks (trap x gs blocks appends) : Owns c k (readBlocks c k trap x gs blocks appends) := by
  unfold readBlocks
  refine owns_bind owns_get fun s => owns_bind (owns_filterMapM fun p => ?pages) fun ms => ?staging
  case pages =>
    split
    · exact owns_pure _
    · split
      · exact owns_pure _
      · exact owns_bind (owns_readSome _ _ _ _) fun m => owns_pure _
  case staging =>
    cases Tab.find? (s.comp k).tensors x.layer.stage with
    | none => exact owns_bind (owns_pure _) fun _ => owns_pure _
    | some t => exact owns_bind (owns_readSome _ _ _ _) fun m => owns_pure _

theorem owns_appendOk (st l n expect) : Owns c k (appendOk st l n expect) := owns_then (owns_req _ _ _) (owns_req _ _ _)

theorem owns_flushProduct (trap t p val) : Owns c k (flushProduct trap t p val) := owns_then (owns_req _ _ _) (owns_pure _)

theorem owns_flushPage (trap st sd val) : Owns c k (flushPage c k trap st sd val) := by
  unfold flushPage
  refine owns_bind (owns_newTable _) fun addr => owns_bind owns_newId fun id => owns_bind (owns_forIn fun p _ => ?_) fun _ => owns_pure _
  refine owns_bind (owns_flushProduct _ _ _ _) fun ⟨l, nans⟩ => owns_then (owns_stageCounts _) ?_
  refine owns_bind (owns_forIn fun q _ => ?_) fun _ => owns_pure _
  exact owns_bind (owns_takeDown _ _ _) fun ⟨x, cs⟩ => owns_then (owns_stageCounts _) (owns_pure _)

theorem owns_appendLayer (st li n old new) : Owns c k (appendLayer c k st li n old new) := by
  unfold appendLayer
  refine owns_bind owns_get fun s => owns_bind (owns_forIn fun j _ => owns_bind (owns_flushPage _ _ _ _) fun ⟨a, t⟩ =>
    owns_then (owns_stage _) (owns_pure _)) fun added => ?_
  extract_lets -underBinder _ _ _ lengthen
  have hlengthen (u) : Owns c k (lengthen u) := owns_then (owns_stage _) (owns_stageCounts _)
  cases Tab.find? (s.comp k).tensors (st.layers.getD li { stage := 0 }).stage with
  | none => exact hlengthen ()
  | some t => exact owns_bind (owns_writeTiles _ _ _) hlengthen

/-! ### The commands -/

/-- ATTEND and ATTEND.MAT, which share their work. -/
theorem ends_attention {i : Instr} {op : Nat} (mat : Bool) (s : State) (hexec : exec i s = .next (runCmd op c s (opAttention mat c s)))
    (hc : c.fn = .vf k) : Ends i op c k s (opAttention mat c s) := by
  refine ends_of_owns hexec (owns_vfOf hc (owns_bind (owns_chk _) fun _ => owns_bind (owns_attFields _ _) fun f => ?_))
  refine owns_bind (owns_tensorAt _ _) fun qt => owns_bind (owns_refIf _ _ _) fun kt => owns_bind (owns_refIf _ _ _) fun vt =>
    owns_bind (owns_tensorAt _ _) fun ot => owns_bind (owns_refIf _ _ _) fun bt => owns_bind (owns_refIf _ _ _) fun ft =>
    owns_bind (owns_refIf _ _ _) fun it => owns_bind (owns_readLens _ _ _ _) fun l => ?_
  refine owns_then (owns_reqPlan _ _ _) (owns_bind (owns_seqsOf _ _ _) fun seqs => ?_)
  extract_lets -underBinder st checks
  suffices hchecks : ∀ u, Owns c k (checks u) from owns_ite (owns_bind (owns_throw _) hchecks) (hchecks ())
  intro u
  iterate 6 refine owns_then (owns_fld _ _) ?_
  have hrows (x : Seq) : Owns c k (do
      fld (!f.rope || x.q0 + x.e.rows ≤ 16777217) noField
      fld (!mat || x.keys ≤ 65536) noField
      pure (ForInStep.yield PUnit.unit)) := owns_then (owns_fld _ _) (owns_then (owns_fld _ _) (owns_pure _))
  refine owns_bind (owns_forIn fun x _ => owns_ite (owns_then (owns_appendOk _ _ _ _) (hrows x)) (hrows x)) fun _ => ?_
  iterate 3 refine owns_then (owns_fld _ _) ?_
  refine owns_bind (owns_mapM fun x => owns_ite (owns_bind (owns_tensorAt _ _) fun t => owns_then (owns_fld _ _) (owns_pure _))
    (owns_pure _)) fun dmt => owns_then (owns_oneDomain _) (owns_then (owns_mayWrite _ _) ?_)
  extract_lets -underBinder plan
  suffices hplan : ∀ u, Owns c k (plan u) by
    cases it with
    | none => exact hplan ()
    | some t => exact owns_bind (owns_mayWrite _ _) hplan
  intro u
  refine owns_bind (owns_outPlan _ _ _ _ _) fun o => owns_then (owns_reserve _) (owns_then owns_endPlan (owns_bind owns_get fun s1 =>
    owns_bind (owns_readIf _ _ _ _) fun fm => ?_))
  extract_lets -underBinder attend
  suffices hattend : ∀ u, Owns c k (attend u) from owns_ite (owns_bind (owns_readIf _ _ _ _) fun km =>
    owns_bind (owns_readIf _ _ _ _) fun vm => owns_bind (owns_modify fun _ => ownWork_setWork _ _) hattend) (hattend ())
  intro u
  refine owns_bind (owns_pieces _) fun go => owns_then (owns_bank _ _) (owns_bind owns_get fun s2 => ?_)
  refine owns_bind (owns_mapM fun p => owns_ite (owns_bind (owns_readBitmap _) fun m => owns_then (owns_fld _ _) (owns_pure _))
    (owns_pure _)) fun bms => owns_bind (owns_mapM fun p => owns_readIf _ _ _ _) fun dms => ?_
  refine owns_bind (owns_readSome _ _ _ _) fun qm => owns_bind (owns_readIf _ _ _ _) fun bm =>
    owns_bind (owns_mapM fun p => owns_readBlocks _ _ _ _ _) fun kvs => owns_bind owns_freshDraw fun lost => ?_
  refine owns_bind (owns_emit _ _ _ _ _) fun _ => ?_
  extract_lets -underBinder append
  suffices happend : ∀ u, Owns c k (append u) by
    cases it with
    | none => exact happend ()
    | some t => exact owns_bind (owns_encode _ _ _ _) fun e => owns_bind (owns_writeTiles _ _ _) happend
  intro u
  refine owns_ite (owns_bind (owns_forIn fun p _ => owns_then (owns_appendLayer _ _ _ _ _) (owns_pure _)) fun _ => ?_) ?_
  all_goals exact owns_then (owns_stageCounts _) (owns_then (owns_bumpNow _ _) (owns_then (owns_freeBump _ _)
    (owns_then (owns_freeBump _ _) (owns_then (owns_close _ _) (owns_pure _)))))

theorem ends_linmix (s : State) (hc : c.fn = .vf k) : Ends (.linmix c) 0x0512 c k s (opLinmix c s) := by
  refine ends_of_owns rfl (owns_vfOf hc (owns_bind (owns_chk _) fun _ => ?_))
  iterate 13 refine owns_then (owns_fld _ _) ?_
  refine owns_bind (owns_tensorAt _ _) fun qt => owns_bind (owns_tensorAt _ _) fun kt => owns_bind (owns_tensorAt _ _) fun vt =>
    owns_bind (owns_tensorAt _ _) fun at_ => owns_bind (owns_tensorAt _ _) fun ot => owns_bind (owns_readLens _ _ _ _) fun l => ?_
  extract_lets -underBinder plan
  suffices hplan : ∀ u, Owns c k (plan u) by
    cases (upFrom 0 (u16 c.block 52)).find? fun i => (l.map (·.stream)).getD i 0 != 0 with
    | none => exact hplan ()
    | some i => exact owns_bind (owns_fail _ _) hplan
  intro u
  refine owns_bind (owns_mapM fun e => owns_ite (owns_pure _) (owns_bind (owns_tensorAt _ _) fun _ => owns_pure _)) fun sts =>
    owns_then (owns_oneDomain _) ?_
  iterate 4 refine owns_then (owns_fld _ _) ?_
  refine owns_then (owns_mayWrite _ _) (owns_bind (owns_forIn fun x _ => owns_then (owns_mayWrite _ _) (owns_pure _)) fun _ =>
    owns_then (owns_reserve _) ?_)
  refine owns_bind owns_get fun s1 => owns_bind (owns_taken owns_freshDraw) fun seed => owns_then owns_endPlan ?_
  extract_lets -underBinder _ mix
  suffices hmix : ∀ u, Owns c k (mix u) from owns_ite (owns_bind (owns_filterMapM fun e => owns_readIf _ _ _ _) fun ms =>
    owns_bind (owns_modify fun _ => ownWork_setWork _ _) hmix) (hmix ())
  intro u
  refine owns_bind owns_get fun s2 => owns_bind (owns_pieces _) fun pieces => ?_
  refine owns_bind (owns_readSome _ _ _ _) fun qm => owns_bind (owns_readSome _ _ _ _) fun km =>
    owns_bind (owns_readSome _ _ _ _) fun vm => owns_bind (owns_readSome _ _ _ _) fun am => owns_then (owns_fld _ _) ?_
  refine owns_then (owns_bank _ _) (owns_bind (owns_ready _) fun outs => owns_bind owns_get fun s3 => owns_then (owns_emitPlain _ _ _ _ _) ?_)
  refine owns_bind (owns_forIn fun i _ => ?states) fun _ => ?counts
  case states =>
    cases sts.getD i none with
    | none => exact owns_pure _
    | some x => exact owns_then (owns_emitPlain _ _ _ _ _) (owns_pure _)
  case counts =>
    exact owns_then (owns_stageCounts _) (owns_then (owns_freeBump _ _) (owns_then (owns_freeBump _ _) (owns_then (owns_freeBump _ _)
      (owns_then (owns_close _ _) (owns_pure _)))))

end Sys2Proof.Machine

open Sys2Proof Sys2Proof.Machine

/-- Settles O38: the work of each command is its compartment's own, step by step, and so is where it ends. -/
theorem computeCommandsEndAsTheirWorkEnds : Obligations.ComputeCommandsEndAsTheirWorkEnds := fun _ _ s hc =>
  ⟨ends_matmul s hc, ends_conv s hc, ends_scan s hc, ends_moeRoute s hc, ends_moeMatmul s hc, ends_attention false s rfl hc,
    ends_attention true s rfl hc, ends_linmix s hc, ends_variantMatmul s hc, ends_randGen s hc⟩

end

section
/-! SUPPORT. Work whose checks pass: the steps of a command's work as equations, and the frame around a command whose work has
left results and records only (00 R9; 02 R37, R65). -/

namespace Sys2Proof.Machine

variable {c : Cmd} {k : Nat} {s t : State}

/-! ### Checks -/

theorem vfOf_vf (h : c.fn = .vf k) : vfOf c = pure k := by
  simp only [vfOf, h]

theorem req_of_true {b : Bool} (h : b = true) (st : Status) (d : Nat) : req b st d = pure () := by
  simp only [req, h, if_true]

theorem req_of_false {b : Bool} (h : b = false) (st : Status) (d : Nat) : req b st d = failWith st d := by
  simp only [req, h, Bool.false_eq_true, if_false]

theorem fld_of_true {b : Bool} (h : b = true) (d : Nat) : fld b d = pure () := req_of_true h _ _

theorem chk_blockLen {n : Nat} (h : c.block.length = n) : chk (blockLen c n) = pure () := by
  simp [chk, blockLen, need, h]

/-! ### How work ends -/

theorem runWork_pure (s : State) (st : Status) (d : Nat) : runWork s (pure (st, d)) = .ok (.done s st d) := rfl

theorem runWork_failWith_bind {α : Type} (s : State) (st : Status) (d : Nat) (f : α → Run (Status × Nat)) :
    runWork s (failWith st d >>= f) = .ok (.done s st d) := rfl

theorem runWork_stage_done (s : State) (c : Cmd) (w : Commit) (r : Status × Nat) :
    runWork s (stage c w >>= fun _ => pure r) = .ok (.done (s.commit c w) r.1 r.2) := rfl

theorem runWork_putRecord_done (s : State) (c : Cmd) (a : Nat) (b : List Byte) (r : Status × Nat) :
    runWork s (putRecord c a b >>= fun _ => pure r) = .ok (.done (s.record c.fn a b) r.1 r.2) := rfl

/-- Work on a live stream goes on with it. -/
theorem runWork_streamAt {h : Nat} {x : StreamCtx} (hx : s.streamOf k h c = some x) (f : StreamCtx → Run (Status × Nat)) :
    runWork s (streamAt c k h >>= f) = runWork s (f x) := by
  have hget : runWork s (streamAt c k h >>= f) = runWork s (some! (s.streamOf k h c) .staleGeneration >>= f) := rfl
  rw [hget, hx]
  rfl

/-! ### The frame of a command -/

/-- The frame takes nothing from a state in which only results and records are new. -/
theorem framed_results {op : Nat} (h : s.admits op c) (l : List PendingCommit) (m : List HostWrite) :
    s.framed op { s with commits := l, records := m } = { s with commits := l, records := m } := by
  obtain ⟨-, -, hact⟩ := h
  simp only [State.framed, hact, ite_self]
  rfl

theorem framed_self {op : Nat} (h : s.admits op c) : s.framed op s = s := framed_results h s.commits s.records

theorem framed_commit {op : Nat} (h : s.admits op c) (d : Cmd) (w : Commit) : s.framed op (s.commit d w) = s.commit d w :=
  framed_results h _ s.records

theorem framed_record {op : Nat} (h : s.admits op c) (f : Fn) (a : Nat) (b : List Byte) :
    s.framed op (s.record f a b) = s.record f a b := framed_results h s.commits _

/-- An admitted command whose work completes it is answered from the state of that work. -/
theorem runCmd_of_done {op : Nat} {body : Chk Fin} {st : Status} {d : Nat} (h : s.admits op c) (hbody : body = .ok (.done t st d))
    (hframed : s.framed op t = t) : runCmd op c s body = t.reply c op st d := by
  obtain ⟨hserving, hgate, -⟩ := h
  simp only [runCmd, hserving, if_true, hgate, hbody, finishCmd, hframed]

end Sys2Proof.Machine
end

section
/-! SUPPORT. Records of 64-bit words: their length, and each word read back (00 R3; 02 R71). -/

namespace Sys2Proof.Machine

theorem length_leBytes (x n : Nat) : (leBytes x n).length = n := by
  induction n generalizing x with
  | zero => rfl
  | succ n ih => simp [leBytes, ih]

theorem padTo_of_length {n : Nat} {b : List Byte} (h : b.length = n) : padTo n b = b := by
  simp [padTo, ← h]

theorem byteAt_append_cons (a b : List Byte) (x : Byte) : byteAt (a ++ x :: b) a.length = x.toNat := by
  simp [byteAt]

/-- A number written into a block is read back at its offset, cut to its bytes. -/
theorem leAt_append_leBytes (a b : List Byte) (x n : Nat) : leAt (a ++ (leBytes x n ++ b)) a.length n = x % 256 ^ n := by
  induction n generalizing a x with
  | zero => simp [leAt, Nat.mod_one]
  | succ n ih =>
    have hrest := ih (a ++ [BitVec.ofNat 8 x]) (x / 256)
    simp only [List.append_assoc, List.cons_append, List.nil_append, List.length_append, List.length_singleton] at hrest
    have hpow : 256 ^ (n + 1) = 256 * 256 ^ n := Nat.pow_succ'
    rw [leBytes, leAt, List.cons_append, byteAt_append_cons, hrest, BitVec.toNat_ofNat, hpow, Nat.mod_mul]

/-- The fields of consecutive 64-bit words from an offset. -/
def wordFields : Nat → List Nat → List (Nat × Nat × Nat)
  | _, [] => []
  | o, x :: l => (o, 8, x) :: wordFields (o + 8) l

/-- 64-bit words one after another, little-endian. -/
def wordBytes (l : List Nat) : List Byte := l.flatMap fun x => leBytes x 8

theorem length_wordBytes (l : List Nat) : (wordBytes l).length = 8 * l.length := by
  induction l with
  | nil => rfl
  | cons x l ih => simp only [wordBytes, List.flatMap_cons, List.length_append, length_leBytes, List.length_cons] at ih ⊢; omega

theorem foldl_wordFields (l : List Nat) (acc : List Byte) :
    (wordFields acc.length l).foldl (fun acc f => padTo f.1 acc ++ leBytes f.2.2 f.2.1) acc = acc ++ wordBytes l := by
  induction l generalizing acc with
  | nil => simp [wordFields, wordBytes]
  | cons x l ih =>
    have hnext := ih (acc ++ leBytes x 8)
    rw [List.length_append, length_leBytes] at hnext
    rw [wordFields, List.foldl_cons, padTo_of_length rfl, hnext]
    simp [wordBytes]

/-- A record that 64-bit words fill is those words. -/
theorem layout_wordFields {n : Nat} {l : List Nat} (h : 8 * l.length = n) : layout n (wordFields 0 l) = wordBytes l := by
  rw [layout, show (0 : Nat) = ([] : List Byte).length from rfl, foldl_wordFields, List.nil_append,
    padTo_of_length (h ▸ length_wordBytes l)]

theorem u64_wordBytes (l m : List Nat) (x : Nat) : u64 (wordBytes (l ++ x :: m)) (8 * l.length) = x % 2 ^ 64 := by
  have hread := leAt_append_leBytes (wordBytes l) (wordBytes m) x 8
  rw [length_wordBytes] at hread
  simpa [u64, wordBytes] using hread

end Sys2Proof.Machine
end

section
/-! SUPPORT. The growth and truncation of a layer, MIX.QUERY, and the move of a cold page (08 R311, R315, R317, R318, R320, R342). -/

namespace Sys2Proof.Machine

variable {c : Cmd} {k : Nat} {s : State}

/-! ### Appending -/

theorem mem_upFrom {a n j : Nat} : j ∈ upFrom a n ↔ a ≤ j ∧ j < a + n := by
  induction n generalizing a with
  | zero => simp [upFrom]
  | succ n ih => rw [upFrom, List.mem_cons, ih]; omega

/-- An append flushes every page that its tokens complete; in a ring, those of the last `ring` pages. -/
theorem mem_flushPages {ring len n j : Nat} :
    j ∈ flushPages ring len n ↔ len / 256 ≤ j ∧ j < (len + n) / 256 ∧ (ring = 0 ∨ (len + n) / 256 ≤ j + ring) := by
  have hend : len / 256 + (len % 256 + n) / 256 = (len + n) / 256 := by omega
  simp only [flushPages, Bool.and_eq_true, bne_iff_ne, decide_eq_true_eq]
  generalize (len % 256 + n) / 256 = count at hend ⊢
  split <;> rw [mem_upFrom] <;> omega

/-! ### KV.TRUNCATE -/

section
variable {st : StreamCtx} {l : KvLayer} (hfn : c.fn = .vf k) (hblock : c.block.length = 16) (hst : s.streamOf k c.stream c = some st)
  (hl : st.layers[u16 c.block 0]? = some l) (hzero : zeroAt c.block 2 6 = true) (hpending : s.kvPending k st.handle c.order = false)
  (hone : u16 c.block 0 ≠ 0xFFFF)
include hfn hblock hst hl hzero hpending hone

/-- A truncation of one layer to no more than its length is left with one judgement: whether the new length cuts a sealed page. -/
theorem opKvTruncate_layer (hlen : u64 c.block 8 ≤ l.len) :
    opKvTruncate c s = runWork s (do
      req (256 * (l.len / 256) ≤ u64 c.block 8) .kvPageSealed
      stage c (.kvLayer k st.handle (u16 c.block 0) (u64 c.block 8) [] [])
      pure (.ok, 0)) := by
  have hlayer : (u16 c.block 0 < st.layers.length || u16 c.block 0 == 0xFFFF) = true := by
    simp [(List.getElem?_eq_some_iff.1 hl).1]
  have hfits : decide (u64 c.block 8 ≤ l.len) = true := decide_eq_true hlen
  have hget : st.layers.getD (u16 c.block 0) { stage := 0 } = l := by rw [List.getD_eq_getElem?_getD, hl]; rfl
  simp only [opKvTruncate, vfOf_vf hfn, chk_blockLen hblock, pure_bind]
  rw [runWork_streamAt hst]
  simp only [fld_of_true hlayer, fld_of_true hzero, hpending, if_neg hone, pure_bind, List.forIn_cons, List.forIn_nil, hget,
    fld_of_true hfits, bind_assoc, Bool.false_eq_true, if_false]

theorem opKvTruncate_within_page (hlen : u64 c.block 8 ≤ l.len) (hopen : 256 * (l.len / 256) ≤ u64 c.block 8) :
    opKvTruncate c s = .ok (.done (s.commit c (.kvLayer k st.handle (u16 c.block 0) (u64 c.block 8) [] [])) .ok 0) := by
  rw [opKvTruncate_layer hfn hblock hst hl hzero hpending hone hlen, req_of_true (decide_eq_true hopen), pure_bind,
    runWork_stage_done]

theorem opKvTruncate_sealed_page (hsealed : u64 c.block 8 < 256 * (l.len / 256)) :
    opKvTruncate c s = .ok (.done s .kvPageSealed 0) := by
  have hlen : u64 c.block 8 ≤ l.len := by omega
  have hcuts : decide (256 * (l.len / 256) ≤ u64 c.block 8) = false := decide_eq_false (by omega)
  rw [opKvTruncate_layer hfn hblock hst hl hzero hpending hone hlen, req_of_false hcuts, runWork_failWith_bind]

end

/-- A layer's change that adds and frees no page keeps the layer's pages. -/
theorem find?_commitLayer_no_pages {h li : Nat} {st : StreamCtx} {l : KvLayer} (len : Nat)
    (hst : Tab.find? (s.comp k).streams h = some st) (hl : st.layers[li]? = some l) :
    Tab.find? ((s.commitLayer k h li len [] []).comp k).streams h = some { st with layers := st.layers.set li { l with len } } := by
  have hget : st.layers.getD li { stage := 0 } = l := by rw [List.getD_eq_getElem?_getD, hl]; rfl
  have hpages : l.pages.filter (fun p => !([] : List Nat).contains p.2) = l.pages := by simp
  simp only [State.commitLayer, State.dropTensors, List.foldl_nil, State.comp_modComp_same, hst, hget, hpages, Tab.find?_set_same]

/-! ### MIX.QUERY -/

/-- The words of the record of MIX.QUERY (08 R342). -/
def mixWords (x : Comp) : List Nat :=
  [ctrGet x.ctrs .tokensAppended, ctrGet x.ctrs .pagesFlushed, ctrGet x.ctrs .pagesColdMoved, ctrGet x.ctrs .rowsAllMasked,
    ctrGet x.ctrs .blocksProcessed, ctrGet x.ctrs .bucketPadKeys, ctrGet x.ctrs .linmixChunks, x.streams.length]

theorem opMixQuery_done (hfn : c.fn = .vf k) (hblock : c.block.length = 8) (haligned : u64 c.block 0 % 64 = 0) :
    opMixQuery c s = .ok (.done (s.record c.fn (u64 c.block 0) (wordBytes (mixWords (s.comp k)))) .ok 0) := by
  have ha : aligned64 (u64 c.block 0) = true := by simp [aligned64, haligned]
  rw [← layout_wordFields (l := mixWords (s.comp k)) (n := 64) rfl]
  simp only [opMixQuery, vfOf_vf hfn, chk_blockLen hblock, fld_of_true ha, pure_bind]
  exact runWork_putRecord_done ..

/-! ### Counters -/

theorem ctrGet_ctrAdd_same (l : List (Ctr × Nat)) (x : Ctr) (n : Nat) : ctrGet (ctrAdd l x n) x = sat64 (ctrGet l x) n := by
  induction l with
  | nil => simp [ctrAdd, ctrGet]
  | cons p r ih =>
    obtain ⟨y, m⟩ := p
    by_cases h : x = y <;> simp [ctrAdd, ctrGet, h, ih]

/-! ### Tensors with no written tile -/

theorem State.dropTensor_unwritten {addr : Nat} {t : Tensor} (h : Tab.find? (s.comp k).tensors addr = some t) (ht : t.tiles = []) :
    s.dropTensor k addr = s.modComp k fun x => { x with tensors := Tab.del x.tensors addr } := by
  simp only [State.dropTensor, h, ht, List.foldl_nil]

theorem State.addTensor_unwritten (s : State) (k addr : Nat) {t : Tensor} (ht : t.tiles = []) :
    s.addTensor k addr t = s.modComp k fun x => { x with tensors := Tab.set x.tensors addr t } := by
  simp only [State.addTensor, ht, List.foldl_nil]

theorem State.find?_addTensor (s : State) (k addr : Nat) (t : Tensor) :
    Tab.find? ((s.addTensor k addr t).comp k).tensors addr = some t := by
  simp only [State.addTensor, State.comp_modComp_same, Tab.find?_set_same]

/-- A tensor with no written tile that takes the place of another changes tensors of its compartment only. -/
theorem State.replaceTensor_unwritten_frame {addr : Nat} {t t' : Tensor} (h : Tab.find? (s.comp k).tensors addr = some t)
    (ht : t.tiles = []) (ht' : t'.tiles = []) :
    ((s.replaceTensor k addr t').comp k).ctrs = (s.comp k).ctrs ∧ ∀ j, j ≠ k → (s.replaceTensor k addr t').comp j = s.comp j := by
  rw [State.replaceTensor, State.dropTensor_unwritten h ht, State.addTensor_unwritten _ _ _ ht']
  constructor
  · simp only [State.comp_modComp_same]
  · intro j hj
    rw [State.comp_modComp_other _ _ hj, State.comp_modComp_other _ _ hj]

/-! ### COLD_PAGE_MOVE -/

theorem exec_coldPageMove (k h layer page : Nat) (s : State) :
    exec (.coldPageMove k h layer page) s = .next (s.coldMove k h layer page) := rfl

theorem coldMove_of_none_due {h : Nat} (layer page : Nat)
    (hnone : ∀ st, Tab.find? (s.comp k).streams h = some st → s.coldNext k st = none) : s.coldMove k h layer page = s := by
  unfold State.coldMove
  split
  · rfl
  · next st hst => simp only [hnone st hst]

/-- Taking down a page with no written tile leaves its count for settle, and nothing else. -/
theorem run_pageDown_unwritten (s : State) (k addr : Nat) {t : Tensor} (ht : t.tiles = []) :
    (ExceptT.run (pageDown k addr t)).run s = (.ok [], s.commit (forgeCmd k) (.count k [(.pagesColdMoved, 1)])) := by
  simp only [pageDown, ht]
  rfl

/-- The state in which the device has counted one page moved. -/
def State.countColdMove (s : State) (k : Nat) : State := (({ s with act := {} } : State).bump k .pagesColdMoved 1).flushWindow

theorem workNow_pageDown_unwritten (s : State) (k addr : Nat) {t : Tensor} (ht : t.tiles = []) :
    s.workNow (pageDown k addr t) = (some [], s.countColdMove k) := by
  simp only [State.workNow, run_pageDown_unwritten _ k addr ht, State.commit_commits, List.drop_left, List.foldl_cons, List.foldl_nil]
  rfl

theorem State.comp_congr {t : State} (h : t.comps = s.comps) (j : Nat) : t.comp j = s.comp j := by
  rw [State.comp, h, State.comp]

theorem comp_countColdMove (s : State) (k j : Nat) : (s.countColdMove k).comp j = (s.bump k .pagesColdMoved 1).comp j :=
  State.comp_congr rfl j

theorem tensors_countColdMove (s : State) (k : Nat) : ((s.countColdMove k).comp k).tensors = (s.comp k).tensors := by
  rw [comp_countColdMove, State.bump, State.comp_modComp_same]

theorem ctrs_countColdMove (s : State) (k : Nat) :
    ((s.countColdMove k).comp k).ctrs = ctrAdd (s.comp k).ctrs .pagesColdMoved 1 := by
  rw [comp_countColdMove, State.bump, State.comp_modComp_same]

theorem comp_countColdMove_other (s : State) {k j : Nat} (h : j ≠ k) : (s.countColdMove k).comp j = s.comp j := by
  rw [comp_countColdMove, State.bump, State.comp_modComp_other _ _ h]

/-- The page that is due moves where its stream's cold pages live in the host window, forges run, the settle is of a stroke in
which the compartment ran, and the window has room. -/
theorem coldMove_of_due {h layer page addr : Nat} {st : StreamCtx} {t : Tensor} (hst : Tab.find? (s.comp k).streams h = some st)
    (hcold : st.coldHome = 2) (hdue : s.coldNext k st = some (layer, page, addr)) (ht : Tab.find? (s.comp k).tensors addr = some t)
    (htiles : t.tiles = []) (hforges : s.forgesRun = true) (hphase : s.stroke.phase = .settle) (hran : k ∈ s.stroke.ran)
    (hroom : s.spaceFree k 0 (0, 0, Tensor.homeBytes { t with home := 2 }) = true) :
    s.coldMove k h layer page = (s.countColdMove k).replaceTensor k addr { t with home := 2 } := by
  simp only [State.coldMove, hst, hdue, ht, workNow_pageDown_unwritten s k addr htiles]
  rw [if_pos ⟨hcold, trivial, trivial, hforges, hphase, hran, hroom⟩, htiles]

end Sys2Proof.Machine

open Sys2Proof Sys2Proof.Machine

/-- Settles O40: a layer's pages by arithmetic, the two commands by their checks that pass, and the page that is due by the one
branch of its move. -/
theorem layersGrowByPagesAndShrinkWithinTheOpenPage : Obligations.LayersGrowByPagesAndShrinkWithinTheOpenPage := by
  refine ⟨fun _ _ _ _ _ => ⟨_, exec_coldPageMove ..⟩, fun _ _ _ _ => mem_flushPages, ?truncate,
    fun _ _ _ _ len _ _ => find?_commitLayer_no_pages len, ?query,
    fun _ _ _ layer page hnone => (exec_coldPageMove ..).trans (congrArg _ (coldMove_of_none_due layer page hnone)), ?due⟩
  case truncate =>
    rintro c s k _ _ st l hadmits hfn hblock hst rfl hl rfl hzero hpending hone
    constructor
    · intro hlen hopen
      exact congrArg _ (runCmd_of_done hadmits (opKvTruncate_within_page hfn hblock hst hl hzero hpending hone hlen (by omega))
        (framed_commit hadmits ..))
    · intro hsealed
      exact congrArg _ (runCmd_of_done hadmits (opKvTruncate_sealed_page hfn hblock hst hl hzero hpending hone (by omega))
        (framed_self hadmits))
  case query =>
    intro c s k hadmits hfn hblock haligned
    exact ⟨_, congrArg _ (runCmd_of_done hadmits (opMixQuery_done hfn hblock haligned) (framed_record hadmits ..)),
      length_wordBytes _, u64_wordBytes [] _ _, u64_wordBytes ((mixWords (s.comp k)).take 7) [] _⟩
  case due =>
    intro s k h layer page addr st t hst hcold hdue ht htiles hforges hphase hran hroom
    have ht' : Tab.find? ((s.countColdMove k).comp k).tensors addr = some t := (tensors_countColdMove s k).symm ▸ ht
    obtain ⟨hctrs, hothers⟩ := State.replaceTensor_unwritten_frame (t' := { t with home := 2 }) ht' htiles htiles
    have hmove := coldMove_of_due hst hcold hdue ht htiles hforges hphase hran hroom
    refine ⟨_, (exec_coldPageMove ..).trans (congrArg _ hmove), State.find?_addTensor .., ?_, fun j hj => ?_⟩
    · rw [hctrs, ctrs_countColdMove, ctrGet_ctrAdd_same]
    · rw [hothers j hj, comp_countColdMove_other s hj]

end

section
/-! SUPPORT. A training state after each access to it, and messages that reach one or are stale (09 R358, R361, R362, R363, R373;
13 R505). -/

namespace Sys2Proof.Machine

variable {s : State} {k i target : Nat} {t : Train}

/-! ### The six commands -/

theorem exec_trainContribution (k i target gen : Nat) (x : Contribution) (s : State) :
    exec (.trainContribution k i target gen x) s = .next (opTrainContribution k i target gen x s) := rfl

theorem exec_stepClose (k i target : Nat) (s : State) : exec (.stepClose k i target) s = .next (opStepClose k i target s) := rfl

theorem exec_laggedMark (k i target j : Nat) (s : State) :
    exec (.laggedMark k i target j) s = .next (opLaggedMark k i target j s) := rfl

theorem exec_trainUpdateMessage (k i target gen : Nat) (m : UpdMsg) (s : State) :
    exec (.trainUpdateMessage k i target gen m) s = .next (opUpdateMessage k i target gen m s) := rfl

theorem exec_trainUpdateApply (k i target : Nat) (s : State) :
    exec (.trainUpdateApply k i target) s = .next (opUpdateApply k i target s) := rfl

theorem exec_partsTransfer (k i target gen : Nat) (p : Parts) (s : State) :
    exec (.partsTransfer k i target gen p) s = .next (opPartsTransfer k i target gen p s) := rfl

/-! ### Reading a training state -/

@[simp] theorem Variant.train?_setTrain_same (v : Variant) (target : Nat) (x : Option Train) :
    (v.setTrain target x).train? target = x := by
  by_cases h : target = 2 <;> simp [Variant.train?, Variant.setTrain, h]

theorem find?_variants_modVariant (s : State) (k i : Nat) (f : Variant → Variant) :
    Tab.find? ((s.modVariant k i f).comp k).variants i = (Tab.find? (s.comp k).variants i).map f := by
  rw [State.modVariant, State.comp_modComp_same]
  cases h : Tab.find? (s.comp k).variants i with
  | none => exact h
  | some v => exact Tab.find?_set_same ..

@[simp] theorem State.trainOf_modTrain_same (s : State) (k i target : Nat) (f : Train → Train) :
    (s.modTrain k i target f).trainOf k i target = (s.trainOf k i target).map f := by
  rw [State.trainOf, State.modTrain, find?_variants_modVariant, State.trainOf]
  cases Tab.find? (s.comp k).variants i with
  | none => rfl
  | some v => exact Variant.train?_setTrain_same ..

theorem find?_variants_of_trainOf (ht : s.trainOf k i target = some t) : ∃ v, Tab.find? (s.comp k).variants i = some v := by
  obtain ⟨v, hv, -⟩ := Option.bind_eq_some_iff.1 ht
  exact ⟨v, hv⟩

/-! ### Stale messages and those that are not -/

theorem trainMsg_of_stale {gen gi : Nat} {g : CollGroup} (ht : s.trainOf k i target = some t)
    (hg : s.groupAt k t.collGroup = some (gi, g)) (hstale : gen < g.gen) (f : Train → State → State) :
    s.trainMsg k i target gen f = s.modGroup k gi fun g => { g with staleDropped := sat64 g.staleDropped 1 } := by
  simp only [State.trainMsg, ht, hg, if_pos hstale]

theorem trainMsg_of_current {gen : Nat} (ht : s.trainOf k i target = some t)
    (hgen : ∀ gi g, s.groupAt k t.collGroup = some (gi, g) → g.gen ≤ gen) (f : Train → State → State) :
    s.trainMsg k i target gen f = f t s := by
  cases hg : s.groupAt k t.collGroup with
  | none => simp only [State.trainMsg, ht, hg]
  | some p => simp only [State.trainMsg, ht, hg, if_neg (Nat.not_lt.2 (hgen p.1 p.2 hg))]

/-- Only a state that waits for its rejoin makes progress with what arrives. -/
theorem rejoinProgress_of_open (ht : s.trainOf k i target = some t) (hopen : t.opening = none) :
    s.rejoinProgress k i target = s := by
  simp only [State.rejoinProgress, ht, hopen]

@[simp] theorem Train.opening_hold (t : Train) (from_ : Nat) (m : UpdMsg) : (t.hold from_ m).opening = t.opening := by
  simp only [Train.hold]
  split <;> rfl

/-- A change that leaves the state open is the whole of what a message leaves of it. -/
theorem trainOf_modTrain_rejoinProgress {f : Train → Train} (ht : s.trainOf k i target = some t) (hopen : (f t).opening = none) :
    ((s.modTrain k i target f).rejoinProgress k i target).trainOf k i target = some (f t) := by
  have hf : (s.modTrain k i target f).trainOf k i target = some (f t) := by simp [ht]
  rw [rejoinProgress_of_open hf hopen, hf]

section
variable {gen : Nat} (ht : s.trainOf k i target = some t) (hgen : ∀ gi g, s.groupAt k t.collGroup = some (gi, g) → g.gen ≤ gen)
include ht hgen

theorem trainOf_opTrainContribution (x : Contribution) :
    (opTrainContribution k i target gen x s).trainOf k i target = some (t.rootReceive s.stroke.number x) := by
  simp [opTrainContribution, trainMsg_of_current ht hgen, ht]

theorem trainOf_opUpdateMessage (hopen : t.opening = none) (m : UpdMsg) :
    (opUpdateMessage k i target gen m s).trainOf k i target = some (t.hold (s.stroke.number + 1) m) := by
  rw [opUpdateMessage, trainMsg_of_current ht hgen]
  exact trainOf_modTrain_rejoinProgress ht ((t.opening_hold ..).trans hopen)

theorem trainOf_opPartsTransfer (hopen : t.opening = none) (p : Parts) :
    (opPartsTransfer k i target gen p s).trainOf k i target = some
      { t with received := (t.received.filter fun q => !(q.shard == p.shard && q.update == p.update && q.part == p.part)) ++ [p] } := by
  rw [opPartsTransfer, trainMsg_of_current ht hgen]
  exact trainOf_modTrain_rejoinProgress ht hopen

end

end Sys2Proof.Machine
end

section
/-! SUPPORT. The root of a training state: what reaches it, whom it marks and how it closes a step (09 R358, R360, R372, R374,
R376). -/

namespace Sys2Proof.Machine

variable {s : State} {k i target : Nat} {t : Train} {r : TrainRoot}

/-! ### What reaches the root -/

/-- A digest that reaches the root joins the reports or the rebuilds, if anything. -/
theorem Train.rootDigest_eq (t : Train) (r : TrainRoot) (j : Nat) (d : Nat × Nat × List Byte) :
    ∃ reports rebuilds, t.rootDigest r j d = { r with reports, rebuilds } := by
  unfold Train.rootDigest
  repeat' split
  all_goals exact ⟨_, _, rfl⟩

theorem Train.foldl_rootDigest_eq (t : Train) (j : Nat) (l : List (Nat × Nat × List Byte)) (r : TrainRoot) :
    ∃ reports rebuilds, l.foldl (fun r d => t.rootDigest r j d) r = { r with reports, rebuilds } := by
  induction l generalizing r with
  | nil => exact ⟨_, _, rfl⟩
  | cons d l ih =>
    obtain ⟨reports, rebuilds, hd⟩ := t.rootDigest_eq r j d
    obtain ⟨reports', rebuilds', hl⟩ := ih (t.rootDigest r j d)
    exact ⟨reports', rebuilds', by rw [List.foldl_cons, hl, hd]⟩

section
variable {x : Contribution} (now : Nat) (hr : t.root = some r)
include hr

theorem Train.rootReceive_of_stale (hstale : x.gen < r.gen) : t.rootReceive now x = { t with stale := sat64 t.stale 1 } := by
  simp only [Train.rootReceive, hr, if_pos hstale]

theorem Train.rootReceive_of_duplicate (hgen : r.gen ≤ x.gen) (harrived : (x.replica, x.step) ∈ r.arrived) :
    t.rootReceive now x = { t with duplicates := sat64 t.duplicates 1 } := by
  simp only [Train.rootReceive, hr, if_neg (Nat.not_lt.2 hgen), if_pos (List.contains_iff_mem.2 harrived)]

theorem Train.root_rootReceive_of_first (hgen : r.gen ≤ x.gen) (hfirst : (x.replica, x.step) ∉ r.arrived) :
    ∃ reports rebuilds, (t.rootReceive now x).root = some
      { r with reports, rebuilds, arrived := r.arrived ++ [(x.replica, x.step)], held := r.held ++ [(now, x)] } := by
  obtain ⟨reports, rebuilds, hfold⟩ := t.foldl_rootDigest_eq x.replica x.digests r
  refine ⟨reports, rebuilds, ?_⟩
  simp only [Train.rootReceive, hr, if_neg (Nat.not_lt.2 hgen), List.contains_iff_mem, if_neg hfirst, hfold]

end

/-! ### Marking a replica -/

theorem trainOf_opLaggedMark {j : Nat} (ht : s.trainOf k i target = some t) (hr : t.root = some r) (hmissed : 64 ≤ Tab.get 0 r.missed j)
    (hnew : j ∉ r.lagged) :
    (opLaggedMark k i target j s).trainOf k i target = some { t with root := some { r with lagged := r.lagged ++ [j] } } := by
  simp [opLaggedMark, Train.modRoot, ht, hr, hmissed, hnew]

/-! ### Closing a step -/

/-- The verdicts of a message are noted, with the digests agreed and the checkpoint; the root keeps the rest. -/
theorem Train.verdicts_root (t : Train) (step : Nat) (l : List Nat) (r : TrainRoot) :
    ∃ judged agreed ckpt, (t.verdicts step r l).1 = { r with judged, agreed, ckpt } := by
  induction l generalizing r with
  | nil => exact ⟨_, _, _, rfl⟩
  | cons u l ih =>
    rw [Train.verdicts]
    split
    · dsimp only
      split
      · exact ⟨_, _, _, rfl⟩
      · obtain ⟨judged, agreed, ckpt, h⟩ := ih _
        exact ⟨judged, agreed, ckpt, h.trans rfl⟩
    · exact ih r

/-- A close leaves one message for its step; the root goes on to the next, or starts the next generation after a ROLLBACK. -/
theorem Train.close_message (t : Train) (r : TrainRoot) :
    ∃ m, (t.close r).outbox = r.outbox ++ [m] ∧ m.step = r.nextClose ∧ m.gen = r.gen ∧
      (m.rollback = false → (t.close r).nextClose = r.nextClose + 1 ∧ (t.close r).gen = r.gen) ∧
      (m.rollback = true → (t.close r).gen = r.gen + 1 ∧ (t.close r).held = [] ∧ (t.close r).arrived = []) := by
  generalize hclose : t.close r = closed
  unfold Train.close at hclose
  extract_lets step inc n tiles lagged missed due at hclose
  obtain ⟨judged, agreed, ckpt, hroot⟩ := t.verdicts_root step due r
  generalize t.verdicts step r due = p at hroot hclose
  obtain ⟨judgedRoot, verdicts⟩ := p
  obtain rfl : judgedRoot = { r with judged, agreed, ckpt } := hroot
  dsimp -zeta only at hclose
  extract_lets m next at hclose
  refine ⟨m, ?_⟩
  by_cases hm : m.rollback = true
  · rw [if_pos hm] at hclose
    subst hclose
    exact ⟨rfl, rfl, rfl, fun h => absurd (hm.symm.trans h) Bool.noConfusion, fun _ => ⟨rfl, rfl, rfl⟩⟩
  · rw [if_neg hm] at hclose
    subst hclose
    exact ⟨rfl, rfl, rfl, fun _ => ⟨rfl, rfl⟩, fun h => absurd h hm⟩

theorem variants_traceRec (s : State) (k bit : Nat) (e : TraceRec) :
    ((s.traceRec k bit e).comp k).variants = (s.comp k).variants := by
  unfold State.traceRec
  split
  · rfl
  · split
    · rfl
    · split
      · rw [State.bump, State.comp_modComp_same]
      · rw [State.comp_modComp_same]

@[simp] theorem State.trainOf_traceKind (s : State) (k bit kind i target : Nat) :
    (s.traceKind k bit kind).trainOf k i target = s.trainOf k i target := by
  rw [State.trainOf, State.traceKind, variants_traceRec]
  rfl

theorem State.trainOf_foldl_traceKind (l : List Nat) (s : State) (k bit kind i target : Nat) :
    (l.foldl (fun s _ => s.traceKind k bit kind) s).trainOf k i target = s.trainOf k i target := by
  induction l generalizing s with
  | nil => rfl
  | cons _ l ih => rw [List.foldl_cons, ih, State.trainOf_traceKind]

theorem trainOf_opStepClose (ht : s.trainOf k i target = some t) (hr : t.root = some r) (hopen : t.opening = none)
    (hphase : s.stroke.phase = .settle) (hruns : s.rootRuns = true) (hclosable : t.closable r s.stroke.number = true) :
    (opStepClose k i target s).trainOf k i target = some { t with root := some (t.close r) } := by
  have hmay : s.stroke.phase = .settle ∧ s.rootRuns ∧ t.opening.isNone ∧ t.closable r s.stroke.number :=
    ⟨hphase, hruns, by rw [hopen]; rfl, hclosable⟩
  simp only [opStepClose, ht, hr, if_pos hmay, State.trainOf_modTrain_same, State.trainOf_foldl_traceKind, State.trainOf_traceKind,
    Option.map_some, Train.modRoot]

end Sys2Proof.Machine
end

section
/-! SUPPORT. TRAIN_UPDATE_APPLY: the waiting TRAIN.STEP in the run of its compartment (09 R363). -/

namespace Sys2Proof.Machine

variable {s : State} {k i target : Nat} {t : Train} {x : Stepping} {a : Adm}
  (ht : s.trainOf k i target = some t) (hx : t.stepping = some x) (ha : s.admOf x.order = some a)
include ht hx ha

theorem opUpdateApply_outside_run (hout : s.inRunOf k = false ∨ s.stroke.guard = true) : opUpdateApply k i target s = s := by
  obtain ⟨v, hv⟩ := find?_variants_of_trainOf ht
  have hskip : (!s.inRunOf k || s.stroke.guard) = true := by simpa using hout
  simp only [opUpdateApply, ht, hv, hx, Option.bind_some, ha, if_pos hskip]

theorem opUpdateApply_completes {s' : State} {st : Status} {d : Nat} (hrun : s.inRunOf k = true) (hguard : s.stroke.guard = false)
    (hwork : (ExceptT.run (applyUpdate a.cmd k i target)).run { s with act := { order := some a.cmd.order, snap := a.snap } } = (.ok (st, d), s'))
    (hst : st ≠ .replicaDiverged) : opUpdateApply k i target s = s'.flushWindow.reply a.cmd a.op st d := by
  obtain ⟨v, hv⟩ := find?_variants_of_trainOf ht
  have hgo : ¬ (!s.inRunOf k || s.stroke.guard) = true := by simp [hrun, hguard]
  simp only [opUpdateApply, ht, hv, hx, Option.bind_some, ha, if_neg hgo, hwork, if_neg hst]

end Sys2Proof.Machine
end

section

open Sys2Proof Sys2Proof.Machine

/-- Settles O45: a message is stale or changes its training state alone, a close keeps what its verdicts leave of the root, and the
waiting step ends as its work does. -/
theorem trainingMessagesReachTheirState : Obligations.TrainingMessagesReachTheirState := by
  refine ⟨?answers, ?messages, ?root, ?lagged, ?close, ?apply⟩
  case answers =>
    intro s a b c d e f g
    simp [exec_trainContribution, exec_stepClose, exec_laggedMark, exec_trainUpdateMessage, exec_trainUpdateApply, exec_partsTransfer]
  case messages =>
    intro s k i target gen t ht
    refine ⟨fun gi g hg hstale => ⟨fun x => ?_, fun m => ?_, fun p => ?_⟩, fun hgen => ⟨fun x => ?_, fun hopen m => ?_, fun hopen p => ?_⟩⟩
    · rw [exec_trainContribution, opTrainContribution, trainMsg_of_stale ht hg hstale]
    · rw [exec_trainUpdateMessage, opUpdateMessage, trainMsg_of_stale ht hg hstale]
    · rw [exec_partsTransfer, opPartsTransfer, trainMsg_of_stale ht hg hstale]
    · exact ⟨_, exec_trainContribution .., trainOf_opTrainContribution ht hgen x⟩
    · exact ⟨_, exec_trainUpdateMessage .., trainOf_opUpdateMessage ht hgen hopen m⟩
    · exact ⟨_, exec_partsTransfer .., trainOf_opPartsTransfer ht hgen hopen p⟩
  case root =>
    intro t r now x hr
    refine ⟨Train.rootReceive_of_stale now hr, Train.rootReceive_of_duplicate now hr, fun hgen hfirst => ?_⟩
    obtain ⟨reports, rebuilds, hroot⟩ := Train.root_rootReceive_of_first now hr hgen hfirst
    exact ⟨_, hroot, rfl, rfl, rfl, rfl⟩
  case lagged =>
    intro s k i target j t r ht hr hmissed hnew
    exact ⟨_, exec_laggedMark .., trainOf_opLaggedMark ht hr hmissed hnew⟩
  case close =>
    intro s k i target t r ht hr hopen hphase hruns hclosable
    obtain ⟨m, hmessage⟩ := t.close_message r
    exact ⟨_, _, m, exec_stepClose .., trainOf_opStepClose ht hr hopen hphase hruns hclosable, hmessage⟩
  case apply =>
    intro s k i target t x a ht hx ha
    refine ⟨fun hout => ?_, fun s' st d hrun hguard hwork hst => ?_⟩
    · rw [exec_trainUpdateApply, opUpdateApply_outside_run ht hx ha hout]
    · rw [exec_trainUpdateApply, opUpdateApply_completes ht hx ha hrun hguard hwork hst]

end
